-- ==== Sys2Proof/Word.lean ====
section
/-!
DEFINITION. The word types of the model and the index types of the package's units (spec 00_scope.md, Table 0.5).
Indices are `Fin`, so that an index of a unit the package does not have cannot be written.
-/

namespace Sys2Proof

/-- One byte of memory, of a frame or of a register window. -/
abbrev Byte := BitVec 8
/-- A 64-bit register of a hart. -/
abbrev Word := BitVec 64

/-- Digital core c (0 to 1,023); it lies in bay c / 128 (spec 02_cores_and_extensions.md). -/
abbrev Core := Fin 1024
/-- Photonic matrix engine E(e); bay n holds E(2n) and E(2n+1). -/
abbrev Eng := Fin 16
/-- Bay n, with Cn, Mn and Sn. -/
abbrev Bay := Fin 8
/-- Usius port P(p); link die pair k serves P(4k) to P(4k+3). -/
abbrev Port := Fin 32
/-- Link die pair k. -/
abbrev Pair := Fin 8
/-- Wavelength line l of a port, a bus or a plane. -/
abbrev Line := Fin 16
/-- Comb laser L(j): 0 to 7 active, 8 and 9 the bank spares. -/
abbrev Laser := Fin 10
/-- Laser bank: 0 is bank A (L0 to L3, spare L8), 1 is bank B (L4 to L7, spare L9). -/
abbrev Bank := Fin 2
/-- Tenant T(t). -/
abbrev Tenant := Fin 16
/-- PCIe function: 0 is PF0, n is VF n (1 to 16). -/
abbrev Fn := Fin 17
/-- Queue number of a tenant. -/
abbrev QNum := Fin 256
/-- Headgate: 0 is A, 1 is B. -/
abbrev Gate := Fin 2
/-- Loop engine n. -/
abbrev LoopEng := Fin 12
/-- Time domain d. -/
abbrev Domain := Fin 2
/-- Power domain PD(d). -/
abbrev PwrDom := Fin 24
/-- Die index of R422. -/
abbrev Die := Fin 100
/-- A register number of the RISC-V register files. -/
abbrev XReg := BitVec 5

end Sys2Proof
end

