-- ==== Sys2Proof/Syntax.lean ====
section
/-!
DEFINITION. The commands of the package, one constructor per row of spec/opcode_table.json, in the table's order, and
the operand types they carry. A command is a write or a read of a register, an instruction of a hart, a transaction or
frame of the fabric, an operation of the management path, or an event inside the package. What the outside world
supplies at an event (a converter code, a temperature, which unit failed) is an operand of that event.
-/

namespace Sys2Proof

/-- Who makes a BAR0 access: a PCIe function, or a hart through device control space (R327). -/
inductive Requester where
  | fn (f : Fn)
  | hart (c : Core)
  deriving DecidableEq, Repr

/-- A Musyn path (R337): the mailbox of a function, with the request's TAG, or CAN FD, with the transaction number. -/
inductive MusynPath where
  | mbx (f : Fn) (tag : BitVec 16)
  | can (txn : Byte)
  deriving DecidableEq, Repr

/-- How a command of a CMD register arrives: as a write of the register, or as an EXEC of its OD entry (R339). -/
inductive CmdSrc where
  | reg (r : Requester)
  | od (p : MusynPath)
  deriving DecidableEq, Repr

/-- Access sizes B, H, W and D. -/
inductive Size where
  | b | h | w | d
  deriving DecidableEq, Repr

/-- Addressing of a vector access (V extension): unit stride, unit stride fault-only-first (loads), a stride in rs2, indices in vs2,
whole registers, and a mask register. -/
inductive VecMode where
  | unit
  | faultFirst
  | strided (rs2 : XReg)
  | indexed (vs2 : XReg)
  | whole
  | mask
  deriving DecidableEq, Repr

/-- A vector access: width of the elements, of the indices of an indexed one; fields of a segment less 1, registers less 1 of a whole
access; and whether v0 masks it. -/
structure VecAcc where
  eew : Size
  mode : VecMode
  nf : Fin 8
  masked : Bool
  deriving DecidableEq, Repr

/-- Forms of a load: scalar integer, scalar floating point, or vector. -/
inductive LoadForm where
  | int (sz : Size) (unsigned : Bool)
  | fp (sz : Size)
  | vec (a : VecAcc)
  deriving DecidableEq, Repr

/-- Forms of a store. -/
inductive StoreForm where
  | int (sz : Size)
  | fp (sz : Size)
  | vec (a : VecAcc)
  deriving DecidableEq, Repr

/-- LR, SC and the AMOs of the A extension. -/
inductive AmoForm where
  | lr | sc | swap | add | xor | and | or | min | max | minu | maxu
  deriving DecidableEq, Repr

/-- A predecessor or successor set of FENCE, as far as it concerns memory. -/
structure FenceSet where
  r : Bool
  w : Bool
  deriving DecidableEq, Repr

/-- Register fields of a Henovik instruction (Table 2.5). -/
structure RFields where
  rd : XReg
  rs1 : XReg
  rs2 : XReg
  deriving DecidableEq, Repr

/-- What firmware loads onto a hart with a context (R51): its saved integer, FP, vector and matrix state, and what M mode sets
for it. Lists are of registers in order, or of bytes of registers in order. -/
structure ContextImage where
  tenant : Tenant
  hsEn : Bool
  hdEn : Bool
  hxEn : Bool
  pc : Word
  satp : Word
  fs : BitVec 2
  vs : BitVec 2
  xs : BitVec 2
  x : List Word
  f : List Word
  fcsr : Byte
  v : List Byte
  vl : BitVec 11
  vtype : Byte
  tile : List Byte
  tscale : List Byte
  acc : List (BitVec 32)
  hxseq : BitVec 32
  hraise : Word
  hfqhead : BitVec 12
  deriving DecidableEq, Repr

/-- The forms of a CSR instruction: CSRRW, CSRRS, CSRRC, and their immediate forms. -/
inductive CsrOp where
  | rw | rs | rc
  deriving DecidableEq, Repr

/-- Fields of a transaction header and its data (Table 8.4), but for OP. -/
structure XBody where
  attr : BitVec 5
  size : BitVec 9
  core : BitVec 10
  ftag : BitVec 16
  iseq : BitVec 32
  addr : BitVec 48
  data : List Byte
  deriving DecidableEq, Repr

/-- A transaction with its operation code (Table 8.4). -/
structure Xact where
  op : Byte
  body : XBody
  deriving DecidableEq, Repr

/-- The part of a frame header that a transaction's performer uses: the source package and the FLOW value. -/
structure Envelope where
  src : BitVec 20
  flow : BitVec 16
  deriving DecidableEq, Repr

/-- What a patrol-scrub read finds at a location (R163). -/
inductive EccFind where
  | clean
  | corrected
  | uncorrectable
  deriving DecidableEq, Repr

/-- Result of an engine self-test (R355): pass, or the first failing row (0xFF for the input side). -/
inductive SelftestResult where
  | pass
  | fail (row : Byte)
  | aborted
  deriving DecidableEq, Repr

/-- Fields of a LINK_ACK body (Table 8.6). -/
structure LinkAckBody where
  nak : Bool
  ackseq : BitVec 16
  cr0 : BitVec 16
  cr1 : BitVec 16
  cr2 : BitVec 16
  deriving DecidableEq, Repr

/-- Fields of a TRAIN body (Table 8.6). -/
structure TrainBody where
  level : BitVec 4
  lightReq : Bool
  lightOk : Bool
  pkg : BitVec 20
  port : BitVec 7
  epoch : BitVec 32
  linesOk : BitVec 16
  features : BitVec 32
  deriving DecidableEq, Repr

/-- Fields of a TIME body (Table 12.2). -/
structure TimeBody where
  msg : BitVec 2
  domain : Domain
  trn : Bool
  hopsGm : BitVec 4
  seqid : BitVec 16
  stamp : BitVec 64
  gmPkg : BitVec 20
  gmLocked : Bool
  deriving DecidableEq, Repr

/-- Why a training starts (R209). -/
inductive TrainCause where
  | light
  | retrain
  deriving DecidableEq, Repr

/-- What the hardware of a port finds during a training (Table 8.7): lines with lock and deskew, whether any symbol was
corrected in the last 200 µs, and the measured one-way delay in ps. -/
structure TrainMeasure where
  linesLocked : BitVec 16
  corrected : Bool
  delayPs : Nat
  deriving DecidableEq, Repr

/-- Why a line fails (R213). -/
inductive LineCause where
  | cdr
  | power
  | errorShare
  deriving DecidableEq, Repr

/-- The six ring classes of R22, with the position that names the ring. -/
inductive Ring where
  | link (cls : Fin 4) (p : Port) (l : Line)
  | engIn (e : Eng) (bus : Fin 4) (l : Line)
  | engWeight (e : Eng) (row : Fin 64) (col : Fin 64)
  deriving DecidableEq, Repr

/-- A chain of 16 rings along one waveguide (spec 10, Acquisition and line assignment). -/
inductive Chain where
  | link (cls : Fin 4) (p : Port)
  | engIn (e : Eng) (bus : Fin 4)
  | engWeight (e : Eng) (row : Fin 64) (bus : Fin 4)
  deriving DecidableEq, Repr

/-- One resonance of a sweep (R275): its heater code, and the depth of the 16 pilot tones measured while parked there,
in units of 0.0001 %. -/
structure Resonance where
  code : BitVec 16
  tones : List Nat
  halfDepth : BitVec 12
  deriving DecidableEq, Repr

/-- What the acquisition of one ring of a chain meets: the code predicted by its calibration table for its line, the
heater shift of one line spacing in codes, and the resonances of its sweep. -/
structure RingSweep where
  pred : BitVec 16
  codesPerLine : Nat
  found : List Resonance
  deriving DecidableEq, Repr

/-- Measured results of a calibration, as the checks of Table 11.4 read them and as they are stored (Tables 11.6 to 11.8). A list of
indexed values names what was measured; a value it does not name was measured as it is in force.
PORT: taps, bias and slicer thresholds of the lines (three levels each), predicted codes by link ring, eye heights in %, edge switches
(plane × 256 + element, CODE_BAR, CODE_CROSS, extinction in 0.1 dB), delay trim in ps.
ENGINE: full set by ring × 16 + line, sparse set by ring × 8 + line, β and γ by row × 6 + combination, seeds, other fields of the point by
number, the temperature moved and T_cal in 1/256 °C.
LASER: REF present throughout, the two runs in kHz, REF power in 0.01 dBm, temperature. PLANE: core elements and TREF. -/
inductive CalMeasure where
  | port (mainTap preTap postTap : List Int) (bias thresholds : List Nat) (pred : List (Nat × Int)) (eyePct : List Nat)
      (elems : List (Nat × Nat × Nat × Nat)) (trimPs : Int)
  | engine (full sparse other beta gamma seeds : List (Nat × Int)) (moved256 : Nat) (tCal256 : Int)
  | laser (refThroughout : Bool) (run1kHz run2kHz : Int) (refPwr : Int) (temp256 : Int)
  | plane (elems : List (Nat × Nat × Nat × Nat)) (tref256 : Int)
  deriving DecidableEq, Repr

/-- The header of a mailbox request (Table 13.9), but for OP, which the command names, and LENGTH. -/
structure MbxHdr where
  area : Byte
  index : BitVec 16
  offset : BitVec 32
  length : BitVec 16
  tag : BitVec 16
  deriving DecidableEq, Repr

/-- What the outside world and the dies do at the boot steps (Table 15.3): which required step fails, which slot does not
authenticate, and which units fail each per-unit step. A `true` bit or flag is a failure. `hang` is a step that does not end (0: none). -/
structure BootEnv where
  testEn : Bool
  bootMode : BitVec 2
  nvmFail : Bool
  authFailA : Bool
  authFailB : Bool
  hubFail : Bool
  hbmFail : BitVec 8
  laserFail : BitVec 10
  controlFail : Bool
  ringFail : BitVec 16
  pairFail : BitVec 8
  portFail : BitVec 32
  bayFail : BitVec 8
  ucieFail : BitVec 16
  refOk : Bool
  gateSelfTestA : Bool
  gateSelfTestB : Bool
  calMissing : List Nat
  hang : Fin 12
  deriving DecidableEq, Repr

/-- A Logbook record as an event hands it to the writer: severity, source, code, flags and payload bytes 8 to 39. -/
structure LogEvent where
  severity : Byte
  source : BitVec 16
  code : BitVec 16
  flags : Byte
  payload : List Byte
  deriving DecidableEq, Repr

/-- A host configuration write (R318, R319, R321): power state, Bus Master Enable, SR-IOV setup (VF Enable and NumVFs, in
PF0), and the MSI-X control bits. -/
inductive CfgWrite where
  | powerState (d3hot : Bool)
  | busMaster (on : Bool)
  | vfEnable (on : Bool) (numVfs : Fin 17)
  | msixControl (enable fnMask : Bool)
  deriving DecidableEq, Repr

/-- The die that fails in service (Table 1.8), or, for a compute die, its fault during a compute reset (R39). -/
inductive FailDie where
  | compute (b : Bay)
  | hbm (b : Bay)
  | sram (b : Bay)
  | control
  | hub
  | nor
  deriving DecidableEq, Repr

/-- Argument of CALIBRATE on the Musyn path: SCB_ARG and SCB_START_AT (Table 13.8, OD 4.0020). -/
structure CalArg where
  arg : BitVec 64
  startAt : BitVec 64
  deriving DecidableEq, Repr

/-- The commands of the package, one per row of the opcode table, in its order. -/
inductive Instr where
  -- host registers
  | registerWrite (r : Requester) (off : BitVec 28) (data : List Byte)
  | rcFieldRead (r : Requester) (off : BitVec 28) (len : Nat)
  | latched64Read (r : Requester) (off : BitVec 28)
  | latched64Write (r : Requester) (off : BitVec 28) (val : BitVec 32)
  | hubDrvLevelWrite (r : Requester) (val : BitVec 32)
  -- harts: base instructions and CSRs
  | load (c : Core) (form : LoadForm) (rd rs1 : XReg) (imm : BitVec 12)
  | store (c : Core) (form : StoreForm) (rs2 rs1 : XReg) (imm : BitVec 12)
  | lrScAmo (c : Core) (form : AmoForm) (dword : Bool) (f : RFields)
  | fence (c : Core) (pred succ : FenceSet) (tso : Bool)
  | fenceI (c : Core)
  | sfenceVma (c : Core) (rs1 rs2 : XReg)
  | hfqbaseWrite (c : Core) (val : Word)
  | hxseqwWrite (c : Core) (val : Word)
  | contextLoad (c : Core) (ctx : ContextImage)
  | interruptDuringWait (c : Core) (code : Fin 64)
  -- harts: HM
  | mma (c : Core) (funct7 : BitVec 7) (f : RFields)
  | mmaComplete (c : Core)
  | mldT (c : Core) (funct7 : BitVec 7) (f : RFields)
  | mldsT (c : Core) (funct7 : BitVec 7) (f : RFields)
  | mldA (c : Core) (funct7 : BitVec 7) (f : RFields)
  | mstA (c : Core) (funct7 : BitVec 7) (f : RFields)
  | mzeroA (c : Core) (funct7 : BitVec 7) (f : RFields)
  | mcvt (c : Core) (funct7 : BitVec 7) (f : RFields)
  -- harts: HS
  | pegAdd (c : Core) (f : RFields)
  | pegSub (c : Core) (f : RFields)
  | pegWaitge (c : Core) (f : RFields)
  | pegTake (c : Core) (f : RFields)
  | pegRead (c : Core) (f : RFields)
  | raise (c : Core) (f : RFields)
  | timedRelease (k : Fin 256)
  | hfenceRel (c : Core) (f : RFields)
  | hfenceAcq (c : Core) (f : RFields)
  | hfenceCommit (c : Core) (f : RFields)
  | commitTimeout (c : Core)
  -- harts: HD
  | pmxLaunch (c : Core) (f : RFields)
  | detachedLaunchResume (c : Core)
  | pmxWait (c : Core) (f : RFields)
  | pmxPoll (c : Core) (f : RFields)
  | pmxErr (c : Core) (f : RFields)
  | pmxCancel (c : Core) (f : RFields)
  -- harts: HX
  | gld (c : Core) (funct7 : BitVec 7) (f : RFields)
  | gst (c : Core) (funct7 : BitVec 7) (f : RFields)
  | gamo (c : Core) (funct7 : BitVec 7) (f : RFields)
  | crc32c (c : Core) (funct7 : BitVec 7) (f : RFields)
  | vgld (c : Core) (funct7 : BitVec 7) (f : RFields)
  | vgst (c : Core) (funct7 : BitVec 7) (f : RFields)
  | trackerStallResume (c : Core)
  -- transactions that arrive for this package
  | write (env : Envelope) (x : XBody)
  | read (env : Envelope) (x : XBody)
  | amo (env : Envelope) (x : XBody)
  | pegAddOp (env : Envelope) (x : XBody)
  | pegSubOp (env : Envelope) (x : XBody)
  | raiseUp (env : Envelope) (x : XBody)
  | readData (env : Envelope) (x : XBody)
  | amoData (env : Envelope) (x : XBody)
  | ack (env : Envelope) (x : XBody)
  | nack (env : Envelope) (x : XBody)
  | ackUnderflow (env : Envelope) (x : XBody)
  | raiseAnswer (env : Envelope) (x : XBody)
  -- host aperture, memory
  | bar2Read (f : Fn) (off : BitVec 36) (len : Nat)
  | bar2Write (f : Fn) (off : BitVec 36) (data : List Byte)
  | patrolScrub (addr : BitVec 48) (found : EccFind)
  | invalidate (r : Requester)
  | invalidateComplete
  | memFtagWrite (r : Requester) (t : Tenant) (val : BitVec 32)
  -- peg blocks
  | assign (r : Requester)
  | release (r : Requester)
  | clear (r : Requester)
  | blockCommandComplete
  -- work queues
  | queueEnable (r : Requester) (t : Tenant) (q : QNum) (base : BitVec 64)
  | queueDisable (r : Requester) (t : Tenant) (q : QNum)
  | doorbell (f : Fn) (off : BitVec 24) (val : BitVec 32)
  | pegDoorbellTake (t : Tenant) (q : QNum)
  | descriptorFetch (t : Tenant) (q : QNum)
  | descriptorReceived (t : Tenant) (q : QNum)
  | engineQueueAccept (t : Tenant) (q : QNum)
  | dmaNop (t : Tenant) (q : QNum) (i : BitVec 16)
  | dmaCopy (t : Tenant) (q : QNum) (i : BitVec 16)
  | dmaCopyComplete (t : Tenant) (q : QNum) (i : BitVec 16)
  | dmaSignal (t : Tenant) (q : QNum) (i : BitVec 16)
  | dmaSignalTimeout (t : Tenant) (q : QNum) (i : BitVec 16)
  | cancelFrom (r : Requester)
  | cancelOne (r : Requester)
  | resume (r : Requester)
  | pegWatchEnable (f : Fn) (w : Fin 8) (val : BitVec 64)
  | pegWatchDisable (f : Fn) (w : Fin 8)
  -- engines
  | stagingStart (e : Eng)
  | weightsArrived (e : Eng)
  | tileStart (e : Eng)
  | reloadComplete (e : Eng)
  | vectorSlot (e : Eng) (ready : Bool) (codes : List Byte)
  | probeSlot (e : Eng) (codes : List Byte)
  | tileComplete (e : Eng)
  | weirWindowEnd (e : Eng)
  | weirSubwindow (e : Eng)
  | fallbackQueueAccept (b : Bay)
  | fallbackComplete (b : Bay)
  | svcOutWrite (r : Requester) (e : Eng) (val : BitVec 1)
  | keepWarmWrite (r : Requester) (e : Eng) (en : BitVec 1) (duty : BitVec 3)
  | driverHeartbeatStop (e : Eng)
  | ucieLinkLost (e : Eng)
  | ucieRetrainTimeout (e : Eng)
  | engineSelftest (p : MusynPath) (e : Byte)
  | selftestComplete (e : Eng) (res : SelftestResult)
  -- links
  | frameTransmit (p : Port)
  | frameReceived (p : Port) (bytes : List Byte) (codewordOk : Bool)
  | linkAck (p : Port) (b : LinkAckBody)
  | linkAckTimer (p : Port)
  | train (p : Port) (b : TrainBody)
  | trainingStart (p : Port) (cause : TrainCause)
  | trainingComplete (p : Port) (m : TrainMeasure)
  | trainingTimeout (p : Port)
  | trainingRetry (p : Port)
  | retrain (r : Requester) (p : Port)
  | down (r : Requester) (p : Port)
  | lnkCfgEnWrite (r : Requester) (p : Port) (val : BitVec 1)
  | lineFailure (p : Port) (l : Line) (cause : LineCause)
  | lossOfSignal (p : Port)
  | lightFallback (p : Port)
  | gangWrite (r : Requester) (g : Fin 16) (ports : BitVec 32)
  | gangDrainComplete (p : Port)
  | pkgWrite (src : CmdSrc) (val : BitVec 20)
  | beaconFrame (p : Port) (bits : BitVec 128) (powerRise3dB : Bool) (minDepth : Nat)
  | beaconSend (p : Port)
  | linkDieHeartbeatStop (k : Pair)
  -- sluice array and headgates
  | stageWrite (r : Requester) (off : Fin 2048) (data : List Byte)
  | plan (r : Requester)
  | planComplete
  | arm (r : Requester)
  | disarm (r : Requester)
  | discard (r : Requester)
  | activation
  | activationCommit
  | activationComplete
  | postRelightRetrain (p : Port)
  | swap (src : CmdSrc)
  | resync (src : CmdSrc) (g : Gate)
  | resyncComplete (selfTestOk : Bool)
  | leaseRenewal
  | leaseLapse
  | headgateSelfFault
  | heaterCodeUpdate
  | sillScan (readBack : List (Nat × BitVec 12))
  -- light source and ring control
  | laserFailure (j : Laser)
  | selectorTimeout (b : Bank)
  | spareLit (b : Bank)
  | swapToSpare (src : CmdSrc) (j : Laser)
  | laserReturn (src : CmdSrc) (j : Laser)
  | spareTest (src : CmdSrc) (j : Laser)
  | verifyLaser (src : CmdSrc) (j : Laser)
  | verificationSlot (l : Line) (depths : List (Ring × Nat))
  | loopSample (r : Ring) (adc : BitVec 12) (refv : BitVec 12) (dark : Bool)
  | loopApply (req : Requester) (r : Ring)
  | recaptureTimeout (r : Ring)
  | shutterClose (p : Port) (l : Line) (steps : BitVec 16)
  | shutterOpen (p : Port) (l : Line)
  | acquireChain (ch : Chain) (sweep : List RingSweep)
  | acquisitionComplete (ch : Chain) (ok : Bool)
  | loopEngineStop (n : LoopEng)
  -- Scribe
  | calibrate (src : CmdSrc) (a : CalArg)
  | abort (src : CmdSrc) (unit : Byte)
  | calibrationTaken
  | drainReady
  | drainTimeout
  | calibrationComplete (m : CalMeasure) (stored : Bool)
  | shadowRebuild (e : Eng) (temp256 : Int)
  -- FabricTime
  | sync (p : Port) (b : TimeBody) (rxStamp : BitVec 64)
  | syncSend (d : Domain)
  | delayReq (p : Port) (b : TimeBody) (rxStamp : BitVec 64)
  | delayReqSend (d : Domain) (txStamp : BitVec 64)
  | delayResp (p : Port) (b : TimeBody)
  | trackerLoss (d : Domain)
  | primaryReturn
  | slewComplete
  | domainConfigWrite (r : Requester) (d : Domain) (val : BitVec 32)
  | ftmSet (r : Requester)
  | ftmAdjust (r : Requester)
  | ppsInEdge
  | ppsInTimeout
  | ppsOutPulse
  -- PCIe resets and the management path
  | perstAssert
  | hotReset
  | flrPf0
  | flrVf (n : Fin 16)
  | mbxRead (f : Fn) (h : MbxHdr)
  | mbxWrite (f : Fn) (h : MbxHdr) (data : List Byte)
  | mbxDescribe (f : Fn) (h : MbxHdr)
  | mbxNext (f : Fn) (h : MbxHdr)
  | mbxResponseComplete (f : Fn)
  | permitClaim (p : MusynPath) (mask : BitVec 80)
  | permitRelease (p : MusynPath) (mask : BitVec 80) (force : Bool)
  | regRead (p : MusynPath) (off : BitVec 32) (len : BitVec 32)
  | regWrite (p : MusynPath) (off : BitVec 32) (data : List Byte)
  | canInit (data : List Byte)
  | canSeg (data : List Byte)
  | canAbort (txn : Byte) (reason : Byte)
  | canTxnTimeout
  | nmtIdentify (node : BitVec 7)
  | nmtResume (node : BitVec 7)
  | canRestart (p : MusynPath)
  | canHeartbeat
  | canBitError (ident : BitVec 11)
  | canBusOff
  | canCancelRequest (ident : BitVec 11) (wonArbitration : Bool)
  -- resets
  | computeReset (src : CmdSrc)
  | captureComplete (absent : BitVec 8)
  | computeResetDone
  | computeResetOverdue
  | packageReset (src : CmdSrc)
  | summaryWritten (ok : Bool)
  | send (r : Requester)
  | fabricControlArrival (env : Envelope) (op : Byte) (data : List Byte)
  | fcrxEnable (r : Requester) (peg : BitVec 20)
  | powerOn (nodeId : BitVec 7) (perstAsserted : Bool)
  | bootStart (b : BootEnv)
  | bootStepTimeout
  | bootRestart (b : BootEnv)
  -- firmware update, ledger, Logbook
  | fwStage (p : MusynPath) (addr : BitVec 64) (len : BitVec 32)
  | fwBegin (p : MusynPath) (len : BitVec 32)
  | fwData (p : MusynPath) (off : BitVec 32) (data : List Byte)
  | fwAbort (p : MusynPath)
  | stagingComplete (ok : Bool)
  | bootSlot (p : MusynPath) (v : Byte)
  | ledgerRetry (p : MusynPath) (unit : BitVec 16)
  | cfgReset (p : MusynPath)
  | operSecondsSave
  | logRecord (ev : LogEvent)
  | logRecordWrite (ok : Bool)
  | logCurWrite (r : Requester) (index : BitVec 17)
  | logWindowReady
  | logClear (p : MusynPath)
  | logClearComplete (ok : Bool)
  -- power and thermal
  | powerDomainOn (r : Requester) (d : PwrDom)
  | powerDomainOff (r : Requester) (d : PwrDom)
  | ivrFault (i : Fin 15)
  | capControlTick (d : PwrDom) (avgDeciwatt : Nat)
  | brownOut
  | tempSample (i : Die) (temp256 : Int)
  -- rows added at the end of the table
  | csrAccess (c : Core) (csr : BitVec 12) (op : CsrOp) (imm : Bool) (rd rs1 : XReg)
  | dieFault (d : FailDie)
  | linkRefclkChange (present : Bool)
  | pcieLinkUp (gen : Fin 7) (width : Fin 17)
  | configurationWrite (f : Fn) (w : CfgWrite)
  | spareTestComplete (b : Bank) (pass : Bool)
  | laserBringUpComplete (j : Laser)
  | canFrameSent (ident : BitVec 11)
  deriving DecidableEq, Repr

end Sys2Proof
end

