-- ==== Sys2Proof/Decode.lean ====
section
/-!
DEFINITION. The commands that a word spells. No row of spec/opcode_table.json gives a command any bits (each row's "fields" is
empty), so no word spells a command: a command arrives as an entry of the queue, with its operands.
-/

namespace Sys2Proof

/-- The command a word spells by the table's bits: none, since the table gives no row any bits. -/
def decodeTableWord (_nbits _w : Nat) : Option Instr := none

end Sys2Proof
end

