-- ==== Sys2Proof/Machine/Crc.lean ====
section
/-!
DEFINITION. Check words: CRC-32C (R81, R164, R232), the CRC-32 of frames (R199), the CRC-8 of beacons (R223), and the
little-endian byte order of R13.
-/

namespace Sys2Proof.Machine

/-- Number with the bytes `bs`, the least significant first (R13). -/
def leNat : List Byte → Nat
  | [] => 0
  | b :: r => b.toNat + 256 * leNat r

/-- The `n` bytes of `v`, least significant first (R13). -/
def leBytes : Nat → Nat → List Byte
  | 0, _ => []
  | n + 1, v => BitVec.ofNat 8 v :: leBytes n (v / 256)

/-- 32-bit words of a list of bytes. -/
def leWords : List Byte → Nat → List Nat
  | _, 0 => []
  | bs, n + 1 => leNat (bs.take 4) :: leWords (bs.drop 4) n

/-- Number with the bytes `bs`, the most significant first. -/
def beNat (bs : List Byte) : Nat := bs.foldl (fun a b => a * 256 + b.toNat) 0

/-- One bit step of a reflected CRC with polynomial `poly`. -/
def crcStep (poly c : Nat) : Nat := if c % 2 = 1 then (c / 2) ^^^ poly else c / 2

/-- `n` bit steps. -/
def crcSteps (poly : Nat) : Nat → Nat → Nat
  | 0, c => c
  | n + 1, c => crcSteps poly n (crcStep poly c)

/-- A byte folded into a reflected CRC state. -/
def crcByte (poly c : Nat) (b : Byte) : Nat := crcSteps poly 8 (c ^^^ b.toNat)

/-- Bytes folded into a reflected CRC state. -/
def crcBytes (poly c : Nat) (bs : List Byte) : Nat := bs.foldl (crcByte poly) c

/-- Reflected CRC-32C polynomial (R81). -/
def polyC : Nat := 0x82F63B78

/-- CRC-32C with initial value and final inversion of all ones (R232). -/
def crc32c (bs : List Byte) : Nat := (crcBytes polyC 0xFFFFFFFF bs) ^^^ 0xFFFFFFFF

/-- CRC-32 of a frame (R204): IEEE 802.3, reflected. -/
def crc32 (bs : List Byte) : Nat := (crcBytes 0xEDB88320 0xFFFFFFFF bs) ^^^ 0xFFFFFFFF

/-- CRC-8 of a beacon (R223) over bits in transmission order: x^8 + x^2 + x + 1, initial value 0, not reflected. -/
def crc8 (bits : List Bool) : Nat :=
  bits.foldl (fun c b =>
    let top := (c / 128 % 2 = 1) != b
    let c' := c * 2 % 256
    if top then c' ^^^ 0x07 else c') 0

end Sys2Proof.Machine
end

