-- ==== Sys2Proof/Machine/Num.lean ====
section
/-!
DEFINITION. The digital element formats (spec 03_number_formats.md, Table 3.1), exact values, rounding to nearest with ties to
even, and the FP32 operations and conversions of R89, R91, R97 and R137.
-/

namespace Sys2Proof.Machine

/-- Layout of a floating-point format: exponent and mantissa widths, bias, code of the largest finite magnitude, code of the
infinity if there is one, code of the canonical NaN (0 if there is none), and the sign bit's place. -/
structure Fmt where
  ew : Nat
  mw : Nat
  bias : Nat
  maxCode : Nat
  infCode : Option Nat
  nanCode : Nat
  deriving DecidableEq, Repr

/-- The formats of Table 3.1. -/
def fp32 : Fmt := ⟨8, 23, 127, 0x7F7FFFFF, some 0x7F800000, 0x7FC00000⟩
def bf16 : Fmt := ⟨8, 7, 127, 0x7F7F, some 0x7F80, 0x7FC0⟩
def fp16 : Fmt := ⟨5, 10, 15, 0x7BFF, some 0x7C00, 0x7E00⟩
def e4m3 : Fmt := ⟨4, 3, 7, 0x7E, none, 0x7F⟩
def e5m2 : Fmt := ⟨5, 2, 15, 0x7B, some 0x7C, 0x7F⟩
def e3m2 : Fmt := ⟨3, 2, 3, 0x1F, none, 0⟩
def e2m1 : Fmt := ⟨2, 1, 1, 0x7, none, 0⟩

/-- Place of the sign bit. -/
def Fmt.sign (f : Fmt) : Nat := 2 ^ (f.ew + f.mw)

/-- A number read from a format: NaN (signalling or not), an infinity, or ± m × 2^e. -/
inductive FVal where
  | nan (signalling : Bool)
  | inf (neg : Bool)
  | fin (neg : Bool) (m : Nat) (e : Int)
  deriving DecidableEq, Repr

/-- The formats whose NaNs can be signalling (R85): FP32, BF16, FP16. -/
def Fmt.hasSnan (f : Fmt) : Bool := f.mw != 2 && f.infCode.isSome

/-- The number that code `c` of format `f` stands for. -/
def decodeF (f : Fmt) (c : Nat) : FVal :=
  let neg := c / f.sign % 2 == 1
  let mag := c % f.sign
  if mag ≤ f.maxCode then
    let ef := mag / 2 ^ f.mw
    let m := mag % 2 ^ f.mw
    if ef = 0 then .fin neg m (1 - (f.bias : Int) - f.mw) else .fin neg (2 ^ f.mw + m) ((ef : Int) - f.bias - f.mw)
  else if f.infCode = some mag then .inf neg
  else .nan (f.hasSnan && mag / 2 ^ (f.mw - 1) % 2 == 0)

/-- The IEEE exception flags in the order of fflags: NX bit 0, UF 1, OF 2, DZ 3, NV 4. -/
structure FFlags where
  nx : Bool := false
  uf : Bool := false
  of : Bool := false
  nv : Bool := false
  deriving DecidableEq, Repr

/-- Bits of fflags. -/
def FFlags.bits (f : FFlags) : Nat :=
  (if f.nx then 1 else 0) + (if f.uf then 2 else 0) + (if f.of then 4 else 0) + (if f.nv then 16 else 0)

/-- Flags raised by either. -/
def FFlags.or (a b : FFlags) : FFlags := ⟨a.nx || b.nx, a.uf || b.uf, a.of || b.of, a.nv || b.nv⟩

/-- m × 2^e in units of 2^q, to nearest with ties to even; and whether that is inexact. -/
def rne (m : Nat) (e q : Int) : Nat × Bool :=
  if q ≤ e then (m * 2 ^ (e - q).toNat, false)
  else
    let d := 2 ^ (q - e).toNat
    let r := m / d
    let rem := m % d
    (if rem * 2 > d || (rem * 2 == d && r % 2 == 1) then r + 1 else r, rem != 0)

/-- Exponent of the most significant bit of m × 2^e, m not 0. -/
def msbExp (m : Nat) (e : Int) : Int := e + Nat.log2 m

/-- Magnitude code and flags of m × 2^e rounded to format `f` with an unbounded exponent above; tininess is detected after
rounding (R89, R91). -/
def roundMag (f : Fmt) (m : Nat) (e : Int) : Nat × FFlags :=
  if m = 0 then (0, {}) else
  let qmin : Int := 1 - (f.bias : Int) - f.mw
  let q0 := msbExp m e - f.mw
  let q := max q0 qmin
  let (r, nx) := rne m e q
  let (r0, _) := rne m e q0
  let tiny := decide (msbExp r0 q0 < 1 - (f.bias : Int))
  ((q - qmin).toNat * 2 ^ f.mw + r, { nx := nx, uf := tiny && nx })

/-- A sign applied to a magnitude code. -/
def withSign (f : Fmt) (neg : Bool) (c : Nat) : Nat := if neg then f.sign + c else c

/-- IEEE 754 rounding of ± m × 2^e: an overflow gives an infinity (R89, R97). -/
def ieeeRound (f : Fmt) (neg : Bool) (m : Nat) (e : Int) : Nat × FFlags :=
  let (c, fl) := roundMag f m e
  if c > f.maxCode then (withSign f neg (f.infCode.getD f.maxCode), { nx := true, of := true }) else (withSign f neg c, fl)

/-- The Henovik conversion of Table 3.3 to a floating-point target: an overflow gives the largest finite value. -/
def satConvert (f : Fmt) (v : FVal) : Nat × FFlags :=
  match v with
  | .nan sig => (f.nanCode, { nv := sig })
  | .inf neg => (withSign f neg f.maxCode, { nx := true, of := true })
  | .fin neg m e =>
    let (c, fl) := roundMag f m e
    if c > f.maxCode then (withSign f neg f.maxCode, { nx := true, of := true }) else (withSign f neg c, fl)

/-- The exact conversion between formats (E4M3 or E5M2 to FP32, E3M2 to E4M3): infinities stay, any NaN becomes canonical. -/
def exactConvert (f : Fmt) (v : FVal) : Nat :=
  match v with
  | .nan _ => f.nanCode
  | .inf neg => withSign f neg (f.infCode.getD f.maxCode)
  | .fin neg m e => withSign f neg (roundMag f m e).1

/-- The INT4 target of Table 3.3: the code in 4 bits. -/
def int4Convert (v : FVal) : Nat × FFlags :=
  match v with
  | .nan _ => (0, { nv := true })
  | .inf neg => (if neg then 8 else 7, { nv := true })
  | .fin neg m e =>
    let (r, nx) := rne m e 0
    if neg then (if r > 8 then (8, { nv := true }) else ((16 - r) % 16, { nx := nx }))
    else (if r > 7 then (7, { nv := true }) else (r, { nx := nx }))

/-- Signed numerator of ± m × 2^e in units of 2^q, q at most e. -/
def scaled (neg : Bool) (m : Nat) (e q : Int) : Int :=
  let n : Int := m * 2 ^ (e - q).toNat
  if neg then -n else n

/-- The value n × 2^e of a signed numerator; `zneg` is the sign of a zero. -/
def ofScaled (zneg : Bool) (n : Int) (e : Int) : FVal := .fin (if n = 0 then zneg else decide (n < 0)) n.natAbs e

/-- Exact sum of two values under IEEE rules, before rounding: a zero from opposite signs is +0. -/
def addV (a b : FVal) : FVal :=
  match a, b with
  | .nan s, _ => .nan s
  | _, .nan s => .nan s
  | .inf s, .inf t => if s = t then .inf s else .nan true
  | .inf s, _ => .inf s
  | _, .inf t => .inf t
  | .fin s m e, .fin t n d =>
    let q := min e d
    ofScaled (s && t) (scaled s m e q + scaled t n d q) q

/-- Exact product of two values. -/
def mulV (a b : FVal) : FVal :=
  match a, b with
  | .nan s, _ => .nan s
  | _, .nan s => .nan s
  | .inf s, .inf t => .inf (s != t)
  | .inf s, .fin t n _ => if n = 0 then .nan true else .inf (s != t)
  | .fin s m _, .inf t => if m = 0 then .nan true else .inf (s != t)
  | .fin s m e, .fin t n d => .fin (s != t) (m * n) (e + d)

/-- A value with its sign changed. -/
def negV : FVal → FVal
  | .nan s => .nan s
  | .inf s => .inf (!s)
  | .fin s m e => .fin (!s) m e

/-- IEEE rounding of a value to FP32, as a value. -/
def toF32 (v : FVal) : FVal :=
  match v with
  | .fin neg m e => decodeF fp32 (ieeeRound fp32 neg m e).1
  | w => w

/-- An integer as a value. -/
def ofInt (n : Int) : FVal := .fin (decide (n < 0)) n.natAbs 0

/-- The number is NaN or infinite. -/
def FVal.notFinite : FVal → Bool
  | .fin _ _ _ => false
  | _ => true

/-- Engine or fallback output format (OUT_FMT of Table 4.4). -/
def outFmt (b : Bool) : Fmt := if b then bf16 else fp16

/-- The output conversion of R97 for one row: code `c`, β in 1/256, γ in 1/16,384, O, Q, the full-scale code g, S_r, and the
scales ρ_r and σ as FP16 codes. R98: a scale that is not finite gives the canonical NaN. -/
def engineOut (bf : Bool) (c : Int) (beta : Int) (gamma : Nat) (o q g : Nat) (sr : Int) (rho sigma : Nat) : Nat :=
  let rv := decodeF fp16 rho
  let sv := decodeF fp16 sigma
  if rv.notFinite || sv.notFinite then (outFmt bf).nanCode
  else
    let k := FVal.fin false (2 * o * q) (-1 - (g : Int))
    let t1 := toF32 (addV (ofInt c) (.fin (decide (0 < beta)) beta.natAbs (-8)))
    let t2 := toF32 (mulV t1 (.fin false gamma (-14)))
    let t3 := toF32 (mulV t2 (toF32 k))
    let t4 := toF32 (addV t3 (negV (ofInt ((o : Int) * sr))))
    let t5 := toF32 (mulV t4 rv)
    (satConvert (outFmt bf) (toF32 (mulV t5 sv))).1

/-- The fallback computation of R137 for one output: P, ρ_r and σ. -/
def fallbackOut (bf : Bool) (p : Int) (rho sigma : Nat) : Nat :=
  let rv := decodeF fp16 rho
  let sv := decodeF fp16 sigma
  if rv.notFinite || sv.notFinite then (outFmt bf).nanCode
  else (satConvert (outFmt bf) (toF32 (mulV (toF32 (mulV (ofInt p) rv)) sv))).1

end Sys2Proof.Machine
end

