-- ==== Sys2Proof/Config.lean ====
section
/-!
DEFINITION. The values that the spec leaves free (log entry 1). They have no body: a statement that holds, holds whatever
they are.
-/

namespace Sys2Proof.Config

/-- A free value: what an implementation produces at its n-th free choice, where the spec states no one result. The model
applies it to the counter `State.freeCnt`, which the step advances at each use. -/
opaque freeNat : Nat → Nat

/-- Poellan's JEDEC manufacturer code, which mvendorid holds (R41); the spec does not state it. -/
opaque vendorId : Nat

/-- The calibration values set at manufacture (R294 to R299): field `f` of table `k` of unit `u`. The spec does not state them
(log entry 15). -/
opaque factory : Nat → Nat → Nat → Int

/-- What acquisition `k` of a whole consumer at boot finds for ring `id` (R277): value 2 × id is its heater code, 2 × id + 1 its set
point. The spec states no such code (log entry 1). -/
opaque ringFound : Nat → Nat → Nat

/-- Whether the loop of ring `id` is stable with the coefficient codes of a set in the order b0 to b3, a1 to a3, SHIFT, FORM (R271). The
spec gives no test of it (log entry 1). -/
opaque loopStable : Nat → List Nat → Bool

/-- The package serial number, 32 bytes, that OD 0.0004 holds; the spec does not state it (log entry 1). -/
opaque serial : Nat

/-- What the migration table of an image makes of a setting (R397): from and to dictionary version, index, old value; `none` where the
new layout takes its default. The table is the vendor's and not disclosed (log entry 1). -/
opaque migrate : Nat → Nat → Nat → Nat → Option Nat

end Sys2Proof.Config
end

