-- ==== Sys2Proof/Machine/Regs.lean ====
section
/-!
DEFINITION. The register map of PF BAR0 (spec 13_host_and_musyn.md, R323, Table 13.4): every field of the register tables of
chapters 01 to 16, with its address, bits, access code (Table 0.3) and reset value. A register of an array is a function of
its index. The registers that each PCIe function has for itself (mailbox, peg watches, MSI-X) stand at function × 2^28 above
their PF offset. A reset value the tables leave to the calibration store (the loop coefficients) is not used: the coefficient fields of a loop record read what the loop holds (`loopRead` of Rings.lean), whose defaults are free constants of the calibration store (log entry 5).
-/

namespace Sys2Proof.Machine

/-- Field access codes (R15, Table 0.3). -/
inductive Acc where
  | ro | rw | w1c | wo | rc | cmd
  deriving DecidableEq, Repr

/-- One register field: the register's address, the field's lowest bit, width, reset value and access code. -/
structure Fld where
  addr : Nat
  lo : Nat
  width : Nat
  reset : Nat
  acc : Acc
  deriving DecidableEq, Repr

/-- Key of a field in the field file. -/
def fkey (f : Fld) : Nat := f.addr * 64 + f.lo

/-- The ring identifiers that name a ring (R22): 512 rings of each link class, 1,024 engine input rings, 65,536 weight rings. -/
def ringExists (id : Nat) : Bool :=
  let cls := id / 65536
  let n := id % 65536
  if cls < 4 then n < 512 else if cls = 4 then n < 1024 else cls = 5

/-- A register or an array of registers: base address, strides and counts, whether 64 bits wide, and its fields. -/
structure RegRow where
  base : Nat
  s1 : Nat
  c1 : Nat
  s2 : Nat
  c2 : Nat
  wide : Bool
  fields : Nat → Nat → List Fld

namespace R

def HUB_BAY_MAP_BAY_IN_SERVICE : Fld := ⟨0x200, 0, 8, 0, .ro⟩
def HUB_BAY_MAP_BAY_OUT_LEDGER : Fld := ⟨0x200, 8, 8, 0, .ro⟩
def HUB_BAY_MAP_BAY_OUT_CONFIG : Fld := ⟨0x200, 16, 8, 0, .ro⟩
def HUB_ENG_MAP_ENG_IN_SERVICE : Fld := ⟨0x204, 0, 16, 0, .ro⟩
def HUB_ENG_MAP_ENG_OUT : Fld := ⟨0x204, 16, 16, 0, .ro⟩
def HUB_PORT_MAP_PORT_PRESENT : Fld := ⟨0x208, 0, 32, 0, .ro⟩
def HUB_LASER_MAP_LASER_LIT : Fld := ⟨0x20C, 0, 10, 0, .ro⟩
def HUB_LASER_MAP_LASER_FAILED : Fld := ⟨0x20C, 16, 10, 0, .ro⟩
def HUB_PLANE_MAP_PLANE_IN_SERVICE : Fld := ⟨0x210, 0, 16, 0, .ro⟩
def PMX_CLIPCNT_ADC_CLIP (i : Nat) : Fld := ⟨0x400020 + 0x100 * i, 0, 32, 0, .rc⟩
def PMX_CLAMPCNT_IN_CLAMP (i : Nat) : Fld := ⟨0x400024 + 0x100 * i, 0, 16, 0, .rc⟩
def PMX_CLAMPCNT_W_CLAMP (i : Nat) : Fld := ⟨0x400024 + 0x100 * i, 16, 16, 0, .rc⟩
def PMX_CTL_SVC_OUT (i : Nat) : Fld := ⟨0x400000 + 0x100 * i, 0, 1, 0, .rw⟩
def PMX_CTL_KW_EN (i : Nat) : Fld := ⟨0x400000 + 0x100 * i, 1, 1, 0, .rw⟩
def PMX_CTL_KW_DUTY (i : Nat) : Fld := ⟨0x400000 + 0x100 * i, 2, 3, 0, .rw⟩
def PMX_STAT_STATE (i : Nat) : Fld := ⟨0x400004 + 0x100 * i, 0, 3, 0, .ro⟩
def PMX_STAT_LOCKED (i : Nat) : Fld := ⟨0x400004 + 0x100 * i, 3, 1, 0, .ro⟩
def PMX_STAT_CAL_VALID (i : Nat) : Fld := ⟨0x400004 + 0x100 * i, 4, 1, 0, .ro⟩
def PMX_STAT_WEIR_CAP (i : Nat) : Fld := ⟨0x400004 + 0x100 * i, 8, 4, 0, .ro⟩
def PMX_STAT_DUTY (i : Nat) : Fld := ⟨0x400004 + 0x100 * i, 12, 4, 0, .ro⟩
def PMX_STAT_QDEPTH (i : Nat) : Fld := ⟨0x400004 + 0x100 * i, 16, 6, 0, .ro⟩
def PMX_HEARTBEAT_BEAT (i : Nat) : Fld := ⟨0x400008 + 0x100 * i, 0, 32, 0, .ro⟩
def PMX_VECCNT_VECTORS (i : Nat) : Fld := ⟨0x400010 + 0x100 * i, 0, 64, 0, .ro⟩
def PMX_TILECNT_TILES (i : Nat) : Fld := ⟨0x400018 + 0x100 * i, 0, 32, 0, .ro⟩
def PMX_LOADSTAT_PD_SAT (i : Nat) : Fld := ⟨0x40001C + 0x100 * i, 0, 16, 0, .rc⟩
def PMX_LOADSTAT_STAGE_LATE (i : Nat) : Fld := ⟨0x40001C + 0x100 * i, 16, 16, 0, .rc⟩
def PMX_STARVE_SLOTS64 (i : Nat) : Fld := ⟨0x400028 + 0x100 * i, 0, 32, 0, .rc⟩
def PMX_WEIRCNT_WITHHELD_US (i : Nat) : Fld := ⟨0x40002C + 0x100 * i, 0, 16, 0, .rc⟩
def PMX_WEIRCNT_PADDED_US (i : Nat) : Fld := ⟨0x40002C + 0x100 * i, 16, 16, 0, .rc⟩
def PMX_BADDESC_REASON (i : Nat) : Fld := ⟨0x400030 + 0x100 * i, 0, 4, 0, .ro⟩
def PMX_BADDESC_TENANT (i : Nat) : Fld := ⟨0x400030 + 0x100 * i, 4, 4, 0, .ro⟩
def PMX_BADDESC_TAG (i : Nat) : Fld := ⟨0x400030 + 0x100 * i, 16, 16, 0, .ro⟩
def PMX_ERR_ERR (i j : Nat) : Fld := ⟨0x400040 + 0x100 * i + 0x4 * j, 0, 16, 0xFFFF, .ro⟩
def PMX_ERR_AGE (i j : Nat) : Fld := ⟨0x400040 + 0x100 * i + 0x4 * j, 16, 8, 0, .ro⟩
def PMX_ERR_SEEDED (i j : Nat) : Fld := ⟨0x400040 + 0x100 * i + 0x4 * j, 24, 1, 0, .ro⟩
def PMX_PROBECNT_PROBES (i : Nat) : Fld := ⟨0x400058 + 0x100 * i, 0, 64, 0, .ro⟩
def PMX_PROBEREJ_ROWS (i : Nat) : Fld := ⟨0x400060 + 0x100 * i, 0, 32, 0, .rc⟩
def PMX_ERRPEAK_PEAK (i : Nat) : Fld := ⟨0x400064 + 0x100 * i, 0, 16, 0, .ro⟩
def PMX_ERRPEAK_COMBO (i : Nat) : Fld := ⟨0x400064 + 0x100 * i, 16, 3, 0, .ro⟩
def PMX_FB_VEC_VECTORS (i : Nat) : Fld := ⟨0x400080 + 0x100 * i, 0, 64, 0, .ro⟩
def PMX_EXCLAST0_VEC_DONE (i : Nat) : Fld := ⟨0x400088 + 0x100 * i, 0, 32, 0, .ro⟩
def PMX_EXCLAST1_TENANT (i : Nat) : Fld := ⟨0x40008C + 0x100 * i, 0, 4, 0, .ro⟩
def PMX_EXCLAST1_CAUSE (i : Nat) : Fld := ⟨0x40008C + 0x100 * i, 4, 4, 0, .ro⟩
def PMX_EXCLAST1_TAG (i : Nat) : Fld := ⟨0x40008C + 0x100 * i, 16, 16, 0, .ro⟩
def DSP_REPRO_TENANT_MASK : Fld := ⟨0x401000, 0, 16, 0, .rw⟩
def DSP_FBCFG_CORES (i : Nat) : Fld := ⟨0x401010 + 0x4 * i, 0, 6, 8, .rw⟩
def DSP_FBSTAT_QDEPTH (i : Nat) : Fld := ⟨0x401030 + 0x4 * i, 0, 11, 0, .ro⟩
def DSP_FBSTAT_ACTIVE (i : Nat) : Fld := ⟨0x401030 + 0x4 * i, 16, 6, 0, .ro⟩
def MEM_HBMCFG_BL_GIB : Fld := ⟨0x500000, 0, 6, 0, .ro⟩
def MEM_HBMCFG_K : Fld := ⟨0x500000, 8, 4, 0, .ro⟩
def MEM_HBMCFG_TOTAL_GIB : Fld := ⟨0x500000, 16, 9, 0, .ro⟩
def MEM_STAT_TAG_DUP : Fld := ⟨0x500004, 0, 1, 0, .w1c⟩
def MEM_INVAL_ARG_TENANT : Fld := ⟨0x500008, 0, 4, 0, .rw⟩
def MEM_INVAL_ARG_SCOPE : Fld := ⟨0x500008, 4, 2, 0, .rw⟩
def MEM_INVAL_ARG_VPN : Fld := ⟨0x500008, 12, 36, 0, .rw⟩
def MEM_INVAL_ARG_ASID : Fld := ⟨0x500008, 48, 16, 0, .rw⟩
def MEM_INVAL_CMD_CMD : Fld := ⟨0x500010, 0, 4, 0, .cmd⟩
def MEM_INVAL_CMD_STATUS : Fld := ⟨0x500010, 8, 2, 0, .ro⟩
def MEM_INVAL_CMD_IGNORED : Fld := ⟨0x500010, 16, 16, 0, .ro⟩
def MEM_NOTENANT_COUNT : Fld := ⟨0x500014, 0, 32, 0, .ro⟩
def MEM_TSATP_PPN (i : Nat) : Fld := ⟨0x500100 + 0x8 * i, 0, 44, 0, .rw⟩
def MEM_TSATP_ASID (i : Nat) : Fld := ⟨0x500100 + 0x8 * i, 44, 16, 0, .rw⟩
def MEM_TSATP_MODE (i : Nat) : Fld := ⟨0x500100 + 0x8 * i, 60, 4, 0, .rw⟩
def MEM_FTAG_TAG (i : Nat) : Fld := ⟨0x500180 + 0x4 * i, 0, 16, 0, .rw⟩
def MEM_FTAG_VALID (i : Nat) : Fld := ⟨0x500180 + 0x4 * i, 31, 1, 0, .rw⟩
def MEM_APER_BASE (i : Nat) : Fld := ⟨0x500200 + 0x8 * i, 32, 16, 0, .rw⟩
def MEM_RCNT_SERVED (i : Nat) : Fld := ⟨0x500300 + 0x10 * i, 0, 32, 0, .ro⟩
def MEM_RCNT_NACKED (i : Nat) : Fld := ⟨0x500304 + 0x10 * i, 0, 32, 0, .ro⟩
def MEM_RCNT_GEN_DROP (i : Nat) : Fld := ⟨0x500308 + 0x10 * i, 0, 32, 0, .ro⟩
def MEM_ECC_CE (i : Nat) : Fld := ⟨0x500400 + 0x8 * i, 0, 32, 0, .ro⟩
def MEM_ECC_UE (i : Nat) : Fld := ⟨0x500400 + 0x8 * i, 32, 32, 0, .ro⟩
def MEM_HXCNT_LATE_ACK (i : Nat) : Fld := ⟨0x501000 + 0x4 * i, 0, 12, 0, .rc⟩
def MEM_HXCNT_LATE_NACK (i : Nat) : Fld := ⟨0x501000 + 0x4 * i, 12, 12, 0, .rc⟩
def MEM_HXCNT_MISROUTED (i : Nat) : Fld := ⟨0x501000 + 0x4 * i, 24, 8, 0, .rc⟩
def PEG_BLK_OWNER (i : Nat) : Fld := ⟨0x600000 + 0x4 * i, 0, 4, 0, .ro⟩
def PEG_BLK_VALID (i : Nat) : Fld := ⟨0x600000 + 0x4 * i, 4, 1, 0, .ro⟩
def PEG_BLK_GEN (i : Nat) : Fld := ⟨0x600000 + 0x4 * i, 8, 8, 0, .ro⟩
def PEG_BLKARG_FIRST : Fld := ⟨0x600400, 0, 8, 0, .rw⟩
def PEG_BLKARG_COUNT : Fld := ⟨0x600400, 8, 9, 0, .rw⟩
def PEG_BLKARG_TENANT : Fld := ⟨0x600400, 20, 4, 0, .rw⟩
def PEG_BLKCMD_CMD : Fld := ⟨0x600404, 0, 4, 0, .cmd⟩
def PEG_BLKCMD_STATUS : Fld := ⟨0x600404, 8, 2, 0, .ro⟩
def PEG_BLKCMD_IGNORED : Fld := ⟨0x600404, 16, 16, 0, .ro⟩
def PEG_TSUM_OVF (i : Nat) : Fld := ⟨0x600500 + 0x4 * i, 0, 1, 0, .w1c⟩
def PEG_TSUM_UNF (i : Nat) : Fld := ⟨0x600500 + 0x4 * i, 1, 1, 0, .w1c⟩
def PEG_TSUM_POISON (i : Nat) : Fld := ⟨0x600500 + 0x4 * i, 2, 1, 0, .w1c⟩
def PEG_TSUM_RAISE_FAULT (i : Nat) : Fld := ⟨0x600500 + 0x4 * i, 3, 1, 0, .w1c⟩
def PEG_TCNT_UNF_EVENTS (i : Nat) : Fld := ⟨0x600540 + 0x4 * i, 0, 12, 0, .rc⟩
def PEG_TCNT_OVF_EVENTS (i : Nat) : Fld := ⟨0x600540 + 0x4 * i, 12, 12, 0, .rc⟩
def PEG_TCNT_CPEG_DROP (i : Nat) : Fld := ⟨0x600540 + 0x4 * i, 24, 8, 0, .rc⟩
def PEG_RLINK_LOCAL (i : Nat) : Fld := ⟨0x601000 + 0x20 * i, 0, 16, 0, .rw⟩
def PEG_RLINK_VALID (i : Nat) : Fld := ⟨0x601000 + 0x20 * i, 16, 1, 0, .rw⟩
def PEG_RLINK_ROOT (i : Nat) : Fld := ⟨0x601000 + 0x20 * i, 17, 1, 0, .rw⟩
def PEG_RLINK_TIMED (i : Nat) : Fld := ⟨0x601000 + 0x20 * i, 18, 1, 0, .rw⟩
def PEG_RLINK_PARENT_PKG (i : Nat) : Fld := ⟨0x601000 + 0x20 * i, 32, 16, 0, .rw⟩
def PEG_RLINK_PARENT_PEG (i : Nat) : Fld := ⟨0x601008 + 0x20 * i, 0, 16, 0, .rw⟩
def PEG_RLINK_PARENT_GEN (i : Nat) : Fld := ⟨0x601008 + 0x20 * i, 16, 8, 0, .rw⟩
def PEG_RLINK_PARENT_N (i : Nat) : Fld := ⟨0x601008 + 0x20 * i, 32, 16, 0, .rw⟩
def PEG_RLINK_RELEASE_AT (i : Nat) : Fld := ⟨0x601010 + 0x20 * i, 0, 64, 0, .rw⟩
def PEG_RLINK_STATE (i : Nat) : Fld := ⟨0x601018 + 0x20 * i, 0, 2, 0, .ro⟩
def PEG_RLINK_LATE (i : Nat) : Fld := ⟨0x601018 + 0x20 * i, 2, 1, 0, .w1c⟩
def PEG_RLINK_STALE (i : Nat) : Fld := ⟨0x601018 + 0x20 * i, 3, 1, 0, .w1c⟩
def PEG_RLINK_RELEASES (i : Nat) : Fld := ⟨0x601018 + 0x20 * i, 32, 32, 0, .ro⟩
def PEG_VAL_VALUE (i : Nat) : Fld := ⟨0x610000 + 0x4 * i, 0, 24, 0, .ro⟩
def PEG_VAL_OVF (i : Nat) : Fld := ⟨0x610000 + 0x4 * i, 24, 1, 0, .w1c⟩
def PEG_VAL_UNF (i : Nat) : Fld := ⟨0x610000 + 0x4 * i, 25, 1, 0, .w1c⟩
def PEG_VAL_POISON (i : Nat) : Fld := ⟨0x610000 + 0x4 * i, 26, 1, 0, .ro⟩
def DSP_Q_EN (i j : Nat) : Fld := ⟨0x420000 + 0x4000 * i + 0x40 * j, 0, 1, 0, .rw⟩
def DSP_Q_TYPE (i j : Nat) : Fld := ⟨0x420000 + 0x4000 * i + 0x40 * j, 1, 2, 0, .rw⟩
def DSP_Q_PEGDB (i j : Nat) : Fld := ⟨0x420000 + 0x4000 * i + 0x40 * j, 3, 1, 0, .rw⟩
def DSP_Q_HOME (i j : Nat) : Fld := ⟨0x420000 + 0x4000 * i + 0x40 * j, 4, 3, 0, .rw⟩
def DSP_Q_LOG2SIZE (i j : Nat) : Fld := ⟨0x420000 + 0x4000 * i + 0x40 * j, 8, 4, 4, .rw⟩
def DSP_Q_BASE (i j : Nat) : Fld := ⟨0x420000 + 0x4000 * i + 0x40 * j, 12, 36, 0, .rw⟩
def DSP_Q_SBASE (i j : Nat) : Fld := ⟨0x420008 + 0x4000 * i + 0x40 * j, 6, 42, 0, .rw⟩
def DSP_Q_DBPEG (i j : Nat) : Fld := ⟨0x420010 + 0x4000 * i + 0x40 * j, 0, 20, 0, .rw⟩
def DSP_Q_HEAD (i j : Nat) : Fld := ⟨0x420014 + 0x4000 * i + 0x40 * j, 0, 16, 0, .ro⟩
def DSP_Q_TAIL (i j : Nat) : Fld := ⟨0x420014 + 0x4000 * i + 0x40 * j, 16, 16, 0, .ro⟩
def DSP_Q_RETIRE (i j : Nat) : Fld := ⟨0x420018 + 0x4000 * i + 0x40 * j, 0, 16, 0, .ro⟩
def DSP_Q_ERR (i j : Nat) : Fld := ⟨0x42001C + 0x4000 * i + 0x40 * j, 0, 4, 0, .ro⟩
def DSP_Q_STOPPED (i j : Nat) : Fld := ⟨0x42001C + 0x4000 * i + 0x40 * j, 4, 1, 0, .ro⟩
def DSP_Q_COMPLETED (i j : Nat) : Fld := ⟨0x420020 + 0x4000 * i + 0x40 * j, 0, 32, 0, .ro⟩
def DSP_QCMDARG_TENANT : Fld := ⟨0x402000, 0, 4, 0, .rw⟩
def DSP_QCMDARG_QUEUE : Fld := ⟨0x402000, 4, 8, 0, .rw⟩
def DSP_QCMDARG_INDEX : Fld := ⟨0x402000, 12, 16, 0, .rw⟩
def DSP_QCMD_CMD : Fld := ⟨0x402004, 0, 4, 0, .cmd⟩
def DSP_QCMD_STATUS : Fld := ⟨0x402004, 8, 2, 0, .ro⟩
def DSP_QCMD_IGNORED : Fld := ⟨0x402004, 16, 16, 0, .ro⟩
def DSP_DBDROP_COUNT (i : Nat) : Fld := ⟨0x402040 + 0x4 * i, 0, 32, 0, .rc⟩
def LNK_CFG_EN (i : Nat) : Fld := ⟨0x700000 + 0x100 * i, 0, 1, 1, .rw⟩
def LNK_CFG_BEACON_EN (i : Nat) : Fld := ⟨0x700000 + 0x100 * i, 1, 1, 1, .rw⟩
def LNK_CFG_LIGHT (i : Nat) : Fld := ⟨0x700000 + 0x100 * i, 2, 1, 0, .rw⟩
def LNK_CFG_AUTO_RETRAIN (i : Nat) : Fld := ⟨0x700000 + 0x100 * i, 3, 1, 1, .rw⟩
def LNK_CFG_NBR_CHECK (i : Nat) : Fld := ⟨0x700000 + 0x100 * i, 4, 1, 1, .rw⟩
def LNK_CFG_LINES_MAX (i : Nat) : Fld := ⟨0x700000 + 0x100 * i, 8, 5, 0x10, .rw⟩
def LNK_CMD_CMD (i : Nat) : Fld := ⟨0x700004 + 0x100 * i, 0, 4, 0, .cmd⟩
def LNK_CMD_STATUS (i : Nat) : Fld := ⟨0x700004 + 0x100 * i, 8, 2, 0, .ro⟩
def LNK_CMD_IGNORED (i : Nat) : Fld := ⟨0x700004 + 0x100 * i, 16, 16, 0, .ro⟩
def LNK_STAT_STATE (i : Nat) : Fld := ⟨0x700008 + 0x100 * i, 0, 3, 1, .ro⟩
def LNK_STAT_WIDTH (i : Nat) : Fld := ⟨0x700008 + 0x100 * i, 3, 5, 0, .ro⟩
def LNK_STAT_FEC (i : Nat) : Fld := ⟨0x700008 + 0x100 * i, 8, 1, 0, .ro⟩
def LNK_STAT_AMBIENT (i : Nat) : Fld := ⟨0x700008 + 0x100 * i, 9, 1, 0, .ro⟩
def LNK_STAT_LIGHT_REFUSED (i : Nat) : Fld := ⟨0x700008 + 0x100 * i, 10, 1, 0, .ro⟩
def LNK_STAT_LIGHT_FALLBACK (i : Nat) : Fld := ⟨0x700008 + 0x100 * i, 11, 1, 0, .ro⟩
def LNK_STAT_TRAIN_FAIL (i : Nat) : Fld := ⟨0x700008 + 0x100 * i, 12, 1, 0, .ro⟩
def LNK_STAT_NBR_MISMATCH (i : Nat) : Fld := ⟨0x700008 + 0x100 * i, 13, 1, 0, .ro⟩
def LNK_STAT_LEVEL (i : Nat) : Fld := ⟨0x700008 + 0x100 * i, 16, 4, 0, .ro⟩
def LNK_LINES_ACTIVE (i : Nat) : Fld := ⟨0x70000C + 0x100 * i, 0, 16, 0, .ro⟩
def LNK_LINES_FAILED (i : Nat) : Fld := ⟨0x70000C + 0x100 * i, 16, 16, 0, .ro⟩
def LNK_PEER_PKG (i : Nat) : Fld := ⟨0x700010 + 0x100 * i, 0, 20, 0, .ro⟩
def LNK_PEER_PORT (i : Nat) : Fld := ⟨0x700010 + 0x100 * i, 20, 7, 0, .ro⟩
def LNK_PEER_VALID (i : Nat) : Fld := ⟨0x700010 + 0x100 * i, 27, 1, 0, .ro⟩
def LNK_PEER_OFFER (i : Nat) : Fld := ⟨0x700010 + 0x100 * i, 28, 1, 0, .ro⟩
def LNK_PEER_EPOCH (i : Nat) : Fld := ⟨0x700010 + 0x100 * i, 32, 32, 0, .ro⟩
def LNK_NBR_PKG (i : Nat) : Fld := ⟨0x700018 + 0x100 * i, 0, 20, 0, .ro⟩
def LNK_NBR_PORT (i : Nat) : Fld := ⟨0x700018 + 0x100 * i, 20, 7, 0, .ro⟩
def LNK_NBR_VALID (i : Nat) : Fld := ⟨0x700018 + 0x100 * i, 27, 1, 0, .ro⟩
def LNK_NBR_OFFER (i : Nat) : Fld := ⟨0x700018 + 0x100 * i, 28, 1, 0, .ro⟩
def LNK_NBR_EPOCH (i : Nat) : Fld := ⟨0x700018 + 0x100 * i, 32, 32, 0, .ro⟩
def LNK_DELAY (i : Nat) : Fld := ⟨0x700020 + 0x100 * i, 0, 32, 0, .ro⟩
def LNK_FEAT (i : Nat) : Fld := ⟨0x700024 + 0x100 * i, 0, 32, 0, .ro⟩
def LNK_FEC_CORR (i : Nat) : Fld := ⟨0x700028 + 0x100 * i, 0, 32, 0, .ro⟩
def LNK_FEC_UNCORR (i : Nat) : Fld := ⟨0x70002C + 0x100 * i, 0, 32, 0, .ro⟩
def LNK_CRC_ERR (i : Nat) : Fld := ⟨0x700030 + 0x100 * i, 0, 32, 0, .ro⟩
def LNK_REPLAY (i : Nat) : Fld := ⟨0x700034 + 0x100 * i, 0, 32, 0, .ro⟩
def LNK_TRAIN_START (i : Nat) : Fld := ⟨0x700038 + 0x100 * i, 0, 16, 0, .rc⟩
def LNK_TRAIN_FAILS (i : Nat) : Fld := ⟨0x700038 + 0x100 * i, 16, 16, 0, .rc⟩
def LNK_LANE_DROPS (i : Nat) : Fld := ⟨0x70003C + 0x100 * i, 0, 16, 0, .rc⟩
def LNK_DOWNS (i : Nat) : Fld := ⟨0x70003C + 0x100 * i, 16, 16, 0, .rc⟩
def LNK_BEACON_OK (i : Nat) : Fld := ⟨0x700040 + 0x100 * i, 0, 16, 0, .rc⟩
def LNK_BEACON_BAD (i : Nat) : Fld := ⟨0x700040 + 0x100 * i, 16, 16, 0, .rc⟩
def LNK_AMBIENT (i : Nat) : Fld := ⟨0x700044 + 0x100 * i, 0, 16, 0, .rc⟩
def LNK_TRANSIT (i : Nat) : Fld := ⟨0x700048 + 0x100 * i, 0, 32, 0, .ro⟩
def LNK_HOPDROP (i : Nat) : Fld := ⟨0x70004C + 0x100 * i, 0, 16, 0, .rc⟩
def LNK_NOROUTE (i : Nat) : Fld := ⟨0x70004C + 0x100 * i, 16, 16, 0, .rc⟩
def LNK_CREDIT_STALL (i : Nat) : Fld := ⟨0x700050 + 0x100 * i, 0, 32, 0, .ro⟩
def LNK_RX_POWER (i : Nat) : Fld := ⟨0x700054 + 0x100 * i, 0, 16, 0, .ro⟩
def LNK_GLOBAL_PKG : Fld := ⟨0x704000, 0, 20, 0, .rw⟩
def LNK_GLOBAL_HOPS_INIT : Fld := ⟨0x704000, 20, 4, 8, .rw⟩
def LNK_GLOBAL_GANG_DUP : Fld := ⟨0x704000, 24, 1, 0, .w1c⟩
def LNK_GLOBAL_PKG_IGNORED : Fld := ⟨0x704000, 32, 16, 0, .ro⟩
def LNK_EPOCH_EPOCH : Fld := ⟨0x704008, 0, 32, 0, .rw⟩
def LNK_GANG_PORTS (i : Nat) : Fld := ⟨0x704100 + 0x8 * i, 0, 32, 0, .rw⟩
def LNK_GANG_UP (i : Nat) : Fld := ⟨0x704100 + 0x8 * i, 32, 32, 0, .ro⟩
def LNK_DTAB_GANG (i : Nat) : Fld := ⟨0x740000 + 0x4 * i, 0, 4, 0, .rw⟩
def LNK_DTAB_VALID (i : Nat) : Fld := ⟨0x740000 + 0x4 * i, 4, 1, 0, .rw⟩
def LNK_DTAB_EXPRESS (i : Nat) : Fld := ⟨0x740000 + 0x4 * i, 5, 1, 0, .rw⟩
def SLC_PLAN_STATUS : Fld := ⟨0x801400, 0, 3, 0, .ro⟩
def SLC_PLAN_REASON : Fld := ⟨0x801400, 4, 4, 0, .ro⟩
def SLC_PLAN_CHANGED : Fld := ⟨0x801400, 8, 10, 0, .ro⟩
def SLC_PLAN_COLL : Fld := ⟨0x801400, 18, 10, 0, .ro⟩
def SLC_ACT_LATE : Fld := ⟨0x801404, 0, 1, 0, .w1c⟩
def SLC_ACT_STALE : Fld := ⟨0x801404, 1, 1, 0, .w1c⟩
def SLC_ACT_REFUSED : Fld := ⟨0x801404, 2, 1, 0, .w1c⟩
def SLC_MAPID_MAP_ID : Fld := ⟨0x801408, 0, 32, 0, .ro⟩
def SLC_ACTTIME_START : Fld := ⟨0x801410, 0, 64, 0, .ro⟩
def SLC_CNT_ACTIVATIONS : Fld := ⟨0x801418, 0, 16, 0, .ro⟩
def SLC_CNT_REJECTS : Fld := ⟨0x801418, 16, 16, 0, .rc⟩
def SLC_CNT_STAGE_IGNORED : Fld := ⟨0x801418, 32, 16, 0, .rc⟩
def SLC_CNT_BUS_REJECT : Fld := ⟨0x801418, 48, 16, 0, .rc⟩
def SLC_ELEM_CODE (i j : Nat) : Fld := ⟨0x804000 + 0x400 * i + 0x4 * j, 0, 12, 0, .ro⟩
def SLC_ELEM_SILL (i j : Nat) : Fld := ⟨0x804000 + 0x400 * i + 0x4 * j, 12, 2, 0, .ro⟩
def SLC_ELEM_COMMITTED (i j : Nat) : Fld := ⟨0x804000 + 0x400 * i + 0x4 * j, 14, 1, 0, .ro⟩
def HDG_CMD_CMD : Fld := ⟨0x808000, 0, 4, 0, .cmd⟩
def HDG_CMD_ARG : Fld := ⟨0x808000, 4, 1, 0, .rw⟩
def HDG_CMD_STATUS : Fld := ⟨0x808000, 8, 3, 0, .ro⟩
def HDG_CMD_IGNORED : Fld := ⟨0x808000, 16, 16, 0, .ro⟩
def HDG_STAT_A_STATE : Fld := ⟨0x808004, 0, 2, 1, .ro⟩
def HDG_STAT_B_STATE : Fld := ⟨0x808004, 2, 2, 0, .ro⟩
def HDG_STAT_NONE : Fld := ⟨0x808004, 4, 1, 0, .ro⟩
def HDG_LEASE_REMAIN_US : Fld := ⟨0x808008, 0, 14, 0x2710, .ro⟩
def HDG_LEASE_HOLDER : Fld := ⟨0x808008, 14, 2, 1, .ro⟩
def HDG_LEASE_RENEWALS : Fld := ⟨0x808008, 16, 16, 0, .ro⟩
def HDG_CKPT_CKPT_SEQ : Fld := ⟨0x80800C, 0, 32, 0, .ro⟩
def HDG_FAIL_FAILOVERS : Fld := ⟨0x808010, 0, 16, 0, .ro⟩
def HDG_FAIL_CAUSE : Fld := ⟨0x808010, 16, 4, 0, .ro⟩
def HDG_SILL_PLANE : Fld := ⟨0x808014, 0, 4, 0, .ro⟩
def HDG_SILL_ELEM : Fld := ⟨0x808014, 4, 8, 0, .ro⟩
def HDG_SILL_MISMATCHES : Fld := ⟨0x808014, 16, 16, 0, .rc⟩
def HDG_SILLSCAN_SCANS : Fld := ⟨0x808018, 0, 32, 0, .ro⟩
def LAS_STAT_STATE (i : Nat) : Fld := ⟨0x880000 + 0x4 * i, 0, 3, 0, .ro⟩
def LAS_STAT_GRID_LOCK (i : Nat) : Fld := ⟨0x880000 + 0x4 * i, 3, 1, 0, .ro⟩
def LAS_STAT_SERVES (i : Nat) : Fld := ⟨0x880000 + 0x4 * i, 4, 4, 0xF, .ro⟩
def LAS_STAT_PWR (i : Nat) : Fld := ⟨0x880000 + 0x4 * i, 16, 16, 0, .ro⟩
def LAS_CMD_CMD : Fld := ⟨0x880040, 0, 4, 0, .cmd⟩
def LAS_CMD_ARG : Fld := ⟨0x880040, 4, 4, 0, .rw⟩
def LAS_CMD_STATUS : Fld := ⟨0x880040, 8, 3, 0, .ro⟩
def LAS_CMD_IGNORED : Fld := ⟨0x880040, 16, 16, 0, .ro⟩
def LAS_CNT_TAKEOVERS : Fld := ⟨0x880044, 0, 8, 0, .ro⟩
def LAS_CNT_PLANNED : Fld := ⟨0x880044, 8, 8, 0, .ro⟩
def LAS_CNT_TEST_FAILS : Fld := ⟨0x880044, 16, 8, 0, .ro⟩
def LAS_TAKEOVER_FAILED : Fld := ⟨0x880048, 0, 4, 0, .ro⟩
def LAS_TAKEOVER_SPARE : Fld := ⟨0x880048, 4, 4, 0, .ro⟩
def LAS_TAKEOVER_OUTAGE_US : Fld := ⟨0x880048, 8, 14, 0, .ro⟩
def LPE_ENG_HEARTBEAT (i : Nat) : Fld := ⟨0x890000 + 0x10 * i, 0, 32, 0, .ro⟩
def LPE_ENG_LOAD (i : Nat) : Fld := ⟨0x890004 + 0x10 * i, 0, 8, 0, .ro⟩
def LPE_ENG_MAXDELAY_NS (i : Nat) : Fld := ⟨0x890004 + 0x10 * i, 16, 12, 0, .ro⟩
def LPE_ENG_STOPPED (i : Nat) : Fld := ⟨0x890004 + 0x10 * i, 31, 1, 0, .ro⟩
def LPE_CLASS_LOSS_THR (i : Nat) : Fld := ⟨0x890100 + 0x4 * i, 0, 12, 0x200, .rw⟩
def LPE_CLASS_LOSS_N (i : Nat) : Fld := ⟨0x890100 + 0x4 * i, 12, 8, 8, .rw⟩
def LPE_CLASS_SAT_N8 (i : Nat) : Fld := ⟨0x890100 + 0x4 * i, 20, 6, 8, .rw⟩
def LPE_CLASS_SLEW_DIV (i : Nat) : Fld := ⟨0x890100 + 0x4 * i, 26, 3, (if i < 4 then 5 else 1), .rw⟩
def LPE_VERIFY_CMD : Fld := ⟨0x890200, 0, 4, 0, .cmd⟩
def LPE_VERIFY_ARG : Fld := ⟨0x890200, 4, 4, 0, .rw⟩
def LPE_VERIFY_STATUS : Fld := ⟨0x890200, 8, 3, 0, .ro⟩
def LPE_VERIFY_IGNORED : Fld := ⟨0x890200, 16, 16, 0, .ro⟩
def LPE_CNT_WRONG_LINE : Fld := ⟨0x890204, 0, 16, 0, .rc⟩
def LPE_CNT_LOST : Fld := ⟨0x890204, 16, 16, 0, .rc⟩
def LPE_CNT2_VERIFY_SKIP : Fld := ⟨0x890208, 0, 12, 0, .rc⟩
def LPE_CNT2_ACQ_FAIL : Fld := ⟨0x890208, 12, 12, 0, .rc⟩
def LPE_CNT2_PILOT_FAULT : Fld := ⟨0x890208, 24, 8, 0, .rc⟩
def LPE_PILOT_SYNCED : Fld := ⟨0x89020C, 0, 1, 0, .ro⟩
def LPE_PILOT_CYCLES : Fld := ⟨0x89020C, 16, 16, 0, .ro⟩
def LPE_LOOP_B0 (i : Nat) : Fld := ⟨0x1000000 + 0x20 * i, 0, 16, 0, .rw⟩
def LPE_LOOP_B1 (i : Nat) : Fld := ⟨0x1000000 + 0x20 * i, 16, 16, 0, .rw⟩
def LPE_LOOP_B2 (i : Nat) : Fld := ⟨0x1000004 + 0x20 * i, 0, 16, 0, .rw⟩
def LPE_LOOP_B3 (i : Nat) : Fld := ⟨0x1000004 + 0x20 * i, 16, 16, 0, .rw⟩
def LPE_LOOP_A1 (i : Nat) : Fld := ⟨0x1000008 + 0x20 * i, 0, 16, 0, .rw⟩
def LPE_LOOP_A2 (i : Nat) : Fld := ⟨0x1000008 + 0x20 * i, 16, 16, 0, .rw⟩
def LPE_LOOP_A3 (i : Nat) : Fld := ⟨0x100000C + 0x20 * i, 0, 16, 0, .rw⟩
def LPE_LOOP_SHIFT (i : Nat) : Fld := ⟨0x100000C + 0x20 * i, 16, 2, 0, .rw⟩
def LPE_LOOP_FORM (i : Nat) : Fld := ⟨0x100000C + 0x20 * i, 18, 1, 0, .rw⟩
def LPE_LOOP_POL (i : Nat) : Fld := ⟨0x100000C + 0x20 * i, 19, 1, 0, .rw⟩
def LPE_LOOP_APPLY (i : Nat) : Fld := ⟨0x100000C + 0x20 * i, 20, 1, 0, .wo⟩
def LPE_LOOP_PEND (i : Nat) : Fld := ⟨0x100000C + 0x20 * i, 21, 1, 0, .ro⟩
def LPE_LOOP_SETPOINT (i : Nat) : Fld := ⟨0x1000010 + 0x20 * i, 0, 12, 0, .rw⟩
def LPE_LOOP_CODE (i : Nat) : Fld := ⟨0x1000014 + 0x20 * i, 0, 16, 0, .ro⟩
def LPE_LOOP_STATE (i : Nat) : Fld := ⟨0x1000014 + 0x20 * i, 16, 3, 0, .ro⟩
def LPE_LOOP_WRONG_LINE (i : Nat) : Fld := ⟨0x1000014 + 0x20 * i, 19, 1, 0, .ro⟩
def LPE_LOOP_HEADROOM (i : Nat) : Fld := ⟨0x1000014 + 0x20 * i, 20, 1, 0, .ro⟩
def LPE_LOOP_ERR (i : Nat) : Fld := ⟨0x1000018 + 0x20 * i, 0, 13, 0, .ro⟩
def LPE_LOOP_PILOT_DEPTH (i : Nat) : Fld := ⟨0x1000018 + 0x20 * i, 16, 16, 0, .ro⟩
def LPE_LOOP_ACQ_CODE (i : Nat) : Fld := ⟨0x100001C + 0x20 * i, 0, 16, 0, .ro⟩
def LPE_LOOP_REACQ (i : Nat) : Fld := ⟨0x100001C + 0x20 * i, 16, 8, 0, .ro⟩
def SCB_CMD_CMD : Fld := ⟨0x8C0000, 0, 4, 0, .cmd⟩
def SCB_CMD_STATUS : Fld := ⟨0x8C0000, 8, 3, 0, .ro⟩
def SCB_CMD_REASON : Fld := ⟨0x8C0000, 11, 5, 0, .ro⟩
def SCB_CMD_IGNORED : Fld := ⟨0x8C0000, 16, 16, 0, .ro⟩
def SCB_ARG_UNIT : Fld := ⟨0x8C0008, 0, 7, 0, .rw⟩
def SCB_ARG_FORCE : Fld := ⟨0x8C0008, 7, 1, 0, .rw⟩
def SCB_ARG_TIMED : Fld := ⟨0x8C0008, 8, 1, 0, .rw⟩
def SCB_ARG_TIMEOUT_MS : Fld := ⟨0x8C0008, 16, 16, 0, .rw⟩
def SCB_START_AT_START_AT : Fld := ⟨0x8C0010, 0, 64, 0, .rw⟩
def SCB_STAT_QDEPTH : Fld := ⟨0x8C0018, 0, 5, 0, .ro⟩
def SCB_STAT_REF_OK : Fld := ⟨0x8C0018, 5, 1, 0, .ro⟩
def SCB_STAT_LATE : Fld := ⟨0x8C0018, 6, 1, 0, .w1c⟩
def SCB_STAT_RUN_VALID : Fld := ⟨0x8C0018, 7, 1, 0, .ro⟩
def SCB_STAT_RUN_UNIT : Fld := ⟨0x8C0018, 8, 7, 0, .ro⟩
def SCB_STAT_REF_PWR : Fld := ⟨0x8C0018, 16, 16, 0, .ro⟩
def SCB_CNT_REJECTS : Fld := ⟨0x8C001C, 0, 16, 0, .rc⟩
def SCB_CNT_ABORTS : Fld := ⟨0x8C001C, 16, 16, 0, .rc⟩
def SCB_UNIT_COUNT (i : Nat) : Fld := ⟨0x8C0100 + 0x20 * i, 0, 32, 0, .ro⟩
def SCB_UNIT_FAILS (i : Nat) : Fld := ⟨0x8C0104 + 0x20 * i, 0, 32, 0, .ro⟩
def SCB_UNIT_LAST (i : Nat) : Fld := ⟨0x8C0108 + 0x20 * i, 0, 64, 0, .ro⟩
def SCB_UNIT_STATE (i : Nat) : Fld := ⟨0x8C0110 + 0x20 * i, 0, 3, 0, .ro⟩
def SCB_UNIT_RESULT (i : Nat) : Fld := ⟨0x8C0110 + 0x20 * i, 4, 4, 0, .ro⟩
def SCB_UNIT_LIMIT (i : Nat) : Fld := ⟨0x8C0110 + 0x20 * i, 8, 4, 0, .ro⟩
def SCB_UNIT_NOT_STORED (i : Nat) : Fld := ⟨0x8C0110 + 0x20 * i, 12, 1, 0, .ro⟩
def SCB_UNIT_MISSING (i : Nat) : Fld := ⟨0x8C0110 + 0x20 * i, 13, 1, 0, .ro⟩
def SCB_UNIT_FORCED (i : Nat) : Fld := ⟨0x8C0110 + 0x20 * i, 14, 1, 0, .ro⟩
def SCB_UNIT_POINTS (i : Nat) : Fld := ⟨0x8C0114 + 0x20 * i, 0, 5, 0, .ro⟩
def SCB_UNIT_TCAL (i : Nat) : Fld := ⟨0x8C0118 + 0x20 * i, 0, 16, 0, .ro⟩
def FTM_TIME_TIME : Fld := ⟨0x900000, 0, 64, 0, .ro⟩
def FTM_CFG_PRIMARY : Fld := ⟨0x900008, 0, 1, 0, .rw⟩
def FTM_CFG_AUTO_SWITCH : Fld := ⟨0x900008, 1, 1, 1, .rw⟩
def FTM_CFG_PPS_OUT_EN : Fld := ⟨0x900008, 2, 1, 0, .rw⟩
def FTM_CFG_PPS_IN_EN : Fld := ⟨0x900008, 3, 1, 0, .rw⟩
def FTM_CFG_GM_PPS : Fld := ⟨0x900008, 4, 1, 0, .rw⟩
def FTM_CMD_CMD : Fld := ⟨0x90000C, 0, 4, 0, .cmd⟩
def FTM_CMD_STATUS : Fld := ⟨0x90000C, 8, 2, 0, .ro⟩
def FTM_CMD_IGNORED : Fld := ⟨0x90000C, 16, 16, 0, .ro⟩
def FTM_SETVAL_VALUE : Fld := ⟨0x900010, 0, 64, 0, .rw⟩
def FTM_STAT_STATE : Fld := ⟨0x900018, 0, 2, 0, .ro⟩
def FTM_STAT_FOLLOWING : Fld := ⟨0x900018, 2, 1, 0, .ro⟩
def FTM_STAT_SYNCED : Fld := ⟨0x900018, 3, 1, 0, .ro⟩
def FTM_STAT_STEPPED : Fld := ⟨0x900018, 4, 1, 0, .w1c⟩
def FTM_STAT_SWITCHED : Fld := ⟨0x900018, 5, 1, 0, .w1c⟩
def FTM_STAT_DISAGREE : Fld := ⟨0x900018, 6, 1, 0, .ro⟩
def FTM_STAT_HOLD_S : Fld := ⟨0x900018, 16, 16, 0, .ro⟩
def FTM_RATE_RATE : Fld := ⟨0x90001C, 0, 32, 0, .ro⟩
def FTM_TRACE_STAMP : Fld := ⟨0x900020, 0, 32, 0, .ro⟩
def FTM_DOM_EN (i : Nat) : Fld := ⟨0x900100 + 0x40 * i, 0, 1, 0, .rw⟩
def FTM_DOM_GM (i : Nat) : Fld := ⟨0x900100 + 0x40 * i, 1, 1, 0, .rw⟩
def FTM_DOM_PARENT (i : Nat) : Fld := ⟨0x900100 + 0x40 * i, 2, 7, 0, .rw⟩
def FTM_DOM_DOWN_PORTS (i : Nat) : Fld := ⟨0x900104 + 0x40 * i, 0, 32, 0, .rw⟩
def FTM_DOM_STATE (i : Nat) : Fld := ⟨0x900108 + 0x40 * i, 0, 2, 0, .ro⟩
def FTM_DOM_HOPS (i : Nat) : Fld := ⟨0x900108 + 0x40 * i, 2, 4, 0, .ro⟩
def FTM_DOM_GM_LOCKED (i : Nat) : Fld := ⟨0x900108 + 0x40 * i, 6, 1, 0, .ro⟩
def FTM_DOM_GM_PKG (i : Nat) : Fld := ⟨0x900108 + 0x40 * i, 8, 20, 0, .ro⟩
def FTM_DOM_PATH_DELAY (i : Nat) : Fld := ⟨0x90010C + 0x40 * i, 0, 32, 0, .ro⟩
def FTM_DOM_OFFSET (i : Nat) : Fld := ⟨0x900110 + 0x40 * i, 0, 64, 0, .ro⟩
def FTM_DOM_ACCEPTED (i : Nat) : Fld := ⟨0x900118 + 0x40 * i, 0, 16, 0, .rc⟩
def FTM_DOM_OUTLIERS (i : Nat) : Fld := ⟨0x900118 + 0x40 * i, 16, 16, 0, .rc⟩
def FTM_DOM_LOSSES (i : Nat) : Fld := ⟨0x90011C + 0x40 * i, 0, 16, 0, .rc⟩
def FTM_PPSIN_EDGE : Fld := ⟨0x900200, 0, 64, 0, .ro⟩
def FTM_PPSCNT_EDGES : Fld := ⟨0x900208, 0, 32, 0, .ro⟩
def HUB_ID_STEPPING : Fld := ⟨0x0, 0, 8, 0xA1, .ro⟩
def HUB_ID_DEVICE : Fld := ⟨0x0, 16, 16, 0x100, .ro⟩
def HUB_ARCH_LEVEL : Fld := ⟨0x4, 0, 4, 1, .ro⟩
def HUB_DRV_LEVEL : Fld := ⟨0x8, 0, 4, 0, .rw⟩
def HUB_LEVEL_STAT_EFFECTIVE : Fld := ⟨0xC, 0, 4, 1, .ro⟩
def HUB_LEVEL_STAT_WRITTEN : Fld := ⟨0xC, 4, 1, 0, .ro⟩
def HUB_LEVEL_STAT_PRE_LEVEL : Fld := ⟨0xC, 16, 16, 0, .ro⟩
def HUB_FEATURE_BITS (i : Nat) : Fld := ⟨0x10 + 0x4 * i, 0, 32, (if i = 0 then 3 else 0), .ro⟩
def HUB_DRV_FEATURE_BITS (i : Nat) : Fld := ⟨0x20 + 0x4 * i, 0, 32, (if i = 0 then 3 else 0), .rw⟩
def HUB_ACCESS_STAT_UNMAPPED : Fld := ⟨0x30, 0, 16, 0, .rc⟩
def HUB_ACCESS_STAT_LEVEL_IGNORED : Fld := ⟨0x30, 16, 16, 0, .rc⟩
def HUB_ALERT_THERM_WARN : Fld := ⟨0x300, 0, 1, 0, .w1c⟩
def HUB_ALERT_LASER : Fld := ⟨0x300, 1, 1, 0, .w1c⟩
def HUB_ALERT_ENGINE_OUT : Fld := ⟨0x300, 2, 1, 0, .w1c⟩
def HUB_ALERT_PORT_OUT : Fld := ⟨0x300, 3, 1, 0, .w1c⟩
def HUB_ALERT_HEADGATE : Fld := ⟨0x300, 4, 1, 0, .w1c⟩
def HUB_ALERT_LOG_FULL : Fld := ⟨0x300, 5, 1, 0, .w1c⟩
def HUB_ALERT_DUP_NODE : Fld := ⟨0x300, 6, 1, 0, .w1c⟩
def HUB_ALERT_NVM : Fld := ⟨0x300, 7, 1, 0, .w1c⟩
def HUB_ALERT_TIME : Fld := ⟨0x300, 8, 1, 0, .w1c⟩
def HUB_ALERT_PCIE_DEGRADED : Fld := ⟨0x300, 9, 1, 0, .w1c⟩
def HUB_ALERT_CAL_REJECT : Fld := ⟨0x300, 10, 1, 0, .w1c⟩
def HUB_ALERT_BOOT_SKIP : Fld := ⟨0x300, 11, 1, 0, .w1c⟩
def HUB_ALERT_EN_EN : Fld := ⟨0x304, 0, 12, 0, .rw⟩
def HUB_CAN_STAT_NODE : Fld := ⟨0x308, 0, 7, 0, .ro⟩
def HUB_CAN_STAT_STATE : Fld := ⟨0x308, 8, 3, 0, .ro⟩
def HUB_CAN_STAT_DUP_NODE : Fld := ⟨0x308, 11, 1, 0, .ro⟩
def HUB_CAN_STAT_TEC : Fld := ⟨0x308, 16, 8, 0, .ro⟩
def HUB_CAN_STAT_REC : Fld := ⟨0x308, 24, 8, 0, .ro⟩
def HUB_PERMIT_HOLDER (i : Nat) : Fld := ⟨0x400 + 0x4 * i, 0, 12, 0, .ro⟩
def HUB_PWATCH_PEG (i j : Nat) : Fld := ⟨0x600 + 0x10000000 * i + 0x8 * j, 0, 20, 0, .rw⟩
def HUB_PWATCH_EN (i j : Nat) : Fld := ⟨0x600 + 0x10000000 * i + 0x8 * j, 20, 1, 0, .rw⟩
def HUB_PWATCH_FIRED (i j : Nat) : Fld := ⟨0x600 + 0x10000000 * i + 0x8 * j, 21, 1, 0, .w1c⟩
def HUB_PWATCH_REFUSED (i j : Nat) : Fld := ⟨0x600 + 0x10000000 * i + 0x8 * j, 22, 1, 0, .ro⟩
def HUB_PWATCH_REVOKED (i j : Nat) : Fld := ⟨0x600 + 0x10000000 * i + 0x8 * j, 23, 1, 0, .ro⟩
def HUB_PWATCH_THRESH (i j : Nat) : Fld := ⟨0x600 + 0x10000000 * i + 0x8 * j, 32, 24, 0, .rw⟩
def HUB_MBX_CMD_CMD (i : Nat) : Fld := ⟨0x1000 + 0x10000000 * i, 0, 4, 0, .cmd⟩
def HUB_MBX_CMD_STATUS (i : Nat) : Fld := ⟨0x1000 + 0x10000000 * i, 8, 2, 0, .ro⟩
def HUB_MBX_CMD_IGNORED (i : Nat) : Fld := ⟨0x1000 + 0x10000000 * i, 16, 16, 0, .ro⟩
def HUB_CRESET_CMD_CMD : Fld := ⟨0x700, 0, 4, 0, .cmd⟩
def HUB_CRESET_CMD_STATUS : Fld := ⟨0x700, 8, 3, 0, .ro⟩
def HUB_CRESET_CMD_IGNORED : Fld := ⟨0x700, 16, 16, 0, .ro⟩
def HUB_PRESET_CMD_CMD : Fld := ⟨0x704, 0, 4, 0, .cmd⟩
def HUB_PRESET_CMD_STATUS : Fld := ⟨0x704, 8, 3, 0, .ro⟩
def HUB_PRESET_CMD_IGNORED : Fld := ⟨0x704, 16, 16, 0, .ro⟩
def HUB_RESET_STAT_PHASE : Fld := ⟨0x708, 0, 3, 0, .ro⟩
def HUB_RESET_STAT_KIND : Fld := ⟨0x708, 3, 2, 2, .ro⟩
def HUB_RESET_STAT_CAUSE : Fld := ⟨0x708, 5, 3, 0, .ro⟩
def HUB_RESET_STAT_DUMP : Fld := ⟨0x708, 8, 1, 0, .ro⟩
def HUB_RESET_STAT_SUMMARY : Fld := ⟨0x708, 9, 1, 0, .ro⟩
def HUB_RESET_CNT_CRESETS : Fld := ⟨0x70C, 0, 16, 0, .ro⟩
def HUB_RESET_CNT_LATE_RESP : Fld := ⟨0x70C, 16, 16, 0, .rc⟩
def HUB_RESET_TIME_TRIGGER : Fld := ⟨0x710, 0, 64, 0, .ro⟩
def HUB_DIE_HB_BEAT (i : Nat) : Fld := ⟨0x740 + 0x4 * i, 0, 32, 0, .ro⟩
def HUB_DUMP_SEQ : Fld := ⟨0x790, 0, 16, 0, .ro⟩
def HUB_DUMP_BAYS : Fld := ⟨0x790, 16, 8, 0, .ro⟩
def HUB_DUMP_SUMSLOT : Fld := ⟨0x790, 24, 4, 0, .ro⟩
def HUB_DUMP_VALID : Fld := ⟨0x790, 28, 1, 0, .ro⟩
def HUB_DUMP_SEG_ADDR (i : Nat) : Fld := ⟨0x7A0 + 0x8 * i, 0, 48, 0, .ro⟩
def HUB_SOLO_TENANT : Fld := ⟨0x7E0, 0, 4, 0, .rw⟩
def HUB_SOLO_EN : Fld := ⟨0x7E0, 4, 1, 0, .rw⟩
def HUB_FM_PKG : Fld := ⟨0x7E4, 0, 20, 0, .rw⟩
def HUB_FM_VALID : Fld := ⟨0x7E4, 31, 1, 0, .rw⟩
def HUB_FCTX_ARG_DST : Fld := ⟨0x800, 0, 20, 0, .rw⟩
def HUB_FCTX_ARG_OP : Fld := ⟨0x800, 20, 8, 0, .rw⟩
def HUB_FCTX_ARG_SIZE : Fld := ⟨0x800, 32, 6, 0, .rw⟩
def HUB_FCTX_CMD_CMD : Fld := ⟨0x828, 0, 4, 0, .cmd⟩
def HUB_FCTX_CMD_STATUS : Fld := ⟨0x828, 8, 3, 0, .ro⟩
def HUB_FCTX_CMD_REASON : Fld := ⟨0x828, 11, 2, 0, .ro⟩
def HUB_FCTX_CMD_IGNORED : Fld := ⟨0x828, 16, 16, 0, .ro⟩
def HUB_FCRX_CFG_PEG : Fld := ⟨0x830, 0, 20, 0, .rw⟩
def HUB_FCRX_CFG_EN : Fld := ⟨0x830, 20, 1, 0, .rw⟩
def HUB_FCRX_CFG_REFUSED : Fld := ⟨0x830, 21, 1, 0, .ro⟩
def HUB_FCRX_STAT_TAIL : Fld := ⟨0x834, 0, 4, 0, .ro⟩
def HUB_FCRX_STAT_DROPPED : Fld := ⟨0x834, 8, 8, 0, .rc⟩
def HUB_FCRX_STAT_BAD : Fld := ⟨0x834, 16, 8, 0, .rc⟩
def HUB_FCRX_STAT_TX_LOST : Fld := ⟨0x834, 24, 8, 0, .rc⟩
def HUB_FCRX_HEAD_HEAD : Fld := ⟨0x838, 0, 4, 0, .rw⟩
def HUB_SUMCUR_SLOT : Fld := ⟨0x840, 0, 4, 0, .rw⟩
def HUB_SUMCUR_PAGE : Fld := ⟨0x840, 4, 6, 0, .rw⟩
def HUB_BOOT_STEP : Fld := ⟨0x100, 0, 4, 0, .ro⟩
def HUB_BOOT_STATE : Fld := ⟨0x100, 4, 3, 0, .ro⟩
def HUB_BOOT_SLOT : Fld := ⟨0x100, 7, 1, 0, .ro⟩
def HUB_BOOT_HALT : Fld := ⟨0x100, 8, 8, 0, .ro⟩
def HUB_BOOT_ATTEMPT : Fld := ⟨0x100, 16, 2, 0, .ro⟩
def HUB_BOOT_MODE : Fld := ⟨0x100, 18, 2, 0, .ro⟩
def HUB_BOOT_CFG : Fld := ⟨0x100, 20, 2, 0, .ro⟩
def HUB_BOOT_STEPS_STEPS : Fld := ⟨0x108, 0, 44, 0xFFFFFFFFFFF, .ro⟩
def HUB_FW_STAT_STATE : Fld := ⟨0x120, 0, 3, 0, .ro⟩
def HUB_FW_STAT_TARGET : Fld := ⟨0x120, 3, 1, 0, .ro⟩
def HUB_FW_STAT_REASON : Fld := ⟨0x120, 4, 4, 0, .ro⟩
def HUB_FW_STAT_PROGRESS : Fld := ⟨0x120, 8, 10, 0, .ro⟩
def HUB_FW_SLOTS_A : Fld := ⟨0x124, 0, 2, 0, .ro⟩
def HUB_FW_SLOTS_B : Fld := ⟨0x124, 2, 2, 0, .ro⟩
def HUB_FW_SLOTS_NEXT : Fld := ⟨0x124, 4, 1, 0, .ro⟩
def HUB_NVM_STAT_REPAIRED : Fld := ⟨0x140, 0, 8, 0, .ro⟩
def HUB_NVM_STAT_BAD : Fld := ⟨0x140, 8, 8, 0, .ro⟩
def HUB_NVM_STAT_ERASES : Fld := ⟨0x140, 16, 16, 0, .ro⟩
def LOG_HEAD_HEAD : Fld := ⟨0x940000, 0, 18, 0, .ro⟩
def LOG_HEAD_CLEARS : Fld := ⟨0x940000, 24, 8, 0, .ro⟩
def LOG_STAT_FULL : Fld := ⟨0x940004, 0, 1, 0, .ro⟩
def LOG_STAT_CAUSE : Fld := ⟨0x940004, 1, 1, 0, .ro⟩
def LOG_STAT_CLEARING : Fld := ⟨0x940004, 2, 1, 0, .ro⟩
def LOG_STAT_PENDING : Fld := ⟨0x940004, 8, 9, 0, .ro⟩
def LOG_DROPPED_COUNT : Fld := ⟨0x940008, 0, 32, 0, .ro⟩
def LOG_CUR_INDEX : Fld := ⟨0x940010, 0, 17, 0, .rw⟩
def LOG_CUR_READY : Fld := ⟨0x940010, 31, 1, 0, .ro⟩
def PWR_DOM_EN (i : Nat) : Fld := ⟨0x980000 + 0x4 * i, 0, 1, 1, (if 11 ≤ i ∧ i ≤ 20 ∨ i = 23 then .rw else .ro)⟩
def PWR_DOM_STATE (i : Nat) : Fld := ⟨0x980000 + 0x4 * i, 1, 2, 2, .ro⟩
def PWR_DOM_THROTTLE (i : Nat) : Fld := ⟨0x980000 + 0x4 * i, 3, 1, 0, .ro⟩
def PWR_CAP_CAP_W (i : Nat) : Fld := ⟨0x980100 + 0x4 * i, 0, 10, (if 3 ≤ i ∧ i ≤ 10 then 0x0D7 else if 11 ≤ i ∧ i ≤ 14 then 0x04C else if i = 21 then 0x10E else 0), (if 3 ≤ i ∧ i ≤ 14 ∨ i = 21 then .rw else .ro)⟩
def PWR_CAP_FTARGET (i : Nat) : Fld := ⟨0x980100 + 0x4 * i, 16, 5, (if 3 ≤ i ∧ i ≤ 10 then 0x10 else 0), (if 3 ≤ i ∧ i ≤ 10 then .rw else .ro)⟩
def PWR_MEAS_POWER (i : Nat) : Fld := ⟨0x980200 + 0x4 * i, 0, 16, 0, .ro⟩
def PWR_MEAS_FCLK (i : Nat) : Fld := ⟨0x980200 + 0x4 * i, 16, 5, 0, .ro⟩
def PWR_INPUT_VIN : Fld := ⟨0x980300, 0, 16, 0, .ro⟩
def PWR_INPUT_IIN : Fld := ⟨0x980300, 16, 16, 0, .ro⟩
def PWR_INPUT_PIN : Fld := ⟨0x980300, 32, 16, 0, .ro⟩
def PWR_TEMP_TEMP (i : Nat) : Fld := ⟨0x980400 + 0x4 * i, 0, 16, 0, .ro⟩
def PWR_TEMP_WARN (i : Nat) : Fld := ⟨0x980400 + 0x4 * i, 16, 1, 0, .w1c⟩
def PMX_FB_START_COUNT (i : Nat) : Fld := ⟨0x400068 + 0x100 * i, 0, 32, 0, .ro⟩
def PMX_FB_RUN_COUNT (i : Nat) : Fld := ⟨0x40006C + 0x100 * i, 0, 32, 0, .ro⟩
def PMX_FB_SVC_COUNT (i : Nat) : Fld := ⟨0x400070 + 0x100 * i, 0, 32, 0, .ro⟩
def PMX_FB_REQ_COUNT (i : Nat) : Fld := ⟨0x400074 + 0x100 * i, 0, 32, 0, .ro⟩
def PMX_EXC_COUNT (i : Nat) : Fld := ⟨0x400078 + 0x100 * i, 0, 32, 0, .ro⟩
def SLC_STAGE_WORD (i : Nat) : Fld := ⟨0x800000 + 0x4 * i, 0, 32, 0, .rw⟩
/-- The boot map (R234): its header, with its CRC-32C; log entry 21. -/
def SLC_COMMIT_WORD (i : Nat) : Fld := ⟨0x800800 + 0x4 * i, 0, 32, (if i = 0 then 0x00201001 else if i = 15 then 0x488AF648 else 0), .ro⟩
def SLC_COLL_LO (i : Nat) : Fld := ⟨0x801000 + 0x4 * i, 0, 16, 0, .ro⟩
def SLC_COLL_HI (i : Nat) : Fld := ⟨0x801000 + 0x4 * i, 16, 16, 0, .ro⟩
def HUB_MBX_REQ_WORD (i j : Nat) : Fld := ⟨0x1100 + 0x10000000 * i + 0x4 * j, 0, 32, 0, .rw⟩
def HUB_MBX_RSP_WORD (i j : Nat) : Fld := ⟨0x1200 + 0x10000000 * i + 0x4 * j, 0, 32, 0, .ro⟩
def MSIX_TABLE_ADDR_LO (i j : Nat) : Fld := ⟨0x8000 + 0x10000000 * i + 0x10 * j, 0, 32, 0, .rw⟩
def MSIX_TABLE_HI_ADDR_HI (i j : Nat) : Fld := ⟨0x8004 + 0x10000000 * i + 0x10 * j, 0, 32, 0, .rw⟩
def MSIX_TABLE_DATA_DATA (i j : Nat) : Fld := ⟨0x8008 + 0x10000000 * i + 0x10 * j, 0, 32, 0, .rw⟩
def MSIX_TABLE_CTL_MASK (i j : Nat) : Fld := ⟨0x800C + 0x10000000 * i + 0x10 * j, 0, 1, 1, .rw⟩
def MSIX_PBA_PENDING (i : Nat) : Fld := ⟨0x9000 + 0x10000000 * i, 0, 16, 0, .ro⟩
def HUB_FCTX_DATA_WORD (i : Nat) : Fld := ⟨0x808 + 0x4 * i, 0, 32, 0, .rw⟩
def HUB_FCRX_BUF_WORD (i : Nat) : Fld := ⟨0xC00 + 0x4 * i, 0, 32, 0, .ro⟩
def LOG_WIN_WORD (i : Nat) : Fld := ⟨0x940100 + 0x4 * i, 0, 32, 0, .ro⟩

end R

open R

/-- Registers of chapter 01. -/
def regRows01a : List RegRow := [
  ⟨0x200, 0x0, 1, 0x0, 1, false, fun _ _ => [HUB_BAY_MAP_BAY_IN_SERVICE, HUB_BAY_MAP_BAY_OUT_LEDGER, HUB_BAY_MAP_BAY_OUT_CONFIG]⟩,
  ⟨0x204, 0x0, 1, 0x0, 1, false, fun _ _ => [HUB_ENG_MAP_ENG_IN_SERVICE, HUB_ENG_MAP_ENG_OUT]⟩,
  ⟨0x208, 0x0, 1, 0x0, 1, false, fun _ _ => [HUB_PORT_MAP_PORT_PRESENT]⟩,
  ⟨0x20C, 0x0, 1, 0x0, 1, false, fun _ _ => [HUB_LASER_MAP_LASER_LIT, HUB_LASER_MAP_LASER_FAILED]⟩,
  ⟨0x210, 0x0, 1, 0x0, 1, false, fun _ _ => [HUB_PLANE_MAP_PLANE_IN_SERVICE]⟩]

/-- Registers of chapter 03. -/
def regRows03a : List RegRow := [
  ⟨0x400020, 0x100, 16, 0x0, 1, false, fun i _ => [PMX_CLIPCNT_ADC_CLIP i]⟩,
  ⟨0x400024, 0x100, 16, 0x0, 1, false, fun i _ => [PMX_CLAMPCNT_IN_CLAMP i, PMX_CLAMPCNT_W_CLAMP i]⟩]

/-- Registers of chapter 04. -/
def regRows04a : List RegRow := [
  ⟨0x400000, 0x100, 16, 0x0, 1, false, fun i _ => [PMX_CTL_SVC_OUT i, PMX_CTL_KW_EN i, PMX_CTL_KW_DUTY i]⟩,
  ⟨0x400004, 0x100, 16, 0x0, 1, false, fun i _ => [PMX_STAT_STATE i, PMX_STAT_LOCKED i, PMX_STAT_CAL_VALID i, PMX_STAT_WEIR_CAP i, PMX_STAT_DUTY i, PMX_STAT_QDEPTH i]⟩,
  ⟨0x400008, 0x100, 16, 0x0, 1, false, fun i _ => [PMX_HEARTBEAT_BEAT i]⟩,
  ⟨0x400010, 0x100, 16, 0x0, 1, true, fun i _ => [PMX_VECCNT_VECTORS i]⟩,
  ⟨0x400018, 0x100, 16, 0x0, 1, false, fun i _ => [PMX_TILECNT_TILES i]⟩,
  ⟨0x40001C, 0x100, 16, 0x0, 1, false, fun i _ => [PMX_LOADSTAT_PD_SAT i, PMX_LOADSTAT_STAGE_LATE i]⟩,
  ⟨0x400028, 0x100, 16, 0x0, 1, false, fun i _ => [PMX_STARVE_SLOTS64 i]⟩,
  ⟨0x40002C, 0x100, 16, 0x0, 1, false, fun i _ => [PMX_WEIRCNT_WITHHELD_US i, PMX_WEIRCNT_PADDED_US i]⟩,
  ⟨0x400030, 0x100, 16, 0x0, 1, false, fun i _ => [PMX_BADDESC_REASON i, PMX_BADDESC_TENANT i, PMX_BADDESC_TAG i]⟩]

/-- Registers of chapter 05. -/
def regRows05a : List RegRow := [
  ⟨0x400040, 0x100, 16, 0x4, 6, false, fun i j => [PMX_ERR_ERR i j, PMX_ERR_AGE i j, PMX_ERR_SEEDED i j]⟩,
  ⟨0x400058, 0x100, 16, 0x0, 1, true, fun i _ => [PMX_PROBECNT_PROBES i]⟩,
  ⟨0x400060, 0x100, 16, 0x0, 1, false, fun i _ => [PMX_PROBEREJ_ROWS i]⟩,
  ⟨0x400064, 0x100, 16, 0x0, 1, false, fun i _ => [PMX_ERRPEAK_PEAK i, PMX_ERRPEAK_COMBO i]⟩,
  ⟨0x400080, 0x100, 16, 0x0, 1, true, fun i _ => [PMX_FB_VEC_VECTORS i]⟩,
  ⟨0x400088, 0x100, 16, 0x0, 1, false, fun i _ => [PMX_EXCLAST0_VEC_DONE i]⟩,
  ⟨0x40008C, 0x100, 16, 0x0, 1, false, fun i _ => [PMX_EXCLAST1_TENANT i, PMX_EXCLAST1_CAUSE i, PMX_EXCLAST1_TAG i]⟩,
  ⟨0x401000, 0x0, 1, 0x0, 1, false, fun _ _ => [DSP_REPRO_TENANT_MASK]⟩,
  ⟨0x401010, 0x4, 8, 0x0, 1, false, fun i _ => [DSP_FBCFG_CORES i]⟩,
  ⟨0x401030, 0x4, 8, 0x0, 1, false, fun i _ => [DSP_FBSTAT_QDEPTH i, DSP_FBSTAT_ACTIVE i]⟩,
  ⟨0x400068, 0x100, 16, 0x0, 1, false, fun i _ => [PMX_FB_START_COUNT i]⟩,
  ⟨0x40006C, 0x100, 16, 0x0, 1, false, fun i _ => [PMX_FB_RUN_COUNT i]⟩,
  ⟨0x400070, 0x100, 16, 0x0, 1, false, fun i _ => [PMX_FB_SVC_COUNT i]⟩,
  ⟨0x400074, 0x100, 16, 0x0, 1, false, fun i _ => [PMX_FB_REQ_COUNT i]⟩,
  ⟨0x400078, 0x100, 16, 0x0, 1, false, fun i _ => [PMX_EXC_COUNT i]⟩]

/-- Registers of chapter 06. -/
def regRows06a : List RegRow := [
  ⟨0x500000, 0x0, 1, 0x0, 1, false, fun _ _ => [MEM_HBMCFG_BL_GIB, MEM_HBMCFG_K, MEM_HBMCFG_TOTAL_GIB]⟩,
  ⟨0x500004, 0x0, 1, 0x0, 1, false, fun _ _ => [MEM_STAT_TAG_DUP]⟩,
  ⟨0x500008, 0x0, 1, 0x0, 1, true, fun _ _ => [MEM_INVAL_ARG_TENANT, MEM_INVAL_ARG_SCOPE, MEM_INVAL_ARG_VPN, MEM_INVAL_ARG_ASID]⟩,
  ⟨0x500010, 0x0, 1, 0x0, 1, false, fun _ _ => [MEM_INVAL_CMD_CMD, MEM_INVAL_CMD_STATUS, MEM_INVAL_CMD_IGNORED]⟩,
  ⟨0x500014, 0x0, 1, 0x0, 1, false, fun _ _ => [MEM_NOTENANT_COUNT]⟩,
  ⟨0x500100, 0x8, 16, 0x0, 1, true, fun i _ => [MEM_TSATP_PPN i, MEM_TSATP_ASID i, MEM_TSATP_MODE i]⟩,
  ⟨0x500180, 0x4, 16, 0x0, 1, false, fun i _ => [MEM_FTAG_TAG i, MEM_FTAG_VALID i]⟩,
  ⟨0x500200, 0x8, 16, 0x0, 1, true, fun i _ => [MEM_APER_BASE i]⟩,
  ⟨0x500300, 0x10, 16, 0x0, 1, false, fun i _ => [MEM_RCNT_SERVED i]⟩,
  ⟨0x500304, 0x10, 16, 0x0, 1, false, fun i _ => [MEM_RCNT_NACKED i]⟩,
  ⟨0x500308, 0x10, 16, 0x0, 1, false, fun i _ => [MEM_RCNT_GEN_DROP i]⟩,
  ⟨0x500400, 0x8, 24, 0x0, 1, true, fun i _ => [MEM_ECC_CE i, MEM_ECC_UE i]⟩,
  ⟨0x501000, 0x4, 1024, 0x0, 1, false, fun i _ => [MEM_HXCNT_LATE_ACK i, MEM_HXCNT_LATE_NACK i, MEM_HXCNT_MISROUTED i]⟩]

/-- Registers of chapter 07. -/
def regRows07a : List RegRow := [
  ⟨0x600000, 0x4, 256, 0x0, 1, false, fun i _ => [PEG_BLK_OWNER i, PEG_BLK_VALID i, PEG_BLK_GEN i]⟩,
  ⟨0x600400, 0x0, 1, 0x0, 1, false, fun _ _ => [PEG_BLKARG_FIRST, PEG_BLKARG_COUNT, PEG_BLKARG_TENANT]⟩,
  ⟨0x600404, 0x0, 1, 0x0, 1, false, fun _ _ => [PEG_BLKCMD_CMD, PEG_BLKCMD_STATUS, PEG_BLKCMD_IGNORED]⟩,
  ⟨0x600500, 0x4, 16, 0x0, 1, false, fun i _ => [PEG_TSUM_OVF i, PEG_TSUM_UNF i, PEG_TSUM_POISON i, PEG_TSUM_RAISE_FAULT i]⟩,
  ⟨0x600540, 0x4, 16, 0x0, 1, false, fun i _ => [PEG_TCNT_UNF_EVENTS i, PEG_TCNT_OVF_EVENTS i, PEG_TCNT_CPEG_DROP i]⟩,
  ⟨0x601000, 0x20, 256, 0x0, 1, true, fun i _ => [PEG_RLINK_LOCAL i, PEG_RLINK_VALID i, PEG_RLINK_ROOT i, PEG_RLINK_TIMED i, PEG_RLINK_PARENT_PKG i]⟩,
  ⟨0x601008, 0x20, 256, 0x0, 1, true, fun i _ => [PEG_RLINK_PARENT_PEG i, PEG_RLINK_PARENT_GEN i, PEG_RLINK_PARENT_N i]⟩,
  ⟨0x601010, 0x20, 256, 0x0, 1, true, fun i _ => [PEG_RLINK_RELEASE_AT i]⟩,
  ⟨0x601018, 0x20, 256, 0x0, 1, true, fun i _ => [PEG_RLINK_STATE i, PEG_RLINK_LATE i, PEG_RLINK_STALE i, PEG_RLINK_RELEASES i]⟩,
  ⟨0x610000, 0x4, 65536, 0x0, 1, false, fun i _ => [PEG_VAL_VALUE i, PEG_VAL_OVF i, PEG_VAL_UNF i, PEG_VAL_POISON i]⟩,
  ⟨0x420000, 0x4000, 16, 0x40, 256, true, fun i j => [DSP_Q_EN i j, DSP_Q_TYPE i j, DSP_Q_PEGDB i j, DSP_Q_HOME i j, DSP_Q_LOG2SIZE i j, DSP_Q_BASE i j]⟩,
  ⟨0x420008, 0x4000, 16, 0x40, 256, true, fun i j => [DSP_Q_SBASE i j]⟩,
  ⟨0x420010, 0x4000, 16, 0x40, 256, false, fun i j => [DSP_Q_DBPEG i j]⟩,
  ⟨0x420014, 0x4000, 16, 0x40, 256, false, fun i j => [DSP_Q_HEAD i j, DSP_Q_TAIL i j]⟩,
  ⟨0x420018, 0x4000, 16, 0x40, 256, false, fun i j => [DSP_Q_RETIRE i j]⟩,
  ⟨0x42001C, 0x4000, 16, 0x40, 256, false, fun i j => [DSP_Q_ERR i j, DSP_Q_STOPPED i j]⟩,
  ⟨0x420020, 0x4000, 16, 0x40, 256, false, fun i j => [DSP_Q_COMPLETED i j]⟩,
  ⟨0x402000, 0x0, 1, 0x0, 1, false, fun _ _ => [DSP_QCMDARG_TENANT, DSP_QCMDARG_QUEUE, DSP_QCMDARG_INDEX]⟩,
  ⟨0x402004, 0x0, 1, 0x0, 1, false, fun _ _ => [DSP_QCMD_CMD, DSP_QCMD_STATUS, DSP_QCMD_IGNORED]⟩,
  ⟨0x402040, 0x4, 17, 0x0, 1, false, fun i _ => [DSP_DBDROP_COUNT i]⟩]

/-- Registers of chapter 08. -/
def regRows08a : List RegRow := [
  ⟨0x700000, 0x100, 32, 0x0, 1, false, fun i _ => [LNK_CFG_EN i, LNK_CFG_BEACON_EN i, LNK_CFG_LIGHT i, LNK_CFG_AUTO_RETRAIN i, LNK_CFG_NBR_CHECK i, LNK_CFG_LINES_MAX i]⟩,
  ⟨0x700004, 0x100, 32, 0x0, 1, false, fun i _ => [LNK_CMD_CMD i, LNK_CMD_STATUS i, LNK_CMD_IGNORED i]⟩,
  ⟨0x700008, 0x100, 32, 0x0, 1, false, fun i _ => [LNK_STAT_STATE i, LNK_STAT_WIDTH i, LNK_STAT_FEC i, LNK_STAT_AMBIENT i, LNK_STAT_LIGHT_REFUSED i, LNK_STAT_LIGHT_FALLBACK i, LNK_STAT_TRAIN_FAIL i, LNK_STAT_NBR_MISMATCH i, LNK_STAT_LEVEL i]⟩,
  ⟨0x70000C, 0x100, 32, 0x0, 1, false, fun i _ => [LNK_LINES_ACTIVE i, LNK_LINES_FAILED i]⟩,
  ⟨0x700010, 0x100, 32, 0x0, 1, true, fun i _ => [LNK_PEER_PKG i, LNK_PEER_PORT i, LNK_PEER_VALID i, LNK_PEER_OFFER i, LNK_PEER_EPOCH i]⟩,
  ⟨0x700018, 0x100, 32, 0x0, 1, true, fun i _ => [LNK_NBR_PKG i, LNK_NBR_PORT i, LNK_NBR_VALID i, LNK_NBR_OFFER i, LNK_NBR_EPOCH i]⟩,
  ⟨0x700020, 0x100, 32, 0x0, 1, false, fun i _ => [LNK_DELAY i]⟩,
  ⟨0x700024, 0x100, 32, 0x0, 1, false, fun i _ => [LNK_FEAT i]⟩,
  ⟨0x700028, 0x100, 32, 0x0, 1, false, fun i _ => [LNK_FEC_CORR i]⟩,
  ⟨0x70002C, 0x100, 32, 0x0, 1, false, fun i _ => [LNK_FEC_UNCORR i]⟩,
  ⟨0x700030, 0x100, 32, 0x0, 1, false, fun i _ => [LNK_CRC_ERR i]⟩,
  ⟨0x700034, 0x100, 32, 0x0, 1, false, fun i _ => [LNK_REPLAY i]⟩,
  ⟨0x700038, 0x100, 32, 0x0, 1, false, fun i _ => [LNK_TRAIN_START i, LNK_TRAIN_FAILS i]⟩,
  ⟨0x70003C, 0x100, 32, 0x0, 1, false, fun i _ => [LNK_LANE_DROPS i, LNK_DOWNS i]⟩,
  ⟨0x700040, 0x100, 32, 0x0, 1, false, fun i _ => [LNK_BEACON_OK i, LNK_BEACON_BAD i]⟩,
  ⟨0x700044, 0x100, 32, 0x0, 1, false, fun i _ => [LNK_AMBIENT i]⟩,
  ⟨0x700048, 0x100, 32, 0x0, 1, false, fun i _ => [LNK_TRANSIT i]⟩,
  ⟨0x70004C, 0x100, 32, 0x0, 1, false, fun i _ => [LNK_HOPDROP i, LNK_NOROUTE i]⟩,
  ⟨0x700050, 0x100, 32, 0x0, 1, false, fun i _ => [LNK_CREDIT_STALL i]⟩,
  ⟨0x700054, 0x100, 32, 0x0, 1, false, fun i _ => [LNK_RX_POWER i]⟩,
  ⟨0x704000, 0x0, 1, 0x0, 1, true, fun _ _ => [LNK_GLOBAL_PKG, LNK_GLOBAL_HOPS_INIT, LNK_GLOBAL_GANG_DUP, LNK_GLOBAL_PKG_IGNORED]⟩,
  ⟨0x704008, 0x0, 1, 0x0, 1, false, fun _ _ => [LNK_EPOCH_EPOCH]⟩,
  ⟨0x704100, 0x8, 16, 0x0, 1, true, fun i _ => [LNK_GANG_PORTS i, LNK_GANG_UP i]⟩,
  ⟨0x740000, 0x4, 65536, 0x0, 1, false, fun i _ => [LNK_DTAB_GANG i, LNK_DTAB_VALID i, LNK_DTAB_EXPRESS i]⟩]

/-- Registers of chapter 09. -/
def regRows09a : List RegRow := [
  ⟨0x801400, 0x0, 1, 0x0, 1, false, fun _ _ => [SLC_PLAN_STATUS, SLC_PLAN_REASON, SLC_PLAN_CHANGED, SLC_PLAN_COLL]⟩,
  ⟨0x801404, 0x0, 1, 0x0, 1, false, fun _ _ => [SLC_ACT_LATE, SLC_ACT_STALE, SLC_ACT_REFUSED]⟩,
  ⟨0x801408, 0x0, 1, 0x0, 1, false, fun _ _ => [SLC_MAPID_MAP_ID]⟩,
  ⟨0x801410, 0x0, 1, 0x0, 1, true, fun _ _ => [SLC_ACTTIME_START]⟩,
  ⟨0x801418, 0x0, 1, 0x0, 1, true, fun _ _ => [SLC_CNT_ACTIVATIONS, SLC_CNT_REJECTS, SLC_CNT_STAGE_IGNORED, SLC_CNT_BUS_REJECT]⟩,
  ⟨0x804000, 0x400, 16, 0x4, 208, false, fun i j => [SLC_ELEM_CODE i j, SLC_ELEM_SILL i j, SLC_ELEM_COMMITTED i j]⟩,
  ⟨0x808000, 0x0, 1, 0x0, 1, false, fun _ _ => [HDG_CMD_CMD, HDG_CMD_ARG, HDG_CMD_STATUS, HDG_CMD_IGNORED]⟩,
  ⟨0x808004, 0x0, 1, 0x0, 1, false, fun _ _ => [HDG_STAT_A_STATE, HDG_STAT_B_STATE, HDG_STAT_NONE]⟩,
  ⟨0x808008, 0x0, 1, 0x0, 1, false, fun _ _ => [HDG_LEASE_REMAIN_US, HDG_LEASE_HOLDER, HDG_LEASE_RENEWALS]⟩,
  ⟨0x80800C, 0x0, 1, 0x0, 1, false, fun _ _ => [HDG_CKPT_CKPT_SEQ]⟩,
  ⟨0x808010, 0x0, 1, 0x0, 1, false, fun _ _ => [HDG_FAIL_FAILOVERS, HDG_FAIL_CAUSE]⟩,
  ⟨0x808014, 0x0, 1, 0x0, 1, false, fun _ _ => [HDG_SILL_PLANE, HDG_SILL_ELEM, HDG_SILL_MISMATCHES]⟩,
  ⟨0x808018, 0x0, 1, 0x0, 1, false, fun _ _ => [HDG_SILLSCAN_SCANS]⟩,
  ⟨0x800000, 0x4, 272, 0x0, 1, false, fun i _ => [SLC_STAGE_WORD i]⟩,
  ⟨0x800800, 0x4, 272, 0x0, 1, false, fun i _ => [SLC_COMMIT_WORD i]⟩,
  ⟨0x800C40, 0x4, 240, 0x0, 1, false, fun _ _ => []⟩,
  ⟨0x801000, 0x4, 256, 0x0, 1, false, fun i _ => [SLC_COLL_LO i, SLC_COLL_HI i]⟩]

/-- Registers of chapter 10. -/
def regRows10a : List RegRow := [
  ⟨0x880000, 0x4, 10, 0x0, 1, false, fun i _ => [LAS_STAT_STATE i, LAS_STAT_GRID_LOCK i, LAS_STAT_SERVES i, LAS_STAT_PWR i]⟩,
  ⟨0x880040, 0x0, 1, 0x0, 1, false, fun _ _ => [LAS_CMD_CMD, LAS_CMD_ARG, LAS_CMD_STATUS, LAS_CMD_IGNORED]⟩,
  ⟨0x880044, 0x0, 1, 0x0, 1, false, fun _ _ => [LAS_CNT_TAKEOVERS, LAS_CNT_PLANNED, LAS_CNT_TEST_FAILS]⟩,
  ⟨0x880048, 0x0, 1, 0x0, 1, false, fun _ _ => [LAS_TAKEOVER_FAILED, LAS_TAKEOVER_SPARE, LAS_TAKEOVER_OUTAGE_US]⟩,
  ⟨0x890000, 0x10, 12, 0x0, 1, false, fun i _ => [LPE_ENG_HEARTBEAT i]⟩,
  ⟨0x890004, 0x10, 12, 0x0, 1, false, fun i _ => [LPE_ENG_LOAD i, LPE_ENG_MAXDELAY_NS i, LPE_ENG_STOPPED i]⟩,
  ⟨0x890100, 0x4, 6, 0x0, 1, false, fun i _ => [LPE_CLASS_LOSS_THR i, LPE_CLASS_LOSS_N i, LPE_CLASS_SAT_N8 i, LPE_CLASS_SLEW_DIV i]⟩,
  ⟨0x890200, 0x0, 1, 0x0, 1, false, fun _ _ => [LPE_VERIFY_CMD, LPE_VERIFY_ARG, LPE_VERIFY_STATUS, LPE_VERIFY_IGNORED]⟩,
  ⟨0x890204, 0x0, 1, 0x0, 1, false, fun _ _ => [LPE_CNT_WRONG_LINE, LPE_CNT_LOST]⟩,
  ⟨0x890208, 0x0, 1, 0x0, 1, false, fun _ _ => [LPE_CNT2_VERIFY_SKIP, LPE_CNT2_ACQ_FAIL, LPE_CNT2_PILOT_FAULT]⟩,
  ⟨0x89020C, 0x0, 1, 0x0, 1, false, fun _ _ => [LPE_PILOT_SYNCED, LPE_PILOT_CYCLES]⟩,
  ⟨0x1000000, 0x20, 393216, 0x0, 1, false, fun i _ => if ringExists i then [LPE_LOOP_B0 i, LPE_LOOP_B1 i] else []⟩,
  ⟨0x1000004, 0x20, 393216, 0x0, 1, false, fun i _ => if ringExists i then [LPE_LOOP_B2 i, LPE_LOOP_B3 i] else []⟩,
  ⟨0x1000008, 0x20, 393216, 0x0, 1, false, fun i _ => if ringExists i then [LPE_LOOP_A1 i, LPE_LOOP_A2 i] else []⟩,
  ⟨0x100000C, 0x20, 393216, 0x0, 1, false, fun i _ => if ringExists i then [LPE_LOOP_A3 i, LPE_LOOP_SHIFT i, LPE_LOOP_FORM i, LPE_LOOP_POL i, LPE_LOOP_APPLY i, LPE_LOOP_PEND i] else []⟩,
  ⟨0x1000010, 0x20, 393216, 0x0, 1, false, fun i _ => if ringExists i then [LPE_LOOP_SETPOINT i] else []⟩,
  ⟨0x1000014, 0x20, 393216, 0x0, 1, false, fun i _ => if ringExists i then [LPE_LOOP_CODE i, LPE_LOOP_STATE i, LPE_LOOP_WRONG_LINE i, LPE_LOOP_HEADROOM i] else []⟩,
  ⟨0x1000018, 0x20, 393216, 0x0, 1, false, fun i _ => if ringExists i then [LPE_LOOP_ERR i, LPE_LOOP_PILOT_DEPTH i] else []⟩,
  ⟨0x100001C, 0x20, 393216, 0x0, 1, false, fun i _ => if ringExists i then [LPE_LOOP_ACQ_CODE i, LPE_LOOP_REACQ i] else []⟩]

/-- Registers of chapter 11. -/
def regRows11a : List RegRow := [
  ⟨0x8C0000, 0x0, 1, 0x0, 1, false, fun _ _ => [SCB_CMD_CMD, SCB_CMD_STATUS, SCB_CMD_REASON, SCB_CMD_IGNORED]⟩,
  ⟨0x8C0008, 0x0, 1, 0x0, 1, true, fun _ _ => [SCB_ARG_UNIT, SCB_ARG_FORCE, SCB_ARG_TIMED, SCB_ARG_TIMEOUT_MS]⟩,
  ⟨0x8C0010, 0x0, 1, 0x0, 1, true, fun _ _ => [SCB_START_AT_START_AT]⟩,
  ⟨0x8C0018, 0x0, 1, 0x0, 1, false, fun _ _ => [SCB_STAT_QDEPTH, SCB_STAT_REF_OK, SCB_STAT_LATE, SCB_STAT_RUN_VALID, SCB_STAT_RUN_UNIT, SCB_STAT_REF_PWR]⟩,
  ⟨0x8C001C, 0x0, 1, 0x0, 1, false, fun _ _ => [SCB_CNT_REJECTS, SCB_CNT_ABORTS]⟩,
  ⟨0x8C0100, 0x20, 74, 0x0, 1, false, fun i _ => [SCB_UNIT_COUNT i]⟩,
  ⟨0x8C0104, 0x20, 74, 0x0, 1, false, fun i _ => [SCB_UNIT_FAILS i]⟩,
  ⟨0x8C0108, 0x20, 74, 0x0, 1, true, fun i _ => [SCB_UNIT_LAST i]⟩,
  ⟨0x8C0110, 0x20, 74, 0x0, 1, false, fun i _ => [SCB_UNIT_STATE i, SCB_UNIT_RESULT i, SCB_UNIT_LIMIT i, SCB_UNIT_NOT_STORED i, SCB_UNIT_MISSING i, SCB_UNIT_FORCED i]⟩,
  ⟨0x8C0114, 0x20, 74, 0x0, 1, false, fun i _ => [SCB_UNIT_POINTS i]⟩,
  ⟨0x8C0118, 0x20, 74, 0x0, 1, false, fun i _ => [SCB_UNIT_TCAL i]⟩]

/-- Registers of chapter 12. -/
def regRows12a : List RegRow := [
  ⟨0x900000, 0x0, 1, 0x0, 1, true, fun _ _ => [FTM_TIME_TIME]⟩,
  ⟨0x900008, 0x0, 1, 0x0, 1, false, fun _ _ => [FTM_CFG_PRIMARY, FTM_CFG_AUTO_SWITCH, FTM_CFG_PPS_OUT_EN, FTM_CFG_PPS_IN_EN, FTM_CFG_GM_PPS]⟩,
  ⟨0x90000C, 0x0, 1, 0x0, 1, false, fun _ _ => [FTM_CMD_CMD, FTM_CMD_STATUS, FTM_CMD_IGNORED]⟩,
  ⟨0x900010, 0x0, 1, 0x0, 1, true, fun _ _ => [FTM_SETVAL_VALUE]⟩,
  ⟨0x900018, 0x0, 1, 0x0, 1, false, fun _ _ => [FTM_STAT_STATE, FTM_STAT_FOLLOWING, FTM_STAT_SYNCED, FTM_STAT_STEPPED, FTM_STAT_SWITCHED, FTM_STAT_DISAGREE, FTM_STAT_HOLD_S]⟩,
  ⟨0x90001C, 0x0, 1, 0x0, 1, false, fun _ _ => [FTM_RATE_RATE]⟩,
  ⟨0x900020, 0x0, 1, 0x0, 1, false, fun _ _ => [FTM_TRACE_STAMP]⟩,
  ⟨0x900100, 0x40, 2, 0x0, 1, false, fun i _ => [FTM_DOM_EN i, FTM_DOM_GM i, FTM_DOM_PARENT i]⟩,
  ⟨0x900104, 0x40, 2, 0x0, 1, false, fun i _ => [FTM_DOM_DOWN_PORTS i]⟩,
  ⟨0x900108, 0x40, 2, 0x0, 1, false, fun i _ => [FTM_DOM_STATE i, FTM_DOM_HOPS i, FTM_DOM_GM_LOCKED i, FTM_DOM_GM_PKG i]⟩,
  ⟨0x90010C, 0x40, 2, 0x0, 1, false, fun i _ => [FTM_DOM_PATH_DELAY i]⟩,
  ⟨0x900110, 0x40, 2, 0x0, 1, true, fun i _ => [FTM_DOM_OFFSET i]⟩,
  ⟨0x900118, 0x40, 2, 0x0, 1, false, fun i _ => [FTM_DOM_ACCEPTED i, FTM_DOM_OUTLIERS i]⟩,
  ⟨0x90011C, 0x40, 2, 0x0, 1, false, fun i _ => [FTM_DOM_LOSSES i]⟩,
  ⟨0x900200, 0x0, 1, 0x0, 1, true, fun _ _ => [FTM_PPSIN_EDGE]⟩,
  ⟨0x900208, 0x0, 1, 0x0, 1, false, fun _ _ => [FTM_PPSCNT_EDGES]⟩]

/-- Registers of chapter 13. -/
def regRows13a : List RegRow := [
  ⟨0x0, 0x0, 1, 0x0, 1, false, fun _ _ => [HUB_ID_STEPPING, HUB_ID_DEVICE]⟩,
  ⟨0x4, 0x0, 1, 0x0, 1, false, fun _ _ => [HUB_ARCH_LEVEL]⟩,
  ⟨0x8, 0x0, 1, 0x0, 1, false, fun _ _ => [HUB_DRV_LEVEL]⟩,
  ⟨0xC, 0x0, 1, 0x0, 1, false, fun _ _ => [HUB_LEVEL_STAT_EFFECTIVE, HUB_LEVEL_STAT_WRITTEN, HUB_LEVEL_STAT_PRE_LEVEL]⟩,
  ⟨0x10, 0x4, 4, 0x0, 1, false, fun i _ => [HUB_FEATURE_BITS i]⟩,
  ⟨0x20, 0x4, 4, 0x0, 1, false, fun i _ => [HUB_DRV_FEATURE_BITS i]⟩,
  ⟨0x30, 0x0, 1, 0x0, 1, false, fun _ _ => [HUB_ACCESS_STAT_UNMAPPED, HUB_ACCESS_STAT_LEVEL_IGNORED]⟩,
  ⟨0x300, 0x0, 1, 0x0, 1, false, fun _ _ => [HUB_ALERT_THERM_WARN, HUB_ALERT_LASER, HUB_ALERT_ENGINE_OUT, HUB_ALERT_PORT_OUT, HUB_ALERT_HEADGATE, HUB_ALERT_LOG_FULL, HUB_ALERT_DUP_NODE, HUB_ALERT_NVM, HUB_ALERT_TIME, HUB_ALERT_PCIE_DEGRADED, HUB_ALERT_CAL_REJECT, HUB_ALERT_BOOT_SKIP]⟩,
  ⟨0x304, 0x0, 1, 0x0, 1, false, fun _ _ => [HUB_ALERT_EN_EN]⟩,
  ⟨0x308, 0x0, 1, 0x0, 1, false, fun _ _ => [HUB_CAN_STAT_NODE, HUB_CAN_STAT_STATE, HUB_CAN_STAT_DUP_NODE, HUB_CAN_STAT_TEC, HUB_CAN_STAT_REC]⟩,
  ⟨0x400, 0x4, 80, 0x0, 1, false, fun i _ => [HUB_PERMIT_HOLDER i]⟩,
  ⟨0x600, 0x10000000, 17, 0x8, 8, true, fun i j => [HUB_PWATCH_PEG i j, HUB_PWATCH_EN i j, HUB_PWATCH_FIRED i j, HUB_PWATCH_REFUSED i j, HUB_PWATCH_REVOKED i j, HUB_PWATCH_THRESH i j]⟩,
  ⟨0x1000, 0x10000000, 17, 0x0, 1, false, fun i _ => [HUB_MBX_CMD_CMD i, HUB_MBX_CMD_STATUS i, HUB_MBX_CMD_IGNORED i]⟩,
  ⟨0x1100, 0x10000000, 17, 0x4, 64, false, fun i j => [HUB_MBX_REQ_WORD i j]⟩,
  ⟨0x1200, 0x10000000, 17, 0x4, 64, false, fun i j => [HUB_MBX_RSP_WORD i j]⟩,
  ⟨0x8000, 0x10000000, 17, 0x10, 16, false, fun i j => [MSIX_TABLE_ADDR_LO i j]⟩,
  ⟨0x8004, 0x10000000, 17, 0x10, 16, false, fun i j => [MSIX_TABLE_HI_ADDR_HI i j]⟩,
  ⟨0x8008, 0x10000000, 17, 0x10, 16, false, fun i j => [MSIX_TABLE_DATA_DATA i j]⟩,
  ⟨0x800C, 0x10000000, 17, 0x10, 16, false, fun i j => [MSIX_TABLE_CTL_MASK i j]⟩,
  ⟨0x9000, 0x10000000, 17, 0x0, 1, false, fun i _ => [MSIX_PBA_PENDING i]⟩]

/-- Registers of chapter 14. -/
def regRows14a : List RegRow := [
  ⟨0x700, 0x0, 1, 0x0, 1, false, fun _ _ => [HUB_CRESET_CMD_CMD, HUB_CRESET_CMD_STATUS, HUB_CRESET_CMD_IGNORED]⟩,
  ⟨0x704, 0x0, 1, 0x0, 1, false, fun _ _ => [HUB_PRESET_CMD_CMD, HUB_PRESET_CMD_STATUS, HUB_PRESET_CMD_IGNORED]⟩,
  ⟨0x708, 0x0, 1, 0x0, 1, false, fun _ _ => [HUB_RESET_STAT_PHASE, HUB_RESET_STAT_KIND, HUB_RESET_STAT_CAUSE, HUB_RESET_STAT_DUMP, HUB_RESET_STAT_SUMMARY]⟩,
  ⟨0x70C, 0x0, 1, 0x0, 1, false, fun _ _ => [HUB_RESET_CNT_CRESETS, HUB_RESET_CNT_LATE_RESP]⟩,
  ⟨0x710, 0x0, 1, 0x0, 1, true, fun _ _ => [HUB_RESET_TIME_TRIGGER]⟩,
  ⟨0x740, 0x4, 18, 0x0, 1, false, fun i _ => [HUB_DIE_HB_BEAT i]⟩,
  ⟨0x790, 0x0, 1, 0x0, 1, false, fun _ _ => [HUB_DUMP_SEQ, HUB_DUMP_BAYS, HUB_DUMP_SUMSLOT, HUB_DUMP_VALID]⟩,
  ⟨0x7A0, 0x8, 8, 0x0, 1, true, fun i _ => [HUB_DUMP_SEG_ADDR i]⟩,
  ⟨0x7E0, 0x0, 1, 0x0, 1, false, fun _ _ => [HUB_SOLO_TENANT, HUB_SOLO_EN]⟩,
  ⟨0x7E4, 0x0, 1, 0x0, 1, false, fun _ _ => [HUB_FM_PKG, HUB_FM_VALID]⟩,
  ⟨0x800, 0x0, 1, 0x0, 1, true, fun _ _ => [HUB_FCTX_ARG_DST, HUB_FCTX_ARG_OP, HUB_FCTX_ARG_SIZE]⟩,
  ⟨0x828, 0x0, 1, 0x0, 1, false, fun _ _ => [HUB_FCTX_CMD_CMD, HUB_FCTX_CMD_STATUS, HUB_FCTX_CMD_REASON, HUB_FCTX_CMD_IGNORED]⟩,
  ⟨0x830, 0x0, 1, 0x0, 1, false, fun _ _ => [HUB_FCRX_CFG_PEG, HUB_FCRX_CFG_EN, HUB_FCRX_CFG_REFUSED]⟩,
  ⟨0x834, 0x0, 1, 0x0, 1, false, fun _ _ => [HUB_FCRX_STAT_TAIL, HUB_FCRX_STAT_DROPPED, HUB_FCRX_STAT_BAD, HUB_FCRX_STAT_TX_LOST]⟩,
  ⟨0x838, 0x0, 1, 0x0, 1, false, fun _ _ => [HUB_FCRX_HEAD_HEAD]⟩,
  ⟨0x840, 0x0, 1, 0x0, 1, false, fun _ _ => [HUB_SUMCUR_SLOT, HUB_SUMCUR_PAGE]⟩,
  ⟨0x808, 0x4, 8, 0x0, 1, false, fun i _ => [HUB_FCTX_DATA_WORD i]⟩,
  ⟨0xC00, 0x4, 256, 0x0, 1, false, fun i _ => [HUB_FCRX_BUF_WORD i]⟩]

/-- Registers of chapter 15. -/
def regRows15a : List RegRow := [
  ⟨0x100, 0x0, 1, 0x0, 1, false, fun _ _ => [HUB_BOOT_STEP, HUB_BOOT_STATE, HUB_BOOT_SLOT, HUB_BOOT_HALT, HUB_BOOT_ATTEMPT, HUB_BOOT_MODE, HUB_BOOT_CFG]⟩,
  ⟨0x108, 0x0, 1, 0x0, 1, true, fun _ _ => [HUB_BOOT_STEPS_STEPS]⟩,
  ⟨0x120, 0x0, 1, 0x0, 1, false, fun _ _ => [HUB_FW_STAT_STATE, HUB_FW_STAT_TARGET, HUB_FW_STAT_REASON, HUB_FW_STAT_PROGRESS]⟩,
  ⟨0x124, 0x0, 1, 0x0, 1, false, fun _ _ => [HUB_FW_SLOTS_A, HUB_FW_SLOTS_B, HUB_FW_SLOTS_NEXT]⟩,
  ⟨0x140, 0x0, 1, 0x0, 1, false, fun _ _ => [HUB_NVM_STAT_REPAIRED, HUB_NVM_STAT_BAD, HUB_NVM_STAT_ERASES]⟩,
  ⟨0x940000, 0x0, 1, 0x0, 1, false, fun _ _ => [LOG_HEAD_HEAD, LOG_HEAD_CLEARS]⟩,
  ⟨0x940004, 0x0, 1, 0x0, 1, false, fun _ _ => [LOG_STAT_FULL, LOG_STAT_CAUSE, LOG_STAT_CLEARING, LOG_STAT_PENDING]⟩,
  ⟨0x940008, 0x0, 1, 0x0, 1, false, fun _ _ => [LOG_DROPPED_COUNT]⟩,
  ⟨0x940010, 0x0, 1, 0x0, 1, false, fun _ _ => [LOG_CUR_INDEX, LOG_CUR_READY]⟩,
  ⟨0x940100, 0x4, 64, 0x0, 1, false, fun i _ => [LOG_WIN_WORD i]⟩]

/-- Registers of chapter 16. -/
def regRows16a : List RegRow := [
  ⟨0x980000, 0x4, 24, 0x0, 1, false, fun i _ => [PWR_DOM_EN i, PWR_DOM_STATE i, PWR_DOM_THROTTLE i]⟩,
  ⟨0x980100, 0x4, 24, 0x0, 1, false, fun i _ => [PWR_CAP_CAP_W i, PWR_CAP_FTARGET i]⟩,
  ⟨0x980200, 0x4, 24, 0x0, 1, false, fun i _ => [PWR_MEAS_POWER i, PWR_MEAS_FCLK i]⟩,
  ⟨0x980300, 0x0, 1, 0x0, 1, true, fun _ _ => [PWR_INPUT_VIN, PWR_INPUT_IIN, PWR_INPUT_PIN]⟩,
  ⟨0x980400, 0x4, 100, 0x0, 1, false, fun i _ => [PWR_TEMP_TEMP i, PWR_TEMP_WARN i]⟩]

/-- All registers of PF BAR0. -/
def regRows : List RegRow :=
  regRows01a ++
  regRows03a ++
  regRows04a ++
  regRows05a ++
  regRows06a ++
  regRows07a ++
  regRows08a ++
  regRows09a ++
  regRows10a ++
  regRows11a ++
  regRows12a ++
  regRows13a ++
  regRows14a ++
  regRows15a ++
  regRows16a

/-- The register of row `r` that covers the 32-bit word at address `a` (a multiple of 4), as its own address and fields. -/
def rowAt (r : RegRow) (a : Nat) : Option (Nat × Bool × List Fld) :=
  if a < r.base then none else
  let off := a - r.base
  let i := if r.s1 = 0 then 0 else off / r.s1
  let rem := if r.s1 = 0 then off else off % r.s1
  let j := if r.s2 = 0 then 0 else rem / r.s2
  let rem2 := if r.s2 = 0 then rem else rem % r.s2
  if i < r.c1 ∧ j < r.c2 ∧ rem2 < (if r.wide then 8 else 4) then some (a - rem2, r.wide, r.fields i j) else none

/-- First register of a list of rows that covers the word at `a`. -/
def rowsAt : List RegRow → Nat → Option (Nat × Bool × List Fld)
  | [], _ => none
  | r :: rs, a => match rowAt r a with
    | some x => some x
    | none => rowsAt rs a

/-- The mapped register that covers the 32-bit word at address `a`: its address, whether it is 64 bits wide, its fields. -/
def regAt (a : Nat) : Option (Nat × Bool × List Fld) := rowsAt regRows (a / 4 * 4)

end Sys2Proof.Machine
end

