-- ==== Sys2Proof/Machine/Tab.lean ====
section
/-!
DEFINITION. Tables keyed by a number: a list of (key, entry) pairs. An entry that is not listed reads as a default that the
reader names. `tset` keeps a table canonical: keys rise and no entry equals the default.
-/

namespace Sys2Proof.Machine

/-- The entry of key `k`, or `d` where the table lists none. -/
def tget {α : Type} (d : α) : List (Nat × α) → Nat → α
  | [], _ => d
  | (k', v) :: r, k => if k' = k then v else tget d r k

/-- The table with key `k` at `v`; keys stay in rising order. -/
def tput {α : Type} (k : Nat) (v : α) : List (Nat × α) → List (Nat × α)
  | [] => [(k, v)]
  | (k', v') :: r =>
    if k' = k then (k, v) :: r
    else if k < k' then (k, v) :: (k', v') :: r
    else (k', v') :: tput k v r

/-- The table without key `k`. -/
def terase {α : Type} (k : Nat) : List (Nat × α) → List (Nat × α)
  | [] => []
  | (k', v') :: r => if k' = k then terase k r else (k', v') :: terase k r

/-- The table with key `k` reading `v` where unlisted keys read `d`: an entry equal to `d` is not listed. -/
def tset {α : Type} [DecidableEq α] (d : α) (k : Nat) (v : α) (t : List (Nat × α)) : List (Nat × α) :=
  if v = d then terase k t else tput k v t

/-- Keys of a table rise strictly. -/
def trising {α : Type} : List (Nat × α) → Bool
  | [] => true
  | [_] => true
  | a :: b :: r => decide (a.1 < b.1) && trising (b :: r)

/-- Canonical form: keys rise strictly and no entry equals the default. -/
def tcanon {α : Type} [DecidableEq α] (d : α) (t : List (Nat × α)) : Bool :=
  trising t && t.all fun p => decide (p.2 ≠ d)

end Sys2Proof.Machine
end

