-- ==== Sys2Proof/Machine/State.lean ====
section
/-!
DEFINITION. The state of the package as plain data, its reset value, and the reasons a step can stop. Every register of PF
BAR0 (Machine/Regs.lean) has its value in the field file `regs`; the rest of the state has the fields below. Tables keyed by a
unit number list only the units whose entry differs from the reset entry.
-/

namespace Sys2Proof.Machine

/-- A step stopped by a fault: the spec lists the behaviour as undefined and gives no effect. -/
inductive Fault where
  /-- Case `n` of Table 14.1 (R357). Raised by the command that triggers it. Safe: the package may do anything (R10), the
  model stops. -/
  | undefinedCase (n : Nat)
  deriving DecidableEq, Repr

/-- A command without a meaning. -/
inductive Refusal where
  /-- Raised by `exec` for a command whose meaning is not written yet. Safe: nothing is claimed of it. -/
  | notModelled (mnemonic : String)
  deriving DecidableEq, Repr

/-- What the requester of the last access received. -/
inductive Reply where
  /-- Nothing: the command returns nothing. -/
  | none
  /-- The bytes of a read. -/
  | data (bytes : List Byte)
  /-- Poisoned data (EP, R325). -/
  | poisoned (bytes : List Byte)
  /-- Unsupported Request (R148). -/
  | unsupported
  deriving DecidableEq, Repr

/-- Latches of one requester (R327): the register of its previous BAR0 read when that was the low half of a 64-bit register,
with the latched high half; and a low half held for a write: its register, its bits, and the mask of the bits written. -/
structure Latch where
  rdAddr : Option Nat
  rdHigh : Nat
  wrLow : Option (Nat × Nat × Nat)
  deriving DecidableEq, Repr

/-- Configuration state of a function (R318, R319, R333). -/
structure FnCfg where
  d3hot : Bool
  busMaster : Bool
  msixEnable : Bool
  msixFnMask : Bool
  deriving DecidableEq, Repr

/-- A Logbook record (R399, Table 15.7); the payload is bytes 0 to 39. -/
structure LogRec where
  seq : Nat
  operS : Nat
  pcycle : Nat
  severity : Nat
  source : Nat
  code : Nat
  flags : Nat
  payload : List Byte
  deriving DecidableEq, Repr

/-- A CAN frame in the transmit queue: identifier, data bytes, whether it has won arbitration, whether it belongs to a
transaction. -/
structure CanFrame where
  ident : Nat
  data : List Byte
  won : Bool
  txn : Option Nat
  deriving DecidableEq, Repr

/-- A CAN transaction in progress (R347, R348): its request header, the number of the segment that is due, the data so far, and whether
its response has joined the transmit queue. -/
structure CanTxn where
  txn : Nat
  op : Nat
  area : Nat
  index : Nat
  offset : Nat
  length : Nat
  nextSeg : Nat
  data : List Byte
  answered : Bool
  deriving DecidableEq, Repr

/-- The CAN FD controller beyond HUB_CAN_STAT: the node strap sampled at power-up, the transmit queue, the transaction, and per
identifier the duplicate counters and the runs of good frames (R350). -/
structure CanSt where
  strap : Nat
  txq : List CanFrame
  txn : Option CanTxn
  dup : List (Nat × Nat)
  good : List (Nat × Nat)
  deriving DecidableEq, Repr

/-- Privilege modes of a hart (R41). -/
inductive Priv where
  | u | s | m
  deriving DecidableEq, Repr

/-- A line of the L1D (R43): number of its 64-byte block of home memory, the data, whether dirty. -/
structure CacheLine where
  block : Nat
  data : List Byte
  dirty : Bool
  deriving DecidableEq, Repr

/-- A translation held in a TLB or in the agents' translation caches (R50, R149): address space, virtual page, leaf PTE, the
level of the leaf (0: 4 KiB), and the tenant it belongs to. -/
structure TlbEnt where
  tenant : Nat
  asid : Nat
  vpn : Nat
  level : Nat
  pte : Nat
  deriving DecidableEq, Repr

/-- Operations that a posted request can be (Table 6.4). -/
inductive PostKind where
  | write | pegAdd | pegSub
  deriving DecidableEq, Repr

/-- A posted request that is tracked (R77, R79): sequence number, tenant, kind, address or peg operand, n or size in bytes,
bytes per element, transactions not yet answered, bytes acknowledged or performed so far, reason of the first NACK. -/
structure TrackEnt where
  seq : Nat
  tenant : Nat
  kind : PostKind
  addr : Nat
  operand : Nat
  elem : Nat
  left : Nat
  parts : List (Nat × Nat)
  done : Nat
  reason : Option Nat
  /-- A record has been written for it after a LOST commit fence. -/
  reported : Bool
  deriving DecidableEq, Repr

/-- A transaction with its route: class, destination package, FLOW and body (Tables 8.3, 8.4). -/
structure RoutedXact where
  cls : Nat
  dst : Nat
  src : Nat
  flow : Nat
  x : Xact
  deriving DecidableEq, Repr

/-- A posted request that waits for a tracker entry (R77): its kind, operands and the register that receives its sequence number. -/
structure Posted where
  kind : PostKind
  addr : Nat
  operand : Nat
  elem : Nat
  data : List Byte
  rd : XReg
  deriving DecidableEq, Repr

/-- What a hart waits for outside itself (Table 2.18). -/
inductive HartWait where
  /-- Nothing: the hart runs. -/
  | none
  /-- PEG.WAITGE or PEG.TAKE registered at peg `peg` for value `n`. -/
  | peg (take : Bool) (operand : Nat) (n : Nat) (rd : XReg)
  /-- RAISE counted at count peg `c` in phase `ph`. -/
  | raise (operand : Nat) (ph : Nat) (rd : XReg)
  /-- HFENCE.COMMIT, issued at TIME64 `since`. -/
  | commit (since : Nat) (rd : XReg)
  /-- GLD of `size` bytes from `addr`, request number `req`. -/
  | gld (req : Nat) (addr : Nat) (size : Nat) (unsigned : Bool) (rd : XReg)
  /-- VGLD of `vl` elements of `elem` bytes; `got` holds the bytes that have arrived, by offset. -/
  | vgld (req : Nat) (addr : Nat) (elem vl : Nat) (vd : XReg) (got : List (Nat × List Byte))
  /-- GAMO of `size` bytes. -/
  | gamo (req : Nat) (addr : Nat) (size : Nat) (rd : XReg)
  /-- PMX.WAIT on a ticket. -/
  | pmx (ticket : Nat) (rd : XReg)
  /-- A detached PMX.LAUNCH that found no room, with its descriptor. -/
  | launch (desc : List Byte)
  /-- A posted request that waits for a tracker entry. -/
  | tracker (p : Posted)
  deriving DecidableEq, Repr

/-- An engine ticket slot (R72 to R74): its serial, and the outcome once final with the error at completion. -/
structure Slot where
  serial : Nat
  outcome : Option (Nat × Nat)
  deriving DecidableEq, Repr

/-- A queued MMA (R60). -/
structure MmaOp where
  fmt : Nat
  a : Nat
  ta : Nat
  tb : Nat
  deriving DecidableEq, Repr

/-- A hart (R41, R42, R52): integer, FP, vector and matrix state, CSRs by number (those of Table 14.8 and of the privileged
architecture), Henovik CSRs, ticket slots, tracker, caches, and what it waits for. -/
structure Hart where
  pc : Word
  priv : Priv
  x : List (Nat × Word)
  f : List (Nat × Word)
  /-- Vector register bytes: register × 128 + byte. -/
  v : List (Nat × Byte)
  /-- Tile bytes: tile × 1,024 + byte; scale buffers: tile × 64 + byte. -/
  tile : List (Nat × Byte)
  tscale : List (Nat × Byte)
  /-- Accumulator elements as FP32 bits: accumulator × 1,024 + 32 × row + column. -/
  acc : List (Nat × Nat)
  mmaq : List MmaOp
  csr : List (Nat × Word)
  tenant : Nat
  hsEn : Bool
  hdEn : Bool
  hxEn : Bool
  fqSize : Nat
  fqEn : Bool
  fqBase : Nat
  fqHead : Nat
  fqTail : Nat
  fqDropped : Nat
  commitTo : Nat
  raiseArrived : Bool
  raisePhase : Nat
  raisePeg : Nat
  hxseq : Nat
  hxcause : Nat
  slots : List (Nat × Slot)
  serial : Nat
  detached : Nat
  track : List TrackEnt
  lost : List TrackEnt
  /-- Covered requests NACKed since the previous commit fence retired (R70). -/
  nacked : Nat
  /-- Request number of the next READ or AMO (Table 8.4). -/
  reqno : Nat
  resv : Option Nat
  l1d : List CacheLine
  tlb : List TlbEnt
  wait : HartWait
  deriving DecidableEq, Repr

/-- A hart after a reset (R52; log entry 4 for what the spec gives no value). -/
def Hart.reset : Hart where
  pc := 0
  priv := .m
  x := []
  f := []
  v := []
  tile := []
  tscale := []
  acc := []
  mmaq := []
  csr := []
  tenant := 0
  hsEn := false
  hdEn := false
  hxEn := false
  fqSize := 0
  fqEn := false
  fqBase := 0
  fqHead := 0
  fqTail := 0
  fqDropped := 0
  commitTo := 10000
  raiseArrived := false
  raisePhase := 0
  raisePeg := 0
  hxseq := 0
  hxcause := 0
  slots := []
  serial := 0
  detached := 0
  track := []
  lost := []
  nacked := 0
  reqno := 0
  resv := none
  l1d := []
  tlb := []
  wait := .none

/-- What an INVALIDATE in progress removes (R149): tenant, scope, page and address space, as MEM_INVAL_ARG held them at the command. -/
structure InvalArg where
  tenant : Nat
  scope : Nat
  vpn : Nat
  asid : Nat
  deriving DecidableEq, Repr

/-- An up-arrival that a link entry sent and that has no answer yet (R178): the entry, and its LOCAL, PARENT_PKG and PARENT_PEG as
they were when it left. -/
structure UpSent where
  entry : Nat
  count : Nat
  pkg : Nat
  peg : Nat
  deriving DecidableEq, Repr

/-- An up-arrival that a raising of this package holds unanswered (R178): count peg, phase, and whom to answer. -/
structure UpArrival where
  cpeg : Nat
  phase : Nat
  src : Nat
  flow : Nat
  x : XBody
  deriving DecidableEq, Repr

/-- Who launched a tile: a hart, with the ticket slot and its serial if it has one, or task `i` of a tenant's queue. -/
inductive TileSrc where
  | hart (core : Nat) (ticket : Option (Nat × Nat))
  | queue (t q i : Nat)
  deriving DecidableEq, Repr

/-- What staging has put into a staging buffer (R112): clamped weights row by row over the columns of the mode, S_r, row scales
as FP16, the tile's MODE, SPARSE, FS_G and weight width, and whether a weight or a scale had an uncorrectable error (R163). -/
structure Staged where
  weights : List Int
  sums : List Int
  scales : List Nat
  mode : Nat
  sparse : Bool
  g : Nat
  bw : Nat
  bad : Bool
  deriving DecidableEq, Repr

/-- An accepted tile: number, descriptor, tenant, dispatcher bay, launcher, the translation its checks found (virtual page, home
key of the page), whether it is routed to the digital path, whether its reload or its digital computation has ever begun,
whether its staging has begun, and what staging produced. -/
structure Tile where
  id : Nat
  desc : List Byte
  tenant : Nat
  bay : Nat
  src : TileSrc
  pages : Option (List (Nat × Nat))
  digital : Bool
  started : Bool
  staging : Bool
  staged : Option Staged
  deriving DecidableEq, Repr

/-- A calibration set of an engine: its per-temperature points as they differ from the factory's, the valid points as a mask, and
the die temperature in 1/256 °C for which the set is built (R298). -/
structure CalSet where
  pts : List (Nat × Int)
  mask : Nat
  temp256 : Int
  deriving DecidableEq, Repr

/-- An engine (R100 to R136): its queue, whether the tile at the head runs and how many of its vectors have been streamed, the
weights in its rings, the slot counters, the weir, the sums behind its published errors, and its calibration sets. -/
structure Eng where
  queue : List Tile
  running : Bool
  vec : Nat
  /-- Length of the present run of idle slots. -/
  idleRun : Nat
  /-- Driven slots since the last probe position, and probe positions passed inside dummy patterns and not yet scored. -/
  slotCnt : Nat
  probesDue : Nat
  /-- Weights in the rings: those of the last tile; `none`: the reference tile of the calibration set (R129). -/
  rings : Option Staged
  lfsr : Nat
  /-- Weir: driven time of this window and of this sub-window in slots of 50 ps, whether the cap has held back a tile in this
  sub-window, dummy time not yet counted as a whole microsecond, D of the last window, and cap and floor of this one. -/
  driven : Nat
  subDriven : Nat
  withheld : Bool
  padRest : Nat
  duty : Nat
  cap : Nat
  floor : Nat
  /-- Per combination: sum of squared scaled row errors and count of scored rows, of this window and of the windows before it,
  newest first. -/
  cur : List (Nat × Nat)
  hist : List (List (Nat × Nat))
  /-- Largest scaled row error of this window, and its combination. -/
  peak : Nat × Nat
  /-- ERR of each combination as kept while the engine is out of service and reads 0xFFFF (R133). -/
  errs : List Nat
  act : Option CalSet
  shadow : Option CalSet
  /-- Tiles that a calibration in DRAIN waits for (R289). -/
  drain : Option (List Nat)
  /-- Whether an engine self-test is requested or runs (R355), by path and operation holder. -/
  selftest : Option Nat
  deriving DecidableEq, Repr

/-- An engine after a reset. -/
def Eng.reset : Eng where
  queue := []
  running := false
  vec := 0
  idleRun := 0
  slotCnt := 0
  probesDue := 0
  rings := none
  lfsr := 0
  driven := 0
  subDriven := 0
  withheld := false
  padRest := 0
  duty := 0
  cap := 0
  floor := 0
  cur := []
  hist := []
  peak := (0, 0)
  errs := []
  act := none
  shadow := none
  drain := none
  selftest := none

/-- States of a task (Table 7.4) after RETIRE: READY, RUNNING and final. Tasks that are QUEUED have no entry. -/
inductive TaskState where
  | ready | running | final
  deriving DecidableEq, Repr

/-- A task of a queue that has left QUEUED: its index, its state, its descriptor, the home pieces of a COPY's source and
destination as its checks found them, and for a remote SIGNAL that waits for its answer (R187) ISEQ, ADDR and destination. -/
structure Task where
  idx : Nat
  st : TaskState
  desc : List Byte
  src : List (Nat × Nat)
  dst : List (Nat × Nat)
  signal : Option (Nat × Nat × Nat)
  deriving DecidableEq, Repr

/-- A work queue beyond its DSP_Q block (R181 to R192): its tasks, whether a descriptor fetch is in flight, and the tile that a full
engine queue holds. -/
structure WorkQ where
  tasks : List Task
  fetching : Bool
  held : Option Tile
  deriving DecidableEq, Repr

/-- A request for a calibration (R287): unit, FORCE, TIMED with START_AT, TIMEOUT_MS, the permits it holds, and PMX_FB_SVC of the engines
it interrupts, summed, at its start (R289). -/
structure ScbReq where
  unit : Nat
  force : Bool
  timed : Bool
  startAt : Nat
  timeoutMs : Nat
  res : List Nat
  base : Nat
  deriving DecidableEq, Repr

/-- A frame of class 0 to 2 (Table 8.3): class, destination, source, FLOW, transits still allowed, transactions. -/
structure Frame where
  cls : Nat
  dst : Nat
  src : Nat
  flow : Nat
  hops : Nat
  xs : List Xact
  deriving DecidableEq, Repr

/-- A port beyond its LNK_ block (R205 to R225): next LSEQ, next LSEQ expected, the replay buffer, credits used and freed per class
since training as LINK_ACK counts them, the run of NAKs of one LSEQ, whether the training in progress keeps the buffers (R212),
whether a DOWN command holds it until a new rise of light, whether it waits to train again, trainings failed in a row, the last
TRAIN body of this training, whether it agreed light mode, whether light mode is barred until RETRAIN (R201), the last valid beacon, and the run of valid
frames with a depth of 2 % or above (R225). -/
structure PortSt where
  txSeq : Nat
  rxSeq : Nat
  replay : List (Nat × Frame)
  used : List (Nat × Nat)
  freedFar : List (Nat × Nat)
  freedOwn : List (Nat × Nat)
  nakSeq : Nat
  nakRun : Nat
  keep : Bool
  needRise : Bool
  retryWait : Bool
  fails : Nat
  peer : Option TrainBody
  lightMode : Bool
  noLight : Bool
  beacon : Option (Nat × Nat × Nat)
  clearRun : Nat
  deriving DecidableEq, Repr

/-- A port after a package reset. -/
def PortSt.reset : PortSt where
  txSeq := 0
  rxSeq := 0
  replay := []
  used := []
  freedFar := []
  freedOwn := []
  nakSeq := 0
  nakRun := 0
  keep := false
  needRise := false
  retryWait := false
  fails := 0
  peer := none
  lightMode := false
  noLight := false
  beacon := none
  clearRun := 0

/-- A planned map (R238 to R240): its 272 words, the element states as the elements in CROSS (plane × 256 + element), the entries of
the change set, the entries that are collateral, and the outputs that its activation shutters (R244) as port × 16 + line. -/
structure SlcPlan where
  words : List Nat
  cross : List Nat
  changed : List Nat
  coll : List Nat
  shutters : List Nat
  deriving DecidableEq, Repr

/-- An exchange of a time domain in progress (R307): SEQID, grandmaster, t2, and t1, t3, t4 once known; HOPS_GM; whether the parent port has
retrained, changed width or left UP meanwhile (R308). -/
structure Exch where
  seq : Nat
  gm : Nat
  t2 : Nat
  t1 : Option Nat
  t3 : Option Nat
  t4 : Option Nat
  hops : Nat
  disturbed : Bool
  deriving DecidableEq, Repr

/-- A time domain beyond its FTM_DOM block: exchanges in progress, exchanges accepted in a row within 20 ns (R309), whether OFFSET has been
updated since the tracker started, SEQID of the next
SYNC, and the transmit stamp of the last SYNC by port. -/
structure TimeDom where
  exch : List Exch
  good : Nat
  updated : Bool
  outSeq : Nat
  txStamp : List (Nat × Nat)
  deriving DecidableEq, Repr

/-- A compensator coefficient set (R268): 16-bit codes, SHIFT and FORM. -/
structure Coefs where
  b0 : Nat
  b1 : Nat
  b2 : Nat
  b3 : Nat
  a1 : Nat
  a2 : Nat
  a3 : Nat
  shift : Nat
  form : Nat
  deriving DecidableEq, Repr

/-- A loop (R267 to R283): the fields of its LPE_LOOP record, the active set where it differs from the default, whether APPLY waits for
the next sample, the histories x and v in units of 2^-15, the counters of R272 and R273, the code saved by a shutter and a shutter
request that waits (R274: `some true` close), and whether its own tone was missing in the last scored cycle (R278). -/
structure Loop where
  st : Nat
  code : Nat
  setpoint : Nat
  pol : Option Nat
  shadow : Option Coefs
  active : Option Coefs
  apply : Bool
  wrong : Bool
  headroom : Bool
  err : Int
  pilot : Nat
  acqCode : Nat
  reacq : Nat
  x : List Int
  v : List Int
  overRun : Nat
  satRun : Nat
  lockRun : Nat
  slew : Nat
  saved : Option Nat
  shutter : Option Nat
  toneLow : Bool
  /-- Locked by an acquisition whose verification cycle is not complete (R275). -/
  verify : Bool
  deriving DecidableEq, Repr

/-- A loop after a package reset. -/
def Loop.reset : Loop where
  st := 0
  code := 0
  setpoint := 0
  pol := none
  shadow := none
  active := none
  apply := false
  wrong := false
  headroom := false
  err := 0
  pilot := 0
  acqCode := 0
  reacq := 0
  x := []
  v := []
  overRun := 0
  satRun := 0
  lockRun := 0
  slew := 0
  saved := none
  shutter := none
  toneLow := false
  verify := false

/-- A takeover in progress or done by a bank's spare (R262, R265): the laser replaced, whether planned by LAS_CMD (1 SWAP_TO_SPARE,
2 RETURN), and the FabricTime of its start and of the incoming laser's LIT. -/
structure Takeover where
  laser : Nat
  planned : Nat
  start : Nat
  litAt : Option Nat
  deriving DecidableEq, Repr

/-- A value of the configuration store (R396): the newest record of an entry for one OD_VERSION. -/
structure CfgRec where
  area : Nat
  index : Nat
  ver : Nat
  value : Nat
  deriving DecidableEq, Repr

/-- An image slot (R390, R391): state 0 EMPTY, 1 STAGED, 2 BOOTED, 3 ABANDONED; the fields of its record, and of its header those that a
boot uses. -/
structure ImgSlot where
  state : Nat
  seq : Nat
  length : Nat
  version : Nat
  level : Nat
  odVer : Nat
  migrateFrom : Nat
  deriving DecidableEq, Repr

/-- A staging in progress (R394, R395): its slot and LENGTH, whether through the mailbox, the bytes received so far, and the first 256 of
them. -/
structure FwStaging where
  slot : Nat
  length : Nat
  viaMbx : Bool
  got : Nat
  header : List Byte
  deriving DecidableEq, Repr

/-- Masks of units by kind: bays, pairs, engines, ports, lasers. -/
structure UnitMasks where
  bay : Nat
  pair : Nat
  eng : Nat
  port : Nat
  laser : Nat
  deriving DecidableEq, Repr

/-- A boot ledger record (Table 15.4); `out` 1 for kept out, `failed` 1 for failed, `retry` 1 for try again. SLOT 0 none, 1 A, 2 B.
`failed10`, of those failed, holds the units that failed at step 10 (R386). -/
structure LedgerRec where
  seq : Nat
  cycles : Nat
  attempt : Nat
  mode : Nat
  out : UnitMasks
  slot : Nat
  halt : Nat
  steps : Nat
  failed : UnitMasks
  failed10 : UnitMasks
  retry : UnitMasks
  deriving DecidableEq, Repr

/-- The controller of a cappable domain (R410): steps of 100 MHz below FTARGET, issue or rate steps of 1/16, ticks until the next step
may be made, and ticks 5 % below the cap in a row. -/
structure CapCtl where
  clock : Nat
  issue : Nat
  hold : Nat
  below : Nat
  deriving DecidableEq, Repr

/-- The state of the package. -/
structure State where
  /-- Values of the register fields of PF BAR0 that differ from their reset values; key: address × 64 + lowest bit. -/
  regs : List (Nat × Nat)
  /-- The package's memory: bytes that differ from 0, keyed by home (HBM: stack × 48 GiB + stack address; other windows: local
  address). -/
  mem : List Host.Cell
  /-- 64-byte blocks (home key / 64) that hold an uncorrectable error (R162). -/
  poison : List Nat
  /-- How many free values have been used (MODEL'S OWN). -/
  freeCnt : Nat
  /-- The undefined case of Table 14.1 that the command in hand has triggered, or 0 when it meets a stopped unit (MODEL'S OWN). -/
  trip : Option Nat
  /-- What the last command returned to its requester. -/
  reply : Reply
  /-- Output FabricTime in units of 2^-32 / 390,625 s, so that a hub cycle is a whole number of units. -/
  ftime : Nat
  /-- Latches per requester (R327); key: function number, or 32 + core. -/
  latches : List (Nat × Latch)
  /-- Configuration state per function. -/
  fnCfg : List (Nat × FnCfg)
  /-- SR-IOV: VF Enable and NumVFs. -/
  vfEnable : Bool
  numVfs : Nat
  /-- PCIe link: generation and width, when up (R317). -/
  pcieLink : Option (Nat × Nat)
  /-- MSI-X messages sent to the host (R333), oldest first: function and vector. -/
  msix : List (Nat × Nat)
  /-- AER reports of unsupported requests: function of each (R148, R182). -/
  aer : List Nat
  /-- DRS messages sent (R320). -/
  drs : Nat
  /-- Logbook: records in the writer's buffer, and records in the NVM, oldest first; SEQ of the next record. -/
  logBuf : List LogRec
  logRecs : List LogRec
  logSeq : Nat
  /-- OD values that no register holds: key area × 65,536 + index. -/
  od : List (Nat × Nat)
  can : CanSt
  /-- Harts by core number. -/
  harts : List (Nat × Hart)
  /-- 8-byte words (home key / 8) of bay buffers and core stores that hold an uncorrectable error (Table 6.5). -/
  badWords : List Nat
  /-- Bays whose stacks take part in the HBM interleave of this boot, ascending (R143). -/
  hbmBays : List Nat
  /-- Weight rows and row scales of tiles that are accepted and not complete (Table 14.1 case 4): tile, home key, bytes. -/
  wprot : List (Nat × Nat × Nat)
  /-- The agents' translation caches (R147, R149, R155). -/
  atc : List TlbEnt
  /-- The invalidation in progress, or the last one (R149). -/
  inval : Option InvalArg
  /-- Transactions that wait to leave: to other packages, or to this package's own agent (R153). -/
  fabricOut : List RoutedXact
  /-- Requests of harts that a compute reset discarded (R364): core, sequence or request number, destination package. -/
  stale : List (Nat × Nat × Nat)
  /-- TIME64 of the DONE of the last compute reset (R364). -/
  doneAt : Nat
  /-- The peg block command in progress (R172): command, first block, count, tenant. -/
  blkCmd : Option (Nat × Nat × Nat × Nat)
  /-- Up-arrivals held unanswered, oldest first (R178). -/
  upHeld : List UpArrival
  /-- Up-arrivals that this package sent and that are not answered, oldest first (R178, R179). -/
  upSent : List UpSent
  /-- Timed releases that wait for their instant: link entry and the phase to release (R180). -/
  timedWait : List (Nat × Nat)
  /-- Engines by number. -/
  engs : List (Nat × Eng)
  /-- Fallback queues by bay (R138), oldest first. -/
  fbq : List (Nat × List Tile)
  /-- Number of the next tile (MODEL'S OWN). -/
  tileNo : Nat
  /-- Work queues; key tenant × 256 + queue. -/
  queues : List (Nat × WorkQ)
  /-- Request number of the next remote SIGNAL of the dispatchers. -/
  dispSeq : Nat
  /-- Calibration points in force that differ from the factory's (R294 to R299); key (engine × 5 + point) × 2^17 + field. -/
  calPts : List (Nat × Int)
  /-- Valid calibration points of each engine as a mask; unlisted: all five (R296). -/
  calMask : List (Nat × Nat)
  /-- Other calibration values in force that differ from the factory's: laser offsets, port tables, element entries (Table 11.7). -/
  calSmall : List (Nat × Int)
  /-- The calibration store in NVM: the same three tables as stored (R294, R300). -/
  nvmPts : List (Nat × Int)
  nvmMask : List (Nat × Nat)
  nvmSmall : List (Nat × Int)
  /-- COUNT, LAST and TCAL stored with the table of each unit calibrated since manufacture (R295, R301). -/
  nvmInfo : List (Nat × Nat × Nat × Nat)
  /-- Scribe: requests that wait, in queue order, and the one that is DRAINING or RUNNING (R288). -/
  scbQueue : List ScbReq
  scbRun : Option ScbReq
  /-- Ports by number. -/
  ports : List (Nat × PortSt)
  /-- Frames in transit that wait to leave: the port they arrived on, the credits of its buffer that they hold, and the frame. -/
  transit : List (Nat × Nat × Frame)
  /-- Bytes of the frames and beacons put on fibres, oldest first: port and bytes. -/
  wire : List (Nat × List Byte)
  /-- Gangs from which a port has been removed and has not drained (R215): gang, its ports for selection, ports not yet drained. -/
  gangDrain : List (Nat × Nat × List Nat)
  /-- Link die pairs marked out, as a mask (R360). -/
  pairsOut : Nat
  /-- The map of SLC_PLAN when PLANNED, ARMED or ACTIVATING. -/
  slcPlan : Option SlcPlan
  /-- A forward step of FabricTime has crossed the activation instant of the armed map (R314). -/
  actDue : Bool
  /-- Outputs whose mux rings are shuttered for an activation or failover: port × 16 + line. -/
  shuttered : List Nat
  /-- Ports that are issued RETRAIN after relight (R245). -/
  relight : List Nat
  /-- Time domains by number. -/
  doms : List (Nat × TimeDom)
  /-- The output left the primary because it was not LOCKED, and has not returned (R311). -/
  awayPrimary : Bool
  /-- FabricTime cycles since package reset, and that count when HOLDOVER began. -/
  cycles : Nat
  holdFrom : Nat
  /-- PPS_IN edges in a row within 20 ns of a whole second (R312), and PPS_OUT pulses sent. -/
  ppsGood : Nat
  ppsOut : Nat
  /-- Loops by ring identifier, as they differ from what boot acquired (`ringInit`) or from reset. -/
  loops : List (Nat × Loop)
  /-- Consumers whose rings boot step 7 acquired (port p: p; engine e: 32 + e), with the acquisition's number. -/
  ringInit : List (Nat × Nat)
  /-- Acquisitions of whole consumers so far (MODEL'S OWN). -/
  ringAcq : Nat
  /-- Consumers whose unlisted rings hold because their feed went dark (R272). -/
  ringHeld : List Nat
  /-- Feeds of lasers that are coming up again after their bank's power was off: laser and feed. -/
  lasTarget : List (Nat × Nat)
  /-- Takeovers by bank. -/
  takeovers : List (Nat × Takeover)
  /-- Slots left of the extra verification cycle of VERIFY_LASER. -/
  verifyLeft : Nat
  /-- Failed acquisitions in a row, by ring identifier. -/
  ringFails : List (Nat × Nat)
  /-- Dies whose management sequencer has stopped: entries of HUB_DIE_HB, and 24 + e for the driver die of engine e (R359, R127). 99 is the
  NOR flash. -/
  deadDies : List Nat
  /-- LINK_REFCLK is present (R35); PERST# is asserted; the 48 V input is up; THERMTRIP# is asserted (R415). -/
  refclk : Bool
  perst : Bool
  powered : Bool
  tripped : Bool
  /-- The package is off since a brown-out, which the next power-on counts (R413). -/
  brownOut : Bool
  /-- Image slots A and B. -/
  slotA : ImgSlot
  slotB : ImgSlot
  fw : Option FwStaging
  /-- Slot that BOOT_SLOT names for the next boot (R392). -/
  bootFirst : Option Nat
  /-- Boot ledger, newest first. -/
  ledger : List LedgerRec
  /-- Mounts failed in a row (R385). -/
  mountFails : Nat
  /-- Configuration store. -/
  cfgStore : List CfgRec
  /-- Sectors whose erase has an INTENT entry in the journal (R383). -/
  intents : List Nat
  /-- Crash summaries: bytes of the 16 slots by slot × 256 KiB + offset, where they are not 0. -/
  sumNvm : List (Nat × Byte)
  /-- A captured summary that waits to be written: its slot and bytes (R374). -/
  sumWait : Option (Nat × List (Nat × Byte))
  /-- HUB_DUMP's SEQ, BAYS and SUMSLOT over package resets (R381). -/
  dumpSeq : Nat
  dumpBays : Nat
  dumpSlot : Nat
  /-- A package reset has been triggered and its state is being captured (R368). -/
  presetBusy : Bool
  /-- A boot that waits for LINK_REFCLK at step 5 (R35), with what its later steps will find. -/
  bootWait : Option BootEnv
  /-- Cap controllers by domain, once one has stepped. -/
  caps : List (Nat × CapCtl)
  /-- Commands that wait, first in, first out. -/
  pending : List Instr
  deriving DecidableEq, Repr

/-- The package right after a package reset (R15: every register at its reset value), before boot step 1. -/
def State.reset : State where
  regs := []
  mem := []
  poison := []
  freeCnt := 0
  trip := none
  reply := .none
  ftime := 0
  latches := []
  fnCfg := []
  vfEnable := false
  numVfs := 0
  pcieLink := none
  msix := []
  aer := []
  drs := 0
  logBuf := []
  logRecs := []
  logSeq := 0
  od := []
  can := { strap := 0, txq := [], txn := none, dup := [], good := [] }
  harts := []
  badWords := []
  hbmBays := []
  wprot := []
  atc := []
  inval := none
  fabricOut := []
  stale := []
  doneAt := 0
  blkCmd := none
  upHeld := []
  upSent := []
  timedWait := []
  engs := []
  fbq := []
  tileNo := 0
  queues := []
  dispSeq := 0
  calPts := []
  calMask := []
  calSmall := []
  nvmPts := []
  nvmMask := []
  nvmSmall := []
  nvmInfo := []
  scbQueue := []
  scbRun := none
  pairsOut := 0
  ports := []
  transit := []
  wire := []
  gangDrain := []
  slcPlan := none
  actDue := false
  shuttered := []
  relight := []
  doms := []
  awayPrimary := false
  cycles := 0
  holdFrom := 0
  ppsGood := 0
  ppsOut := 0
  loops := []
  ringInit := []
  ringAcq := 0
  ringHeld := []
  lasTarget := []
  takeovers := []
  verifyLeft := 0
  ringFails := []
  deadDies := []
  refclk := true
  perst := false
  powered := true
  tripped := false
  brownOut := false
  slotA := { state := 2, seq := 1, length := 0, version := 0, level := 1, odVer := 256, migrateFrom := 0 }
  slotB := { state := 0, seq := 0, length := 0, version := 0, level := 0, odVer := 0, migrateFrom := 0 }
  fw := none
  bootFirst := none
  ledger := []
  mountFails := 0
  cfgStore := []
  intents := []
  sumNvm := []
  sumWait := none
  dumpSeq := 0
  dumpBays := 0
  dumpSlot := 0
  presetBusy := false
  bootWait := none
  caps := []
  pending := []

end Sys2Proof.Machine
end

