-- ==== Sys2Proof/Machine/Ops.lean ====
section
/-!
DEFINITION. The named operations over the state: register fields, free values, memory bytes by home, time, alerts, MSI-X,
CAN frames, the Logbook, work permits, and the command registers of R16.
-/

namespace Sys2Proof.Machine

/-- Outcome of a command. -/
abbrev Out := Host.Outcome State Fault Refusal

/-! ## Register fields -/

/-- Value of a field. -/
def State.get (s : State) (f : Fld) : Nat := tget f.reset s.regs (fkey f) % 2 ^ f.width

/-- Field `f` at `v`, cut to the field's width. -/
def State.set (s : State) (f : Fld) (v : Nat) : State :=
  { s with regs := tset f.reset (fkey f) (v % 2 ^ f.width) s.regs }

/-- A one-bit field as a flag. -/
def State.bit (s : State) (f : Fld) : Bool := s.get f != 0

/-- Field `f` at a flag's value. -/
def State.setBit (s : State) (f : Fld) (b : Bool) : State := s.set f (if b then 1 else 0)

/-- A wrapping counter (2^width values) advanced by `n`. -/
def State.incWrap (s : State) (f : Fld) (n : Nat := 1) : State := s.set f (s.get f + n)

/-- A saturating counter advanced by `n`. -/
def State.incSat (s : State) (f : Fld) (n : Nat := 1) : State := s.set f (min (s.get f + n) (2 ^ f.width - 1))

/-- Every field of a list at its reset value. -/
def State.resetFlds (s : State) (fs : List Fld) : State := fs.foldl (fun t f => t.set f f.reset) s

/-- The state with every register field at an address of `[lo, hi)` at its reset value. -/
def State.resetRegs (s : State) (lo hi : Nat) : State :=
  { s with regs := s.regs.filter fun p => !(decide (lo * 64 ≤ p.1) && decide (p.1 < hi * 64)) }

/-! ## Bits of a number -/

/-- Bit `i` of `n`. -/
def nbit (n i : Nat) : Bool := n / 2 ^ i % 2 == 1

/-- Field of `w` bits of `n` at `lo`. -/
def nfld (n lo w : Nat) : Nat := n / 2 ^ lo % 2 ^ w

/-- `n` with bit `i` set or cleared. -/
def nput (n i : Nat) (b : Bool) : Nat :=
  if nbit n i = b then n else if b then n + 2 ^ i else n - 2 ^ i

/-- A list of flags as a number, the first the least significant. -/
def bitsNat : List Bool → Nat
  | [] => 0
  | b :: r => (if b then 1 else 0) + 2 * bitsNat r

/-- The set bits of `n` below `w`, ascending. -/
def bitList (n w : Nat) : List Nat := (List.range w).filter (nbit n ·)

/-- Signed value of a two's-complement number of `w` bits. -/
def toSigned (w n : Nat) : Int := if n % 2 ^ w < 2 ^ (w - 1) then (n % 2 ^ w : Int) else (n % 2 ^ w : Int) - 2 ^ w

/-- Two's-complement bits of a signed number in `w` bits. -/
def ofSigned (w : Nat) (v : Int) : Nat := (v % (2 ^ w : Int)).toNat

/-! ## Free values, undefined cases -/

/-- The next free value and the state that has used it. -/
def State.free (s : State) : Nat × State := (Config.freeNat s.freeCnt, { s with freeCnt := s.freeCnt + 1 })

/-- Undefined case `n` of Table 14.1 is triggered, unless the command waits. -/
def State.undef (s : State) (n : Nat) : State := if s.trip = some 0 then s else { s with trip := some n }

/-- The command in hand meets a unit that a die fault has stopped (R38): it waits, and nothing of it happens. -/
def State.stall (s : State) : State := { s with trip := some 0 }

/-- The outcome of a command that may meet a stopped unit, or trigger an undefined case (R357): a fault if it did the latter. -/
def attempt (f : State → State) (s : State) : Out :=
  let t := f { s with trip := none }
  match t.trip with
  | none => .next t
  | some 0 => .next { s with reply := .none }
  | some n => .fault (.undefinedCase n)

/-- The state with a reply to the requester. -/
def State.answer (s : State) (r : Reply) : State := { s with reply := r }

/-! ## Memory bytes by home -/

/-- The byte at home key `k`; memory that nothing has written reads 0 (log entry 3). -/
def State.byte (s : State) (k : Nat) : Byte := tget 0 s.mem k

/-- The state with the byte at home key `k` at `b`. -/
def State.setByte (s : State) (k : Nat) (b : Byte) : State := { s with mem := tset 0 k b s.mem }

/-- Canonical form of a memory: addresses rise and no entry is 0. -/
abbrev memWf (m : List Host.Cell) : Bool := tcanon (0 : Byte) m

/-! ## Time -/

/-- Units of `ftime` per 2^-32 s. -/
def unitsPerTick : Nat := 390625

/-- FabricTime as TIME64 (R302): seconds in the upper half, 2^-32 s in the lower. -/
def State.time64 (s : State) : Nat := s.ftime / unitsPerTick % 2 ^ 64

/-- The trace stamp FabricTime[39:8] (R304). -/
def State.trace (s : State) : Nat := s.time64 / 256 % 2 ^ 32

/-- Signed 64-bit difference of two TIME64 values (R303). -/
def timeDiff (a b : Nat) : Int := toSigned 64 (ofSigned 64 ((a : Int) - (b : Int)))

/-! ## Functions of the host port -/

/-- Configuration of a function after a reset of it (PCIe; log entry 6). -/
def fnCfgReset : FnCfg := { d3hot := false, busMaster := false, msixEnable := false, msixFnMask := false }

/-- Configuration of function `f`. -/
def State.cfg (s : State) (f : Nat) : FnCfg := tget fnCfgReset s.fnCfg f

/-- Vector `v` of function `f` fires (R333, R319): masked, it sets its pending bit; otherwise a message is sent, if the
function has MSI-X and Bus Master Enable on. -/
def fireVec (f v : Nat) (s : State) : State :=
  let c := s.cfg f
  if !c.msixEnable || !c.busMaster then s
  else if c.msixFnMask || s.bit (R.MSIX_TABLE_CTL_MASK f v) then
    s.set (R.MSIX_PBA_PENDING f) (nput (s.get (R.MSIX_PBA_PENDING f)) v true)
  else { s with msix := s.msix ++ [(f, v)] }

/-- A vector of function `f` that is pending is sent once nothing masks it (PCIe). -/
def msixFlush (f : Nat) (s : State) : State :=
  let c := s.cfg f
  if !c.msixEnable || !c.busMaster || c.msixFnMask then s
  else (List.range 16).foldl (fun t v =>
    if nbit (t.get (R.MSIX_PBA_PENDING f)) v && !t.bit (R.MSIX_TABLE_CTL_MASK f v) then
      { t.set (R.MSIX_PBA_PENDING f) (nput (t.get (R.MSIX_PBA_PENDING f)) v false) with msix := t.msix ++ [(f, v)] }
    else t) s

/-- An unsupported request is reported through AER by function `f`. -/
def State.aerReport (s : State) (f : Nat) : State := { s with aer := s.aer ++ [f] }

/-! ## Settings and counters of the object dictionary -/

/-- Value of OD entry a.i that no register holds; `d` is its value after manufacture. -/
def State.odGet (s : State) (a i d : Nat) : Nat := tget d s.od (a * 65536 + i)

/-- OD entry a.i at `v`. -/
def State.odSet (s : State) (a i v : Nat) : State := { s with od := tput (a * 65536 + i) v s.od }

/-- OD counter a.i of `w` bits advanced by 1. -/
def State.odInc (s : State) (a i w : Nat) : State := s.odSet a i ((s.odGet a i 0 + 1) % 2 ^ w)

/-! ## CAN transmit queue -/

/-- Bytes `bs` padded with zeros to `n` (R347). -/
def padTo (n : Nat) (bs : List Byte) : List Byte := (bs ++ List.replicate (n - bs.length) 0).take n

/-- Identifier of CAN function `fn` of this node (R345). -/
def State.canIdent (s : State) (fn : Nat) : Nat := fn * 128 + s.get R.HUB_CAN_STAT_NODE

/-- A 64-byte frame of CAN function `fn` joins the transmit queue. OFF and listen-only, the controller takes no frame. -/
def canSend (fn : Nat) (txn : Option Nat) (bs : List Byte) (s : State) : State :=
  let st := s.get R.HUB_CAN_STAT_STATE
  if st = 0 ∨ st = 4 then s
  else { s with can := { s.can with
    txq := s.can.txq ++ [{ ident := s.canIdent fn, data := padTo 64 bs, won := false, txn := txn }] } }

/-! ## Alerts -/

/-- Bit `k` of HUB_ALERT. -/
def alertFld (k : Nat) : Fld := ⟨0x300, k, 1, 0, .w1c⟩

/-- HUB_ALERT as a word. -/
def State.alertWord (s : State) : Nat := bitsNat ((List.range 12).map fun k => s.bit (alertFld k))

/-- ALERT# (R334): asserted while an enabled alert bit is set. -/
def State.alertPin (s : State) : Bool := (s.alertWord &&& s.get R.HUB_ALERT_EN_EN) != 0

/-- Alert bit `k` is set. Newly set and enabled, it fires vector 1 of PF0 (R333) and sends an EMCY frame (R334, R349). -/
def setAlert (k : Nat) (s : State) : State :=
  if s.bit (alertFld k) then s
  else
    let t := s.setBit (alertFld k) true
    if nbit (s.get R.HUB_ALERT_EN_EN) k then
      canSend 1 none (leBytes 4 t.alertWord ++ leBytes 4 (2 ^ k) ++ leBytes 4 t.trace) (fireVec 0 1 t)
    else t

/-- Setting alert bit `k` sends an EMCY frame. -/
def State.emcyDue (s : State) (k : Nat) : Bool :=
  !s.bit (alertFld k) && nbit (s.get R.HUB_ALERT_EN_EN) k && !(s.get R.HUB_CAN_STAT_STATE == 0 || s.get R.HUB_CAN_STAT_STATE == 4)

/-- Numbers of the HUB_ALERT bits. -/
def alertThermWarn : Nat := 0
def alertLaser : Nat := 1
def alertEngineOut : Nat := 2
def alertPortOut : Nat := 3
def alertHeadgate : Nat := 4
def alertLogFull : Nat := 5
def alertDupNode : Nat := 6
def alertNvm : Nat := 7
def alertTime : Nat := 8
def alertPcieDegraded : Nat := 9
def alertCalReject : Nat := 10
def alertBootSkip : Nat := 11

/-! ## Logbook -/

/-- Records the Logbook holds (Table 15.1). -/
def logCapacity : Nat := 131072

/-- The Logbook stops recording (R400) with a cause: 0 capacity, 1 NVM. -/
def logFull (cause : Nat) (s : State) : State :=
  setAlert alertLogFull ((s.set R.LOG_STAT_FULL 1).set R.LOG_STAT_CAUSE cause)

/-- A record arrives at the Logbook writer (R400): buffered with the next SEQ, or dropped and counted when the buffer holds
256 records or recording has stopped. During a clear, records wait in the buffer. -/
def logAccept (sev src code flags : Nat) (payload : List Byte) (s : State) : State :=
  if s.logBuf.length ≥ 256 ∨ (s.get R.LOG_STAT_FULL = 1 ∧ s.get R.LOG_STAT_CLEARING = 0) then
    s.incSat R.LOG_DROPPED_COUNT
  else
    let r : LogRec := { seq := s.logSeq, operS := s.odGet 3 1 0, pcycle := s.odGet 3 0 0 % 2 ^ 24, severity := sev,
                        source := src, code := code, flags := flags, payload := padTo 40 payload }
    let t := { s with logBuf := s.logBuf ++ [r], logSeq := s.logSeq + 1 }
    let t := t.set R.LOG_STAT_PENDING t.logBuf.length
    if t.logSeq = logCapacity ∧ t.get R.LOG_STAT_CLEARING = 0 then logFull 0 t else t

/-- An event of the package is logged: its payload bytes 0 to 7 are the FabricTime of the event (R399). `emcy`: it is also sent as EMCY. The
spec states no severity of an event: it is a free value of the five. -/
def logFlagged (emcy : Bool) (subsystem unit code : Nat) (bytes : List Byte) (s : State) : State :=
  let (v, s) := s.free
  logAccept (1 + v % 5) (subsystem + 256 * unit) code (s.get R.FTM_STAT_SYNCED + if emcy then 2 else 0) (leBytes 8 s.time64 ++ bytes) s

/-- An event that sets no alert is logged. -/
def logEvent (subsystem unit code : Nat) (bytes : List Byte) (s : State) : State := logFlagged false subsystem unit code bytes s

/-- An event is logged and sets alert bit `k`. -/
def logAlert (k subsystem unit code : Nat) (bytes : List Byte) (s : State) : State :=
  setAlert k (logFlagged (s.emcyDue k) subsystem unit code bytes s)

/-- The 64 bytes of a record (Table 15.7). -/
def logBytes (r : LogRec) : List Byte :=
  let b := leBytes 4 r.seq ++ leBytes 4 r.operS ++ leBytes 3 r.pcycle ++ leBytes 1 r.severity ++ leBytes 2 r.source ++
    leBytes 2 r.code ++ leBytes 1 r.flags ++ leBytes 3 0 ++ padTo 40 r.payload
  b ++ leBytes 4 (crc32c b)

/-! ## Work permits (R352 to R354) -/

/-- Holder code of a path and an operation (R352). -/
def holder (path op : Nat) : Nat := path * 256 + op

/-- The lowest-numbered resource of `rs` that is held, with its holder (R353). `rs` ascends. -/
def firstHeld (s : State) : List Nat → Option (Nat × Nat)
  | [] => none
  | r :: rest =>
    let h := s.get (R.HUB_PERMIT_HOLDER r)
    if h ≠ 0 then some (r, h) else firstHeld s rest

/-- Every resource of `rs` held by `h`. -/
def grant (h : Nat) (rs : List Nat) (s : State) : State := rs.foldl (fun t r => t.set (R.HUB_PERMIT_HOLDER r) h) s

/-- Every resource whose holder satisfies `p` is freed. -/
def releasePermits (p : Nat → Bool) (s : State) : State :=
  (List.range 80).foldl (fun t r =>
    let h := s.get (R.HUB_PERMIT_HOLDER r)
    if h != 0 && p h then t.set (R.HUB_PERMIT_HOLDER r) 0 else t) s

/-- The resources of `rs` are freed. -/
def freePermits (rs : List Nat) (s : State) : State := grant 0 rs s

/-- Resource numbers (Table 13.13). -/
def permPort (p : Nat) : Nat := p
def permEng (e : Nat) : Nat := 32 + e
def permLaser (j : Nat) : Nat := 48 + j
def permPlane (m : Nat) : Nat := 58 + m
def permHeadgates : Nat := 74
def permSlots : Nat := 75
def permLogbook : Nat := 76
def permConfig : Nat := 77

/-! ## Command registers (R16, R17) -/

/-- A command register: its status and IGNORED fields, the status codes that mean a command is in progress, and the code of
REFUSED where the register defines one. -/
structure CmdReg where
  status : Fld
  ignored : Fld
  busy : List Nat
  refused : Option Nat

/-- A command of the register is in progress. -/
def State.cmdBusy (s : State) (c : CmdReg) : Bool := c.busy.contains (s.get c.status)

/-- A write to a CMD field (R16): while a command is in progress it is ignored and counted; otherwise it starts `eff`. -/
def cmdWrite (c : CmdReg) (eff : State → State) (s : State) : State :=
  if s.cmdBusy c then s.incSat c.ignored else eff s

/-- A reserved value written to a CMD field (R17): nothing starts; STATUS reads REFUSED where that code exists. -/
def cmdReserved (c : CmdReg) : State → State :=
  cmdWrite c fun s => match c.refused with
    | some code => s.set c.status code
    | none => s

end Sys2Proof.Machine
end

