-- ==== Sys2Proof/Machine/Access.lean ====
section
/-!
DEFINITION. Who may reach a register of PF BAR0 and when (R318, R320, R331, R364, R388): the gate that every register access
and every command given by a register write passes first.
-/

namespace Sys2Proof.Machine

/-- A memory request to function `f` is decoded: with the link up (R320), not in D3hot (R318), and a VF only while VF Enable covers it. -/
def State.decodes (s : State) (f : Nat) : Bool :=
  s.pcieLink.isSome && !(s.cfg f).d3hot && (f == 0 || (s.vfEnable && decide (f ≤ s.numVfs)))

/-- The boot step that releases the die of a BAR0 block (R320, Tables 16.3 and 13.4; log entry 7). -/
def releaseStep (a : Nat) : Nat :=
  if a < 0x400000 then 0                          -- hub block
  else if a < 0x401000 then 10                    -- PMX_
  else if a < 0x403000 then 4                     -- DSP_ package registers
  else if a < 0x500000 then 10                    -- DSP_Q
  else if a < 0x500400 then 4                     -- MEM_ in the hub
  else if a < 0x700000 then 10                    -- MEM_ECC, MEM_HXCNT, PEG_
  else if a < 0x704000 then 6                     -- LNK_ ports
  else if a < 0x900000 then 4                     -- LNK_ package registers, SLC_, HDG_, LAS_, LPE_, SCB_
  else if a < 0x1000000 then 0                    -- FTM_, LOG_, PWR_
  else 4                                          -- LPE_LOOP

/-- The registers whose fields come from a compute die (R364; R128, R140, R165, R193, R194; log entry 7). -/
def computeSourced (a : Nat) : Bool :=
  (decide (0x400000 ≤ a ∧ a < 0x401000) && a % 0x100 != 0) || decide (0x401030 ≤ a ∧ a < 0x401050) ||
  (decide (0x420000 ≤ a ∧ a < 0x460000) && decide (0x14 ≤ a % 0x40)) || decide (0x500400 ≤ a ∧ a < 0x502000) ||
  decide (0x600000 ≤ a ∧ a < 0x600400) || decide (0x610000 ≤ a ∧ a < 0x650000)

/-- A compute reset is in progress: triggered and not DONE (R364). -/
def State.computeResetting (s : State) : Bool :=
  s.get R.HUB_RESET_STAT_KIND == 1 && (let p := s.get R.HUB_RESET_STAT_PHASE; 1 ≤ p && p ≤ 3)

/-- A package reset is in progress: requests get no answer (R160, R379). -/
def State.packageResetting (s : State) : Bool :=
  s.get R.HUB_RESET_STAT_KIND == 2 && (let p := s.get R.HUB_RESET_STAT_PHASE; decide (1 ≤ p ∧ p ≤ 3))

/-- A reset of either kind is in progress: dispatchers, engines and harts are stopped (R362, R368). -/
def State.resetting (s : State) : Bool := s.computeResetting || s.packageResetting

/-- Bay `n` has stopped: its compute die or its SRAM die has failed (R38, Table 1.8). `deadDies` lists a failed SRAM die n as 110 + n. -/
def State.bayDead (s : State) (n : Nat) : Bool := s.deadDies.contains n || s.deadDies.contains (110 + n)

/-- The dispatcher slice, the engines and the fallback path of bay `n` run: the package has power, no reset stops them, and the bay has not
stopped. -/
def State.bayRuns (s : State) (n : Nat) : Bool := s.powered && !s.tripped && !s.resetting && !s.bayDead n

/-- An event of bay `n`'s dispatcher slice or engines: it does not happen while they are stopped. -/
def inBay (n : Nat) (f : State → State) (s : State) : State := if s.bayRuns n then f s else s

/-- The hub die and the control die as `deadDies` lists them. -/
def dieControl : Nat := 16
def dieHub : Nat := 17
def dieNor : Nat := 99

/-- Registers of the control die: SLC_, HDG_, LAS_, LPE_, SCB_ and the loop records (Table 13.4). -/
def controlSourced (a : Nat) : Bool := (decide (0x800000 ≤ a) && decide (a < 0x900000)) || decide (0x1000000 ≤ a)

/-- The registers a halted package serves (R388): boot status and mailboxes. -/
def servedHalted (a : Nat) : Bool := (0x100 ≤ a && a < 0x200) || (0x1000 ≤ a && a < 0x1300)

/-- The boot has reached step `n`. -/
def State.bootReached (s : State) (n : Nat) : Bool := decide (n ≤ s.get R.HUB_BOOT_STEP)

/-- The registers of PF BAR0 that the BAR0 of VF `f` shows (Table 13.5): the feature words, its own peg watches, mailbox and MSI-X, and, for a
VF that serves a tenant, MEM_APER, the DSP_Q blocks, PEG_TSUM, PEG_TCNT, DSP_DBDROP and MEM_RCNT of that tenant. Registers that each function
has for itself stand at function × 2^28. -/
def vfReaches (f a : Nat) : Bool :=
  let tenant := f < 16
  (0x10 ≤ a && a < 0x20) || (a / 0x10000000 == f && 1 ≤ f) ||
  (tenant && ((0x500200 + 8 * f ≤ a && a < 0x500208 + 8 * f) || (0x420000 + 0x4000 * f ≤ a && a < 0x424000 + 0x4000 * f) ||
    a == 0x600500 + 4 * f || a == 0x600540 + 4 * f || a == 0x402040 + 4 * f || (0x500300 + 0x10 * f ≤ a && a < 0x500310 + 0x10 * f)))

/-- The registers that a host reaches before the level is written (R331): the hub block, the VF mailbox and the feature words. -/
def preLevelOk (f a : Nat) : Bool :=
  let b := a % 0x10000000
  if f = 0 then b < 0x10000 else b == 0 || (0x10 ≤ b && b < 0x20) || (0x1000 ≤ b && b < 0x1300)

/-- What stands in the way of an access to the register at PF address `a`. -/
inductive GateResult where
  /-- The access is performed. -/
  | pass
  /-- The function does not decode its BARs: nothing happens. -/
  | notDecoded
  /-- Dropped and counted in HUB_LEVEL_STAT.PRE_LEVEL (R331). -/
  | preLevel
  /-- Reads 0; a write is dropped and counted in HUB_ACCESS_STAT.UNMAPPED (R320, R364, R388). -/
  | unreleased
  deriving DecidableEq, Repr

/-- The gate of an access by requester `r` to PF address `a`. Device firmware is not gated by the level (R331). -/
def regGate (r : Requester) (a : Nat) (s : State) : GateResult :=
  let host := match r with
    | .fn f => if !s.decodes f.val then some GateResult.notDecoded
               else if !s.bit R.HUB_LEVEL_STAT_WRITTEN && !preLevelOk f.val a then some .preLevel
               else if f.val ≠ 0 && !vfReaches f.val a then some .unreleased else none
    | .hart _ => none
  match host with
  | some g => g
  | none =>
    let a := a % 0x10000000
    if s.deadDies.contains dieHub || (controlSourced a && s.deadDies.contains dieControl) then .notDecoded
    else if controlSourced a && !s.refclk then .unreleased
    else if s.get R.HUB_BOOT_STATE == 2 && !servedHalted a then .unreleased
    else if s.get R.HUB_BOOT_STATE != 1 && !s.bootReached (releaseStep a) then .unreleased
    else if s.computeResetting && computeSourced a then .unreleased
    else .pass

/-- A write of requester `r` to the register at PF address `a`, with effect `eff` where the gate lets it pass. -/
def gated (r : Requester) (a : Nat) (eff : State → State) (s : State) : State :=
  match regGate r a s with
  | .pass => eff s
  | .notDecoded => s
  | .preLevel => s.incSat R.HUB_LEVEL_STAT_PRE_LEVEL
  | .unreleased => s.incSat R.HUB_ACCESS_STAT_UNMAPPED

end Sys2Proof.Machine
end

