-- ==== Sys2Proof/Machine/Memory.lean ====
section
/-!
DEFINITION. The local physical address map (R142, Table 6.1), the HBM interleave (R143), reads and writes of memory at its
home with poison (R162), and Sv48 translation for harts (R49) and for the agents that act for a tenant (R147).
-/

namespace Sys2Proof.Machine

/-- One GiB. -/
def gib : Nat := 2 ^ 30

/-- Bay n is in service this boot (R40). -/
def State.bayIn (s : State) (n : Nat) : Bool := nbit (s.get R.HUB_BAY_MAP_BAY_IN_SERVICE) n

/-- Where a local physical address lies (Table 6.1). -/
inductive Place where
  /-- Memory, at a home key. -/
  | mem (key : Nat)
  /-- Device control space, at a PF BAR0 offset. -/
  | device (off : Nat)
  /-- Unmapped. -/
  | unmapped
  deriving DecidableEq, Repr

/-- Stack and stack address of local HBM address `a` (R143), with `bays` in service and `b` GiB of each stack bay-local. -/
def hbmHome (bays : List Nat) (b : Nat) (a : Nat) : Nat × Nat :=
  let k := bays.length
  let i := k * (48 - b) * gib
  if a < i then
    let g := a / 4096
    (bays.getD (g % k) 0, g / k * 4096 + a % 4096)
  else
    let j := (a - i) / (b * gib)
    (bays.getD j 0, (48 - b) * gib + (a - i) % (b * gib))

/-- Home key of an HBM location: stack × 48 GiB + stack address. -/
def hbmKey (p : Nat × Nat) : Nat := p.1 * (48 * gib) + p.2

/-- Place of local physical address `a` (R142). -/
def State.place (s : State) (a : Nat) : Place :=
  if a < s.hbmBays.length * (48 * gib) then .mem (hbmKey (hbmHome s.hbmBays (s.get R.MEM_HBMCFG_BL_GIB) a))
  else if 0x8000000000 ≤ a ∧ a < 0x8040000000 then
    if s.bayIn ((a - 0x8000000000) / 0x8000000) then .mem a else .unmapped
  else if 0x9000000000 ≤ a ∧ a < 0x9040000000 then
    if s.bayIn ((a - 0x9000000000) / 0x8000000) then .mem a else .unmapped
  else if 0xF000000000 ≤ a ∧ a < 0xF010000000 then .device (a - 0xF000000000)
  else .unmapped

/-- A home key is in HBM. -/
def inHbm (k : Nat) : Bool := decide (k < 8 * (48 * gib))

/-- A home key is in a core store. -/
def inCoreStore (k : Nat) : Bool := decide (0x9000000000 ≤ k)

/-- Memory at home key `k` has stopped (R38, Table 1.8): a bay buffer or core store of a stopped bay; a stack whose own die or compute
die has failed; and every interleaved range while any such die of the interleave has failed. -/
def State.memStopped (s : State) (k : Nat) : Bool :=
  let dead (n : Nat) : Bool := s.deadDies.contains n || s.deadDies.contains (100 + n)
  if inHbm k then
    dead (k / (48 * gib)) || (decide (k % (48 * gib) < (48 - s.get R.MEM_HBMCFG_BL_GIB) * gib) && s.hbmBays.any dead)
  else s.bayDead (k % 0x1000000000 / 0x8000000)

/-- An access to home key `k` waits while the memory there has stopped. -/
def atHome (k : Nat) (s : State) : State := if s.memStopped k then s.stall else s

/-- Index in MEM_ECC of a home key: stack n, bay buffer 8 + n, core stores of a bay 16 + n. -/
def eccIndex (k : Nat) : Nat :=
  if inHbm k then k / (48 * gib) else if inCoreStore k then 16 + (k - 0x9000000000) / 0x8000000
  else 8 + (k - 0x8000000000) / 0x8000000

/-- The numbers from `a` to `a + n - 1` divided by `d`, without repeats. -/
def spanOf (d a n : Nat) : List Nat := if n = 0 then [] else (List.range ((a + n - 1) / d - a / d + 1)).map (· + a / d)

/-- The bytes at `k` to `k + n - 1` hold an uncorrectable error (R161, R162). -/
def State.hasError (s : State) (k n : Nat) : Bool :=
  (spanOf 64 k n).any (s.poison.contains ·) || (spanOf 8 k n).any (s.badWords.contains ·)

/-- The `n` bytes from home key `k`. -/
def State.bytesAt (s : State) (k n : Nat) : List Byte := (List.range n).map fun i => s.byte (k + i)

/-- Local physical address of home key `k`: the inverse of R143 for HBM. -/
def State.homeAddr (s : State) (k : Nat) : Nat :=
  if inHbm k then
    let b := s.get R.MEM_HBMCFG_BL_GIB
    let n := s.hbmBays.length
    let j := s.hbmBays.idxOf (k / (48 * gib))
    let a := k % (48 * gib)
    if a < (48 - b) * gib then (a / 4096 * n + j) * 4096 + a % 4096 else n * (48 - b) * gib + j * (b * gib) + (a - (48 - b) * gib)
  else k

/-- An uncorrectable error at home key `k` is met: counted in MEM_ECC and logged (R161). -/
def eccError (k : Nat) (s : State) : State :=
  logEvent 3 (eccIndex k) 0x0100 (leBytes 1 (eccIndex k) ++ leBytes 8 (s.homeAddr k)) (s.incWrap (R.MEM_ECC_UE (eccIndex k)))

/-- Bytes `bs` stored from home key `k` on. -/
def putBytes : Nat → List Byte → State → State
  | _, [], s => s
  | k, b :: r, s => putBytes (k + 1) r (s.setByte k b)

/-- A store to home meets the weight rows or row scales of an accepted tile (R115; Table 14.1 case 4). -/
def State.hitsWeights (s : State) (k n : Nat) : Bool :=
  s.wprot.any fun (_, a, m) => decide (k < a + m) && decide (a < k + n)

/-- A write of `n` bytes at `k` takes the reservation of LR on a block that it touches (R46). -/
def dropResv (k n : Nat) (h : Hart) : Hart :=
  match h.resv with
  | none => h
  | some b => if b * 64 < k + n ∧ k < b * 64 + 64 then { h with resv := none } else h

/-- A write performed at its home: a full write of 64 bytes clears a poison mark (R162), one of 8 bytes an error in a word of
a bay buffer or core store. -/
def writeHome (k : Nat) (bs : List Byte) (s : State) : State :=
  let n := bs.length
  let t := putBytes k bs s
  let full (d : Nat) (b : Nat) : Bool := decide (k ≤ d * b) && decide (d * b + d ≤ k + n)
  let t := { t with
    poison := t.poison.filter fun b => !full 64 b
    badWords := t.badWords.filter fun b => !full 8 b
    harts := t.harts.map fun (c, h) => (c, dropResv k n h) }
  atHome k (if s.hitsWeights k n then t.undef 4 else t)

/-! ## Page tables -/

/-- A page-table entry found by a walk: its value and its level (0 for 4 KiB). -/
structure Leaf where
  pte : Nat
  level : Nat
  deriving DecidableEq, Repr

/-- What a walk answers. -/
inductive WalkResult where
  | leaf (l : Leaf)
  /-- No valid translation. -/
  | invalid
  /-- A page table lies outside memory. -/
  | unmapped
  /-- A page-table entry has an uncorrectable error. -/
  | error (key : Nat)
  /-- A page table lies in memory that has stopped. -/
  | stopped
  deriving DecidableEq, Repr

/-- The Sv48 walk from the table at page `ppn` for virtual address `va`; `lvl` counts down from 4 (next level + 1). Walks read
memory at its home (R147). -/
def walk (s : State) (va : Nat) : Nat → Nat → WalkResult
  | 0, _ => .invalid
  | lvl + 1, ppn =>
    let pa := ppn * 4096 + nfld va (12 + 9 * lvl) 9 * 8
    match s.place pa with
    | .mem k =>
      if s.memStopped k then .stopped
      else if s.hasError k 8 then .error k
      else
        let pte := leNat (s.bytesAt k 8)
        let v := nbit pte 0
        let r := nbit pte 1
        let w := nbit pte 2
        let x := nbit pte 3
        if !v || (!r && w) || nfld pte 54 7 != 0 || nfld pte 61 2 == 3 || nbit pte 63 then .invalid
        else if r || x then
          if nfld pte 10 (9 * lvl) != 0 then .invalid else .leaf { pte := pte, level := lvl }
        else if nfld pte 61 2 != 0 || nbit pte 4 || nbit pte 6 || nbit pte 7 then .invalid
        else walk s va lvl (nfld pte 10 44)
    | _ => .unmapped

/-- Physical address that leaf `l` gives `va`. -/
def leafPa (l : Leaf) (va : Nat) : Nat :=
  nfld l.pte 10 44 * 4096 / 2 ^ (12 + 9 * l.level) * 2 ^ (12 + 9 * l.level) + va % 2 ^ (12 + 9 * l.level)

/-- PBMT bits of a leaf (Svpbmt): 0 PMA, 1 NC, 2 IO. -/
def leafPbmt (l : Leaf) : Nat := nfld l.pte 61 2

/-- A virtual address is canonical for Sv48: bits 63 to 48 equal bit 47. -/
def canonical48 (va : Nat) : Bool := nfld va 48 16 == (if nbit va 47 then 0xFFFF else 0)

/-- A cached translation covers page `vpn` in the address space. -/
def tlbCovers (tenant asid vpn : Nat) (e : TlbEnt) : Bool :=
  e.tenant == tenant && (e.asid == asid || nbit e.pte 5) && vpn / 2 ^ (9 * e.level) == e.vpn / 2 ^ (9 * e.level)

/-! ## Agents that act for a tenant -/

/-- Why an agent's access fails (R152). -/
inductive AgentErr where
  | unmapped | permission | uncorrectable
  deriving DecidableEq, Repr

/-- Code of Table 6.4 for an agent's failure. -/
def AgentErr.code : AgentErr → Nat
  | .unmapped => 1
  | .permission => 2
  | .uncorrectable => 3

/-- The leaf for an agent's access of tenant `t` to `va`, from the agents' caches or by a walk, with the state that caches it
(R147). -/
def agentLeaf (t va : Nat) (s : State) : Except AgentErr Leaf × State :=
  let root := s.get (R.MEM_TSATP_PPN t)
  let asid := s.get (R.MEM_TSATP_ASID t)
  if s.get (R.MEM_TSATP_MODE t) ≠ 9 then (.error .unmapped, s)
  else if (match s.place (root * 4096) with | .mem _ => false | _ => true) then (.error .unmapped, s)
  else if !canonical48 va then (.error .unmapped, s)
  else
    let vpn := nfld va 12 36
    match s.atc.find? (tlbCovers t asid vpn) with
    | some e => (.ok { pte := e.pte, level := e.level }, s)
    | none =>
      match walk s va 4 root with
      | .leaf l => (.ok l, { s with atc := s.atc ++ [{ tenant := t, asid := asid, vpn := vpn, level := l.level, pte := l.pte }] })
      | .invalid => (.error .unmapped, s)
      | .unmapped => (.error .unmapped, s)
      | .error k => (.error .uncorrectable, eccError k s)
      | .stopped => (.error .unmapped, s.stall)

/-- An agent's access of tenant `t` to virtual address `va` with U-mode permissions (R147, R148, R152): the home key, or the
failure. -/
def agentXlate (t va : Nat) (wr : Bool) (s : State) : Except AgentErr Nat × State :=
  match agentLeaf t va s with
  | (.error e, s') => (.error e, s')
  | (.ok l, s') =>
    if !nbit l.pte 4 || !nbit l.pte 6 || !nbit l.pte 1 || (wr && (!nbit l.pte 2 || !nbit l.pte 7)) then (.error .permission, s')
    else match s'.place (leafPa l va) with
      | .mem k => (.ok k, atHome k s')
      | .device _ => (.error .permission, s')
      | .unmapped => (.error .unmapped, s')

/-- Sign extension of a 48-bit address to 64 bits (R76, R152). -/
def sext48 (a : Nat) : Nat := if nbit a 47 then a % 2 ^ 48 + (2 ^ 64 - 2 ^ 48) else a % 2 ^ 48

/-- The pieces of `[va, va + n)` that lie in one 4 KiB page each, ascending: address and length. -/
def pagePieces (va n : Nat) : Nat → List (Nat × Nat)
  | 0 => []
  | fuel + 1 =>
    if n = 0 then [] else
    let m := min n (4096 - va % 4096)
    (va, m) :: pagePieces (va + m) (n - m) fuel

/-- The home keys of a range of tenant `t`, page by page; the first failure ends it. -/
def agentRange (t : Nat) (wr : Bool) : List (Nat × Nat) → State → Except AgentErr (List (Nat × Nat)) × State
  | [], s => (.ok [], s)
  | (va, m) :: r, s =>
    match agentXlate t va wr s with
    | (.error e, s') => (.error e, s')
    | (.ok k, s') =>
      match agentRange t wr r s' with
      | (.error e, s'') => (.error e, s'')
      | (.ok ks, s'') => (.ok ((k, m) :: ks), s'')

/-- The bytes of a range of home pieces, or the key of the first piece with an uncorrectable error. -/
def readPieces (s : State) : List (Nat × Nat) → Except Nat (List Byte)
  | [] => .ok []
  | (k, m) :: r =>
    if s.hasError k m then .error k else
    match readPieces s r with
    | .error e => .error e
    | .ok bs => .ok (s.bytesAt k m ++ bs)

/-- Bytes written to home pieces in ascending order. -/
def writePieces : List (Nat × Nat) → List Byte → State → State
  | [], _, s => s
  | (k, m) :: r, bs, s => writePieces r (bs.drop m) (writeHome k (bs.take m) s)

/-- A read by an agent of tenant `t` of `n` bytes at `va`. -/
def agentRead (t va n : Nat) (s : State) : Except AgentErr (List Byte) × State :=
  match agentRange t false (pagePieces va n (n + 1)) s with
  | (.error e, s') => (.error e, s')
  | (.ok ks, s') =>
    match readPieces s' ks with
    | .ok bs => (.ok bs, s')
    | .error k => (.error .uncorrectable, eccError k s')

/-- A write by an agent of tenant `t` at `va`. -/
def agentWrite (t va : Nat) (bs : List Byte) (s : State) : Except AgentErr Unit × State :=
  match agentRange t true (pagePieces va bs.length (bs.length + 1)) s with
  | (.error e, s') => (.error e, s')
  | (.ok ks, s') => (.ok (), writePieces ks bs s')

end Sys2Proof.Machine
end

