-- ==== Sys2Proof/Machine/Hart.lean ====
section
/-!
DEFINITION. What every hart command uses (spec 02_cores_and_extensions.md): registers, CSRs, taking an exception or an
interrupt and what it saves, translation and permission of a hart's access, the L1D, and the fault queue.
-/

namespace Sys2Proof.Machine

/-- Hart `c`. -/
def State.hart (s : State) (c : Nat) : Hart := tget Hart.reset s.harts c

/-- The state with hart `c` at `h`. -/
def State.putHart (s : State) (c : Nat) (h : Hart) : State := { s with harts := tput c h s.harts }

/-- Core `c` is released: its bay is in service and runs, boot step 10 is over, no reset holds it and LINK_REFCLK is present (R27, R35,
R38, R320, R362). -/
def State.coreOn (s : State) (c : Nat) : Bool :=
  s.bayIn (c / 128) && s.bootReached 10 && s.bayRuns (c / 128) && s.refclk

/-- A hart that executes: released and not waiting. -/
def State.hartRuns (s : State) (c : Nat) : Bool := s.coreOn c && (s.hart c).wait == .none

/-- A hart instruction: a hart in reset or waiting executes nothing (log entry 8). -/
def onHart (c : Nat) (f : State → State) (s : State) : State := if s.hartRuns c then f s else s

/-! ## Registers -/

/-- Integer register `r`; x0 reads 0. -/
def Hart.rx (h : Hart) (r : XReg) : Word := if r = 0 then 0 else tget 0 h.x r.toNat

/-- Integer register `r` at `v`; a write of x0 is discarded. -/
def Hart.wx (h : Hart) (r : XReg) (v : Word) : Hart := if r = 0 then h else { h with x := tset 0 r.toNat v h.x }

/-- Integer register as a number. -/
def Hart.rn (h : Hart) (r : XReg) : Nat := (h.rx r).toNat

/-- CSR `n` as kept in the table; 0 at reset. -/
def Hart.csrVal (h : Hart) (n : Nat) : Nat := (tget 0 h.csr n).toNat

/-- CSR `n` at `v` in the table. -/
def Hart.setCsr (h : Hart) (n v : Nat) : Hart := { h with csr := tset 0 n (BitVec.ofNat 64 v) h.csr }

/-- CSR numbers of the privileged and unprivileged architectures that the model names. -/
def csrMstatus : Nat := 0x300
def csrMedeleg : Nat := 0x302
def csrMideleg : Nat := 0x303
def csrMtvec : Nat := 0x305
def csrMepc : Nat := 0x341
def csrMcause : Nat := 0x342
def csrMtval : Nat := 0x343
def csrStvec : Nat := 0x105
def csrSepc : Nat := 0x141
def csrScause : Nat := 0x142
def csrStval : Nat := 0x143
def csrSatp : Nat := 0x180
def csrFcsr : Nat := 0x003
def csrVstart : Nat := 0x008
def csrVl : Nat := 0xC20
def csrVtype : Nat := 0xC21

/-- A field of mstatus. -/
def Hart.mst (h : Hart) (lo w : Nat) : Nat := nfld (h.csrVal csrMstatus) lo w

/-- A field of mstatus at `v`. -/
def Hart.setMst (h : Hart) (lo w v : Nat) : Hart :=
  let m := h.csrVal csrMstatus
  h.setCsr csrMstatus (m - nfld m lo w * 2 ^ lo + v % 2 ^ w * 2 ^ lo)

/-- The pc moves past a 32-bit instruction. -/
def Hart.retire (h : Hart) : Hart := { h with pc := h.pc + 4 }

/-- Hart `c` retires its instruction with `rd` at `v`. -/
def retireRd (c : Nat) (rd : XReg) (v : Nat) (s : State) : State :=
  s.putHart c ((s.hart c).wx rd (BitVec.ofNat 64 v)).retire

/-- Hart `c` retires its instruction. -/
def retire (c : Nat) (s : State) : State := s.putHart c (s.hart c).retire

/-- A waiting hart's instruction retires with `rd` at `v` and the hart runs again. -/
def wakeRd (c : Nat) (rd : XReg) (v : Nat) (s : State) : State :=
  s.putHart c { ((s.hart c).wx rd (BitVec.ofNat 64 v)).retire with wait := .none }

/-! ## Exceptions and interrupts -/

/-- Number of a privilege mode. -/
def Priv.code : Priv → Nat
  | .u => 0
  | .s => 1
  | .m => 3

/-- The address that a trap goes to: the base of tvec, plus 4 × cause for an interrupt in vectored mode. -/
def trapTarget (tvec : Nat) (interrupt : Bool) (code : Nat) : Nat :=
  let base := tvec / 4 * 4
  if interrupt && tvec % 4 == 1 then base + 4 * code else base

/-- Taking a trap (the privileged architecture that R41 cites): to S mode where delegated (R54) and the hart is not in M mode,
else to M mode. The pc, the cause, the trap value, the interrupt enable and the mode are saved, and the pc goes to the
handler. -/
def Hart.trap (h : Hart) (interrupt : Bool) (code tval : Nat) : Hart :=
  let deleg := h.csrVal (if interrupt then csrMideleg else csrMedeleg)
  let cause := code + if interrupt then 2 ^ 63 else 0
  let h := { h with wait := .none }
  if h.priv != .m && nbit deleg code then
    let sie := h.mst 1 1
    let h' := ((h.setCsr csrSepc h.pc.toNat).setCsr csrScause cause).setCsr csrStval tval
    let h' := ((h'.setMst 5 1 sie).setMst 1 1 0).setMst 8 1 h.priv.code
    { h' with priv := .s, pc := BitVec.ofNat 64 (trapTarget (h.csrVal csrStvec) interrupt code) }
  else
    let mie := h.mst 3 1
    let h' := ((h.setCsr csrMepc h.pc.toNat).setCsr csrMcause cause).setCsr csrMtval tval
    let h' := ((h'.setMst 7 1 mie).setMst 3 1 0).setMst 11 2 h.priv.code
    { h' with priv := .m, pc := BitVec.ofNat 64 (trapTarget (h.csrVal csrMtvec) interrupt code) }

/-- Hart `c` takes exception `code` with trap value `tval`. -/
def except (c code tval : Nat) (s : State) : State := s.putHart c ((s.hart c).trap false code tval)

/-- Hart `c` takes the illegal-instruction exception (cause 2; mtval 0, log entry 9). -/
def illegal (c : Nat) (s : State) : State := except c 2 0 s

/-- Hart `c` takes the peg access fault (R54): mtval is the peg operand. -/
def pegFault (c operand : Nat) (s : State) : State := except c 24 operand s

/-- Hart `c` takes the remote access fault (R54): mtval is the global address, hxcause the reason. -/
def remoteFault (c addr reason : Nat) (s : State) : State :=
  s.putHart c ({ s.hart c with hxcause := reason }.trap false 25 addr)

/-! ## Translation and permission of a hart's access -/

/-- Kinds of access of a hart. -/
inductive AccKind where
  | load | store
  deriving DecidableEq, Repr

/-- Address-misaligned, access-fault and page-fault causes of a kind of access. -/
def AccKind.misaligned : AccKind → Nat
  | .load => 4
  | .store => 6
def AccKind.accessFault : AccKind → Nat
  | .load => 5
  | .store => 7
def AccKind.pageFault : AccKind → Nat
  | .load => 13
  | .store => 15

/-- How an access reaches its data. -/
inductive DataPath where
  /-- Through the L1D (R43), at a home key. -/
  | cached (k : Nat)
  /-- At its home, at a home key. -/
  | home (k : Nat)
  /-- Device control space (R146). -/
  | device (off : Nat)
  deriving DecidableEq, Repr

/-- Mode under which a hart's loads and stores run: MPP while MPRV is set in M mode (R49). -/
def Hart.dataPriv (h : Hart) : Priv :=
  if h.priv == .m && h.mst 17 1 == 1 then
    (if h.mst 11 2 = 3 then .m else if h.mst 11 2 = 1 then .s else .u) else h.priv

/-- A leaf permits the access (R49: Svade, no A or D update). -/
def leafPermits (h : Hart) (k : AccKind) (l : Leaf) : Bool :=
  let p := h.dataPriv
  let user := nbit l.pte 4
  let modeOk := if p == .u then user else !user || h.mst 18 1 == 1
  let rOk := nbit l.pte 1 || (h.mst 19 1 == 1 && nbit l.pte 3)
  modeOk && nbit l.pte 6 && (match k with
    | .load => rOk
    | .store => nbit l.pte 2 && nbit l.pte 7)

/-- The leaf for a hart's access, from its TLB or by a walk that fills the TLB; or the cause of the exception. -/
def hartLeaf (c : Nat) (k : AccKind) (va : Nat) (s : State) : Except Nat Leaf × State :=
  let h := s.hart c
  let satp := h.csrVal csrSatp
  let asid := nfld satp 44 16
  let vpn := nfld va 12 36
  if !canonical48 va then (.error k.pageFault, s)
  else match h.tlb.find? (fun e => tlbCovers e.tenant asid vpn e) with
    | some e => (.ok { pte := e.pte, level := e.level }, s)
    | none =>
      match walk s va 4 (nfld satp 0 44) with
      | .leaf l => (.ok l, s.putHart c { h with tlb := h.tlb ++ [{ tenant := h.tenant, asid := asid, vpn := vpn, level := l.level, pte := l.pte }] })
      | .invalid => (.error k.pageFault, s)
      | .unmapped => (.error k.accessFault, s)
      | .error e => (.error 19, eccError e s)
      | .stopped => (.error k.accessFault, s.stall)

/-- A hart's access of `n` bytes at `va`, aligned to `n`: how it reaches its data, or the cause of its exception (R47, R49,
R142, R146). -/
def hartResolve (c : Nat) (k : AccKind) (va n : Nat) (s : State) : Except Nat DataPath × State :=
  let h := s.hart c
  if va % n ≠ 0 then (.error k.misaligned, s)
  else
    let place (pa pbmt : Nat) (s' : State) : Except Nat DataPath × State :=
      if 2 ^ 48 ≤ pa then (.error k.accessFault, s')
      else match s'.place pa with
        | .mem key => 
          let cached := pbmt = 0 && !inCoreStore key
          (.ok (if cached then .cached key else .home key), if cached && h.l1d.any (·.block == key / 64) then s' else atHome key s')
        | .device off => if h.dataPriv == .m then (.ok (.device off), s') else (.error k.accessFault, s')
        | .unmapped => (.error k.accessFault, s')
    if h.dataPriv == .m || nfld (h.csrVal csrSatp) 60 4 ≠ 9 then place va 0 s
    else match hartLeaf c k va s with
      | (.error e, s') => (.error e, s')
      | (.ok l, s') =>
        if leafPermits h k l then place (leafPa l va) (leafPbmt l) s' else (.error k.pageFault, s')

/-! ## The L1D (R42 to R46) -/

/-- The line of block `b` in hart `c`'s L1D. -/
def l1dFind (h : Hart) (b : Nat) : Option CacheLine := h.l1d.find? fun l => l.block == b

/-- Hart `c`'s line of block `b` leaves the L1D, written back first if dirty. -/
def l1dEvict (c b : Nat) (s : State) : State :=
  let h := s.hart c
  let t := s.putHart c { h with l1d := h.l1d.filter fun l => l.block != b }
  match l1dFind h b with
  | some l => if l.dirty then writeHome (b * 64) l.data t else t
  | none => t

/-- A line joins hart `c`'s L1D. With all 8 ways of its set in use, one of them leaves: which one is a free value. -/
def l1dFill (c : Nat) (l : CacheLine) (s : State) : State :=
  let set := (s.hart c).l1d.filter fun m => m.block % 128 == l.block % 128
  let s' := if set.length < 8 then s else
    let (v, s') := s.free
    l1dEvict c ((set.map CacheLine.block).getD (v % set.length) 0) s'
  s'.putHart c { s'.hart c with l1d := (s'.hart c).l1d ++ [l] }

/-- The line that holds home key `k`, brought into the L1D on a miss; `none` if it has an uncorrectable error. -/
def l1dLine (c k : Nat) (s : State) : Option CacheLine × State :=
  match l1dFind (s.hart c) (k / 64) with
  | some l => (some l, s)
  | none =>
    if s.hasError (k / 64 * 64) 64 then (none, eccError (k / 64 * 64) s)
    else
      let l : CacheLine := { block := k / 64, data := s.bytesAt (k / 64 * 64) 64, dirty := false }
      (some l, l1dFill c l s)

/-- Bytes `bs` laid over `data` from offset `i`. -/
def overlay (data : List Byte) (i : Nat) (bs : List Byte) : List Byte := data.take i ++ bs ++ data.drop (i + bs.length)

/-- A load of `n` bytes within one 64-byte block along its path; `none` at an uncorrectable error. Device control space is not
memory and has its own reads. -/
def dataRead (c : Nat) (p : DataPath) (n : Nat) (s : State) : Option (List Byte) × State :=
  match p with
  | .cached k =>
    match l1dLine c k s with
    | (some l, s') => (some ((l.data.drop (k % 64)).take n), s')
    | (none, s') => (none, s')
  | .home k => if s.hasError k n then (none, eccError k s) else (some (s.bytesAt k n), s)
  | .device _ => (some (List.replicate n 0), s)

/-- A store of bytes within one 64-byte block along its path: into the write-allocated line (R43) or at home; `false` at an
uncorrectable error of the line fetched. -/
def dataWrite (c : Nat) (p : DataPath) (bs : List Byte) (s : State) : Bool × State :=
  match p with
  | .cached k =>
    match l1dLine c k s with
    | (some l, s') =>
      let h := s'.hart c
      let l' : CacheLine := { l with data := overlay l.data (k % 64) bs, dirty := true }
      (true, s'.putHart c { h with l1d := h.l1d.map fun m => if m.block == l.block then l' else m })
    | (none, s') => (false, s')
  | .home k => (true, writeHome k bs s)
  | .device _ => (true, s)

/-- Every dirty line of hart `c` is written back; the lines stay, clean (R45, R68). -/
def l1dWriteBack (c : Nat) (s : State) : State :=
  let h := s.hart c
  let t := h.l1d.foldl (fun t l => if l.dirty then writeHome (l.block * 64) l.data t else t) s
  t.putHart c { h with l1d := h.l1d.map fun l => { l with dirty := false } }

/-- Every clean line of hart `c` is invalidated (R45, R69). -/
def l1dInvalidate (c : Nat) (s : State) : State :=
  let h := s.hart c
  s.putHart c { h with l1d := h.l1d.filter fun l => l.dirty }

/-! ## The fault queue (R53, R156, R157) -/

/-- Number of records the fault queue holds. -/
def Hart.fqLen (h : Hart) : Nat := 2 ^ (min h.fqSize 5 + 7)

/-- A record is discarded and counted; DROPPED saturates. -/
def Hart.fqDrop (h : Hart) : Hart := { h with fqDropped := min (h.fqDropped + 1) 0xFFFF }

/-- Fields of a fault-queue record (Table 6.4) but for STAMP and CORE. -/
structure FqRec where
  kind : Nat
  reason : Nat
  tenant : Nat
  afterLost : Bool
  isPartial : Bool
  seq : Nat
  addr : Nat
  operand : Nat
  detail : Nat

/-- The 32 bytes of a record of core `c` written at trace stamp `stamp`. -/
def fqBytes (c stamp : Nat) (r : FqRec) : List Byte :=
  leBytes 8 (r.kind + 2 ^ 8 * r.reason + 2 ^ 16 * r.tenant + (if r.afterLost then 2 ^ 20 else 0) +
    (if r.isPartial then 2 ^ 21 else 0) + 2 ^ 32 * (r.seq % 2 ^ 32)) ++
  leBytes 8 r.addr ++ leBytes 8 (r.operand % 2 ^ 24 + 2 ^ 32 * stamp) ++ leBytes 8 (c + 2 ^ 32 * (r.detail % 2 ^ 32))

/-- Hart `c` writes a record to its fault queue, or discards and counts it (R53, R157). -/
def fqWrite (c : Nat) (r : FqRec) (s : State) : State :=
  let h := s.hart c
  if !h.fqEn then s.putHart c h.fqDrop
  else if (h.fqTail + 1) % h.fqLen = h.fqHead then s.putHart c h.fqDrop
  else
    let a := h.fqBase * 4096 + h.fqTail * 32
    let bad (s : State) : State :=
      logEvent 1 0xFF 0x0101 (leBytes 2 c ++ leBytes 8 a) (s.putHart c { h.fqDrop with fqEn := false })
    match s.place a with
    | .mem k =>
      if inHbm k && s.poison.contains (k / 64) then bad s
      else (writeHome k (fqBytes c s.trace r) s).putHart c { h with fqTail := (h.fqTail + 1) % h.fqLen }
    | _ => bad s

/-- Interrupt 16 is pending (R54). -/
def Hart.fqPending (h : Hart) : Bool := h.fqEn && h.fqHead != h.fqTail

end Sys2Proof.Machine
end

