-- ==== Sys2Proof/Machine/Fabric.lean ====
section
/-!
DEFINITION. Sending requests and answers into the fabric (R76, R203, R215 to R217): routes, FLOW values, transactions, and the
posted requests of harts with their tracker (R67, R77, R79).
-/

namespace Sys2Proof.Machine

/-- This package's identifier, the bits used at level 1 (R221). -/
def State.pkg (s : State) : Nat := s.get R.LNK_GLOBAL_PKG % 65536

/-- Port p is UP (Table 8.1). -/
def State.portUp (s : State) (p : Nat) : Bool := s.get (R.LNK_STAT_STATE p) == 4

/-- Ports of gang `g` for port selection: while a removed port drains, the set before its removal (R215). -/
def State.gangPorts (s : State) (g : Nat) : Nat :=
  match s.gangDrain.find? fun x => x.1 == g with
  | some (_, ports, _) => ports
  | none => s.get (R.LNK_GANG_PORTS g)

/-- The usable ports for destination package `d`, ascending (R215, R216). -/
def State.usablePorts (s : State) (d : Nat) : List Nat :=
  if !s.bit (R.LNK_DTAB_VALID d) then []
  else
    let ports := s.gangPorts (s.get (R.LNK_DTAB_GANG d))
    (bitList ports 32).filter fun p =>
      s.portUp p && (!s.bit (R.LNK_DTAB_EXPRESS d) || s.get (R.LNK_PEER_PKG p) == d)

/-- Package `d` can be reached: it is this package (R153), or it has a usable port. -/
def State.hasRoute (s : State) (d : Nat) : Bool := d == s.pkg || !(s.usablePorts d).isEmpty

/-- The port that FLOW selects for destination `d` (R217). -/
def State.selectPort (s : State) (d flow : Nat) : Option Nat :=
  let ps := s.usablePorts d
  ps[flow % ps.length]?

/-- FLOW value of a request (R217). -/
def flowOf (addr core dst : Nat) : Nat :=
  nfld addr 6 16 ^^^ nfld addr 22 16 ^^^ nfld addr 38 10 ^^^ core % 1024 ^^^ dst % 65536

/-- Class of an operation code (Table 8.4). -/
def opClass (op : Nat) : Nat := op / 16

/-- A transaction joins those that wait to leave. -/
def sendXact (dst flow : Nat) (x : Xact) (s : State) : State :=
  { s with fabricOut := s.fabricOut ++ [{ cls := opClass x.op.toNat, dst := dst, src := s.pkg, flow := flow, x := x }] }

/-- A transaction from its parts. -/
def mkXact (op attr size core ftag iseq addr : Nat) (data : List Byte) : Xact :=
  { op := BitVec.ofNat 8 op
    body := { attr := BitVec.ofNat 5 attr, size := BitVec.ofNat 9 size, core := BitVec.ofNat 10 core,
              ftag := BitVec.ofNat 16 ftag, iseq := BitVec.ofNat 32 iseq, addr := BitVec.ofNat 48 addr, data := data } }

/-- A request of core `c` for tenant `t`: sent to package `dst` with the tenant's fabric tag (R151). -/
def sendRequest (c t dst op attr size iseq addr : Nat) (data : List Byte) (s : State) : State :=
  sendXact dst (flowOf addr c dst) (mkXact op attr size c (s.get (R.MEM_FTAG_TAG t)) iseq addr data) s

/-- The answer to request `x` of package `src`: it carries the request's FLOW (R217), CORE, FTAG, ISEQ and ADDR (log entry 12). -/
def sendAnswer (env : Envelope) (x : XBody) (op attr : Nat) (data : List Byte) (s : State) : State :=
  sendXact env.src.toNat env.flow.toNat
    { op := BitVec.ofNat 8 op
      body := { x with attr := BitVec.ofNat 5 attr, size := BitVec.ofNat 9 data.length, data := data } } s

/-- The pieces of a request with more than 256 bytes (R203): offset and bytes of each. -/
def xactPieces (off : Nat) (bs : List Byte) : Nat → List (Nat × List Byte)
  | 0 => []
  | fuel + 1 => if bs.isEmpty then [] else (off, bs.take 256) :: xactPieces (off + 256) (bs.drop 256) fuel

/-- Operation code of a posted request. -/
def PostKind.op : PostKind → Nat
  | .write => 1
  | .pegAdd => 4
  | .pegSub => 5

/-- Destination package of a posted request: address bits [63:48], or the PKG field of a peg operand (Table 2.11). -/
def Posted.dst (p : Posted) : Nat :=
  match p.kind with
  | .write => nfld p.addr 48 16
  | _ => nfld p.addr 32 16

/-- ADDR field of a posted request: address bits [47:0], or PEG and GEN of a peg operand (Table 8.4). -/
def Posted.xaddr (p : Posted) : Nat :=
  match p.kind with
  | .write => p.addr % 2 ^ 48
  | _ => p.addr % 2 ^ 28

/-- The posted request leaves (R77): it takes the next sequence number, which rd receives, and a tracker entry, and its
transactions are sent. -/
def postIssue (c : Nat) (p : Posted) (s : State) : State :=
  let h := s.hart c
  let pieces := xactPieces 0 p.data (p.data.length + 1)
  let e : TrackEnt :=
    { seq := h.hxseq, tenant := h.tenant, kind := p.kind, addr := p.addr, operand := p.operand, elem := p.elem,
      left := pieces.length, parts := pieces.map fun (o, b) => (p.xaddr + o, b.length), done := 0, reason := none,
      reported := false }
  let s := pieces.foldl (fun t (o, b) =>
    let attr := if p.kind == .write && o + b.length < p.data.length then 1 else 0
    sendRequest c h.tenant p.dst p.kind.op attr b.length h.hxseq (p.xaddr + o) b t) s
  s.putHart c { (h.wx p.rd (BitVec.ofNat 64 h.hxseq)).retire with
    hxseq := (h.hxseq + 1) % 2 ^ 32, track := h.track ++ [e], wait := .none }

/-- A hart issues a posted request: without a route it takes a remote access fault NO_ROUTE (R76, R216); with all 256 tracker
entries in use it stalls before issue (R77). -/
def post (c : Nat) (p : Posted) (s : State) : State :=
  let h := s.hart c
  if !s.hasRoute p.dst then s.putHart c ({ h with hxcause := 5, wait := .none }.trap false 25 p.addr)
  else if h.track.length ≥ 256 then s.putHart c { h with wait := .tracker p }
  else postIssue c p s

/-- A hart sends a blocking request (R77): the next request number is taken. -/
def Hart.nextReq (h : Hart) : Hart := { h with reqno := (h.reqno + 1) % 2 ^ 32 }

end Sys2Proof.Machine
end

