-- ==== Sys2Proof/Machine/Pegs.lean ====
section
/-!
DEFINITION. The peg bank (spec 07_pegs_raisings_queues.md, R166 to R180): operations on a peg at its home slice, the waits
registered on it, raisings with their links, and block commands; and the HS instructions that reach them (R63 to R71).
-/

namespace Sys2Proof.Machine

/-- Largest peg value (R64). -/
def pegMax : Nat := 16777215

/-- Value of peg `p`. -/
def State.peg (s : State) (p : Nat) : Nat := s.get (R.PEG_VAL_VALUE p)

/-- Tenant `t` may operate on peg `p` (R171, R29): its block is valid, owned by `t`, in a slice in service. -/
def pegOwned (s : State) (t p : Nat) : Bool :=
  let b := p / 256
  p < 65536 && s.bit (R.PEG_BLK_VALID b) && s.get (R.PEG_BLK_OWNER b) == t && s.bayIn (p / 8192)

/-- Summary flags of PEG_TSUM. -/
def tsumFld (k t : Nat) : Fld := ⟨0x600500 + 4 * t, k, 1, 0, .w1c⟩

/-- Summary flag `k` of tenant `t` is set (R169); newly set, vector 1 of the tenant's VF fires (Table 13.6). -/
def setTsum (k t : Nat) (s : State) : State :=
  if s.bit (tsumFld k t) then s
  else
    let u := s.setBit (tsumFld k t) true
    if t = 0 then u else fireVec t 1 u

/-! ## Waits registered on a peg (R168) -/

/-- The peg watches whose condition holds at peg `p` fire (R335): FIRED set, EN cleared, vector 2 + w. -/
def fireWatches (p : Nat) (s : State) : State :=
  (List.range 17).foldl (fun t f => (List.range 8).foldl (fun t w =>
    if t.bit (R.HUB_PWATCH_EN f w) && t.get (R.HUB_PWATCH_PEG f w) % 65536 == p && t.get (R.HUB_PWATCH_THRESH f w) ≤ t.peg p then
      fireVec f (2 + w) ((t.setBit (R.HUB_PWATCH_FIRED f w) true).setBit (R.HUB_PWATCH_EN f w) false)
    else t) t) s

/-- Cores whose PEG.WAITGE (or PEG.TAKE) on peg `p` is registered and satisfied by value `v`. -/
def satisfied (s : State) (take : Bool) (p v : Nat) : List Nat :=
  (s.harts.filter fun (_, h) => match h.wait with
    | .peg tk op n _ => tk == take && op % 65536 == p && decide (n ≤ v)
    | _ => false).map Prod.fst

/-- The value a satisfied wait returns goes to its register, and the hart runs again. -/
def answerWait (c v : Nat) (s : State) : State :=
  match (s.hart c).wait with
  | .peg _ _ _ rd => wakeRd c rd v s
  | _ => s

/-- Amount that hart `c` waits to take. -/
def takeAmount (s : State) (c : Nat) : Nat :=
  match (s.hart c).wait with
  | .peg _ _ n _ => n
  | _ => 0

/-- The satisfied PEG.TAKE waits on peg `p` take one at a time while the value covers one of them (R168). Which of several
comes first is a free value (R65). -/
def serveTakes (p : Nat) : Nat → State → State
  | 0, s => s
  | fuel + 1, s =>
    match satisfied s true p (s.peg p) with
    | [] => s
    | c :: rest =>
      let (i, s) := if rest.isEmpty then (0, s) else s.free
      let c := (c :: rest).getD (i % (rest.length + 1)) c
      let v := s.peg p
      let s := s.set (R.PEG_VAL_VALUE p) (v - takeAmount s c)
      serveTakes p fuel (answerWait c v s)

/-- Harts waiting in a RAISE whose sense peg `q` no longer shows the phase of their arrival are released (R177). -/
def releaseRaisers (q : Nat) (s : State) : State :=
  (s.harts.filter fun (_, h) => match h.wait with
    | .raise op ph _ => op % 65536 + 1 == q && s.peg q % 2 != ph
    | _ => false).foldl (fun t (c, h) => match h.wait with
      | .raise _ ph rd =>
        let u := wakeRd c rd ph t
        u.putHart c { u.hart c with raiseArrived := false }
      | _ => t) s

/-- Up-arrivals held for the raising of sense peg `q` whose phase is released are answered (R178). -/
def answerUps (q : Nat) (s : State) : State :=
  let go (u : UpArrival) : Bool := u.cpeg + 1 == q && s.peg q % 2 != u.phase
  let t := { s with upHeld := s.upHeld.filter fun u => !go u }
  (s.upHeld.filter go).foldl (fun t u =>
    sendAnswer { src := BitVec.ofNat 20 u.src, flow := BitVec.ofNat 16 u.flow } u.x 0x16 0 [] t) t

/-- After an operation that changes peg `p`, its slice re-evaluates every wait registered on it (R168). -/
def pegChanged (p : Nat) (s : State) : State :=
  let v := s.peg p
  let s := fireWatches p s
  let s := (satisfied s false p v).foldl (fun t c => answerWait c v t) s
  let s := serveTakes p s.harts.length s
  answerUps p (releaseRaisers p s)

/-! ## Operations at the home slice (R64) -/

/-- Owner of the block of peg `p`. -/
def pegOwner (s : State) (p : Nat) : Nat := s.get (R.PEG_BLK_OWNER (p / 256))

/-- PEG.ADD of `n` at the home slice: saturating, with OVF and its summary and count (R64, R169). -/
def pegAddHome (p n : Nat) (s : State) : State :=
  if n = 0 then s
  else if s.peg p + n > pegMax then
    let t := pegOwner s p
    pegChanged p (setTsum 0 t (((s.set (R.PEG_VAL_VALUE p) pegMax).setBit (R.PEG_VAL_OVF p) true).incSat (R.PEG_TCNT_OVF_EVENTS t)))
  else pegChanged p (s.set (R.PEG_VAL_VALUE p) (s.peg p + n))

/-- PEG.SUB of `n` at the home slice: clamped at 0, with UNF and its summary and count (R64, R169). -/
def pegSubHome (p n : Nat) (s : State) : State :=
  if n = 0 then s
  else if n > s.peg p then
    let t := pegOwner s p
    pegChanged p (setTsum 1 t (((s.set (R.PEG_VAL_VALUE p) 0).setBit (R.PEG_VAL_UNF p) true).incSat (R.PEG_TCNT_UNF_EVENTS t)))
  else pegChanged p (s.set (R.PEG_VAL_VALUE p) (s.peg p - n))

/-- A completion signal of tenant `t` to peg `p` (R170, R174): dropped and counted when the tenant no longer owns the block. A
poisoned peg takes no signal (R162). -/
def signalPeg (t p : Nat) (s : State) : State :=
  if !pegOwned s t p then s.incSat (R.PEG_TCNT_CPEG_DROP t)
  else if s.bit (R.PEG_VAL_POISON p) || s.bayDead (p / 8192) then s
  else pegAddHome p 1 s

/-! ## Raisings (R176 to R180) -/

/-- The valid link entry whose LOCAL is count peg `c`: the lowest such entry. -/
def linkOf (s : State) (c : Nat) : Option Nat :=
  (List.range 256).find? fun k => s.bit (R.PEG_RLINK_VALID k) && s.get (R.PEG_RLINK_LOCAL k) == c

/-- STATE of link entry `k` when it is not in FAULT: UP while an up-arrival of it is unanswered (R178). -/
def State.linkState (s : State) (k : Nat) : Nat := if s.upSent.any (fun u => u.entry == k) then 1 else 0

/-- The raising of count peg `c` releases phase `ph`: the sense peg's bit 0 flips; a link entry counts the release and its TIMED
returns to 0. -/
def raiseRelease (c ph : Nat) (link : Option Nat) (s : State) : State :=
  let s := match link with
    | some k => ((s.incWrap (R.PEG_RLINK_RELEASES k)).setBit (R.PEG_RLINK_TIMED k) false).set (R.PEG_RLINK_STATE k) (s.linkState k)
    | none => s
  let v := s.peg (c + 1)
  pegChanged (c + 1) (s.set (R.PEG_VAL_VALUE (c + 1)) (v / 2 * 2 + (1 - ph)))

/-- The up-arrival of link entry `k` is sent to its parent (R178). Its ISEQ is the entry's number (log entry 12). Without a
route nothing leaves, and the entry stays UP (R179). What was sent is kept: a later write of the entry is for the next arrival. -/
def sendUp (k : Nat) (s : State) : State :=
  let t := pegOwner s (s.get (R.PEG_RLINK_LOCAL k))
  let dst := s.get (R.PEG_RLINK_PARENT_PKG k)
  let addr := s.get (R.PEG_RLINK_PARENT_PEG k) + 2 ^ 20 * s.get (R.PEG_RLINK_PARENT_GEN k)
  let u : UpSent := ⟨k, s.get (R.PEG_RLINK_LOCAL k), dst, s.get (R.PEG_RLINK_PARENT_PEG k)⟩
  let s := { s.set (R.PEG_RLINK_STATE k) 1 with upSent := s.upSent.filter (fun v => v != u) ++ [u] }
  if s.hasRoute dst then sendRequest 0 t dst 6 0 2 k addr (leBytes 2 (s.get (R.PEG_RLINK_PARENT_N k))) s else s

/-- The count of the raising at `c` completes in phase `ph`: an up-arrival, a timed release, or a release (R177, R180). -/
def raiseComplete (c ph : Nat) (s : State) : State :=
  match linkOf s c with
  | none => raiseRelease c ph none s
  | some k =>
    if !s.bit (R.PEG_RLINK_ROOT k) then sendUp k s
    else if !s.bit (R.PEG_RLINK_TIMED k) then raiseRelease c ph (some k) s
    else
      let d := timeDiff s.time64 (s.get (R.PEG_RLINK_RELEASE_AT k))
      if d < 0 then { s with timedWait := s.timedWait ++ [(k, ph)] }
      else if d * 1000 < 2 ^ 32 then raiseRelease c ph (some k) (s.setBit (R.PEG_RLINK_LATE k) true)
      else raiseRelease c ph (some k) (s.setBit (R.PEG_RLINK_STALE k) true)

/-- One arrival at the raising of count peg `c` with `n` participants (R177). -/
def arrive (c n : Nat) (s : State) : State :=
  let ph := s.peg (c + 1) % 2
  if s.peg c + 1 < n then pegChanged c (s.set (R.PEG_VAL_VALUE c) (s.peg c + 1))
  else raiseComplete c ph (pegChanged c (s.set (R.PEG_VAL_VALUE c) 0))

/-! ## HS instructions -/

/-- HS instructions are illegal below M mode without hcfg.HS_EN (R55). -/
def hsIllegal (h : Hart) : Bool := h.priv != .m && !h.hsEn

/-- Reserved and level-1 bits of a peg operand are zero (R63, Table 2.11). -/
def pegOperandOk (a : Nat) : Bool := nfld a 16 4 == 0 && nfld a 29 3 == 0 && nfld a 48 16 == 0

/-- REMOTE bit of a peg operand. -/
def pegRemote (a : Nat) : Bool := nbit a 28

/-- The common part of a local peg instruction of hart `c` (R63, R162): checks, then `eff` on the peg. A
peg of a stopped slice does not answer (R38). -/
def pegLocal (c : Nat) (f : RFields) (eff : Nat → Nat → State → State) (s : State) : State :=
  let h := s.hart c
  let a := h.rn f.rs1
  let p := a % 65536
  if !pegOperandOk a || pegRemote a || !pegOwned s h.tenant p then pegFault c a s
  else if s.bayDead (p / 8192) then s.stall
  else if s.bit (R.PEG_VAL_POISON p) then except c 19 a s
  else eff p (h.rn f.rs2 % 2 ^ 24) s

/-- A remote signal (R67): a posted request. -/
def pegPost (c : Nat) (kind : PostKind) (f : RFields) (s : State) : State :=
  let h := s.hart c
  let a := h.rn f.rs1
  let n := h.rn f.rs2 % 2 ^ 24
  if !pegOperandOk a then pegFault c a s
  else post c { kind := kind, addr := a, operand := n, elem := 0, data := leBytes 3 n, rd := f.rd } s

/-- PEG.ADD (R64, R67). -/
def pegAdd (c : Nat) (f : RFields) (s : State) : State :=
  if hsIllegal (s.hart c) then illegal c s
  else if pegRemote ((s.hart c).rn f.rs1) then pegPost c .pegAdd f s
  else pegLocal c f (fun p n s => pegAddHome p n (retireRd c f.rd (s.peg p) s)) s

/-- PEG.SUB (R64, R67, R169): a clamped subtraction writes a PEG_UNDERFLOW record. -/
def pegSub (c : Nat) (f : RFields) (s : State) : State :=
  if hsIllegal (s.hart c) then illegal c s
  else if pegRemote ((s.hart c).rn f.rs1) then pegPost c .pegSub f s
  else pegLocal c f (fun p n s =>
    let h := s.hart c
    let old := s.peg p
    let s := retireRd c f.rd old s
    let s := if n > old then
        fqWrite c { kind := 3, reason := 0, tenant := h.tenant, afterLost := false, isPartial := false, seq := 0,
                    addr := h.rn f.rs1, operand := n, detail := old } s
      else s
    pegSubHome p n s) s

/-- PEG.WAITGE (R64, R66). -/
def pegWaitge (c : Nat) (f : RFields) (s : State) : State :=
  if hsIllegal (s.hart c) then illegal c s
  else pegLocal c f (fun p n s =>
    if n ≤ s.peg p then retireRd c f.rd (s.peg p) s
    else s.putHart c { s.hart c with wait := .peg false ((s.hart c).rn f.rs1) n f.rd }) s

/-- PEG.TAKE (R64, R66). -/
def pegTake (c : Nat) (f : RFields) (s : State) : State :=
  if hsIllegal (s.hart c) then illegal c s
  else pegLocal c f (fun p n s =>
    if n ≤ s.peg p then
      let v := s.peg p
      let s := retireRd c f.rd v s
      if n = 0 then s else pegChanged p (s.set (R.PEG_VAL_VALUE p) (v - n))
    else s.putHart c { s.hart c with wait := .peg true ((s.hart c).rn f.rs1) n f.rd }) s

/-- PEG.READ (R64). -/
def pegRead (c : Nat) (f : RFields) (s : State) : State :=
  if hsIllegal (s.hart c) || f.rs2 != 0 then illegal c s
  else pegLocal c f (fun p _ s => retireRd c f.rd (s.peg p) s) s

/-- RAISE (R71, R176, R177): one arrival, then a wait for the release. Re-executed with hraise.ARRIVED and the same PEG it only
waits. A poisoned count or sense peg raises cause 19 (R162). -/
def raiseInstr (c : Nat) (f : RFields) (s : State) : State :=
  let h := s.hart c
  let a := h.rn f.rs1
  let n := h.rn f.rs2 % 65536
  let p := a % 65536
  if hsIllegal h then illegal c s
  else if !pegOperandOk a || pegRemote a || !pegOwned s h.tenant p || p % 2 = 1 || n = 0 then pegFault c a s
  else if s.bayDead (p / 8192) then s.stall
  else if s.bit (R.PEG_VAL_POISON p) || s.bit (R.PEG_VAL_POISON (p + 1)) then except c 19 a s
  else if h.raiseArrived && h.raisePeg = p then
    if s.peg (p + 1) % 2 != h.raisePhase then
      (retireRd c f.rd h.raisePhase (s.putHart c { h with raiseArrived := false }))
    else s.putHart c { h with wait := .raise a h.raisePhase f.rd }
  else
    let ph := s.peg (p + 1) % 2
    arrive p n (s.putHart c { h with raiseArrived := true, raisePhase := ph, raisePeg := p, wait := .raise a ph f.rd })

/-- TIMED_RELEASE of link entry `k` (R180): its raising waits for RELEASE_AT, and the instant has come. -/
def timedRelease (k : Nat) (s : State) : State :=
  match s.timedWait.find? fun w => w.1 == k with
  | some (_, ph) =>
    if timeDiff s.time64 (s.get (R.PEG_RLINK_RELEASE_AT k)) ≥ 0 then
      raiseRelease (s.get (R.PEG_RLINK_LOCAL k)) ph (some k) { s with timedWait := s.timedWait.filter fun w => w.1 != k }
    else s
  | none => s

/-! ## Block commands (R172, R173) -/

/-- PEG_BLKCMD. -/
def pegBlkCmd : CmdReg := { status := R.PEG_BLKCMD_STATUS, ignored := R.PEG_BLKCMD_IGNORED, busy := [1], refused := some 3 }

/-- Every value and flag of block `b` at 0 (R172). -/
def clearBlock (b : Nat) (s : State) : State := s.resetRegs (0x610000 + 1024 * b) (0x610000 + 1024 * b + 1024)

/-- The effect of block command `cmd` on block `b` (Table 7.3). -/
def blockEffect (cmd t b : Nat) (s : State) : State :=
  let s := (clearBlock b s).incWrap (R.PEG_BLK_GEN b)
  if cmd = 1 then (s.set (R.PEG_BLK_OWNER b) t).setBit (R.PEG_BLK_VALID b) true
  else if cmd = 2 then s.setBit (R.PEG_BLK_VALID b) false
  else s

/-- The condition of block command `cmd` for block `b` (Table 7.3, R29, R172). -/
def blockCond (cmd t b : Nat) (s : State) : Bool :=
  b < 256 && s.bayIn (b / 32) &&
    (if cmd = 1 then !s.bit (R.PEG_BLK_VALID b) else s.bit (R.PEG_BLK_VALID b) && s.get (R.PEG_BLK_OWNER b) == t)

/-- A block command is written (R172): refused whole, or its effect on each block, BUSY until BLOCK_COMMAND_COMPLETE. -/
def blockCommand (cmd : Nat) : State → State :=
  cmdWrite pegBlkCmd fun s =>
    let first := s.get R.PEG_BLKARG_FIRST
    let count := s.get R.PEG_BLKARG_COUNT
    let t := s.get R.PEG_BLKARG_TENANT
    let bs := (List.range count).map (· + first)
    if count = 0 || count > 256 || !bs.all (fun b => blockCond cmd t b s) then s.set R.PEG_BLKCMD_STATUS 3
    else
      let s := bs.foldl (fun s b => blockEffect cmd t b s) s
      { s.set R.PEG_BLKCMD_STATUS 1 with blkCmd := some (cmd, first, count, t) }

/-- The waits of harts on the block of peg `p` are re-checked under the new rules (R173). -/
def recheckHarts (inRange : Nat → Bool) (s : State) : State :=
  s.harts.foldl (fun t (c, h) => match h.wait with
    | .peg _ op _ _ => if inRange (op % 65536) && !pegOwned s h.tenant (op % 65536) then pegFault c op t else t
    | .raise op _ _ => if inRange (op % 65536) && !pegOwned s h.tenant (op % 65536) then pegFault c op t else t
    | _ => t) s

/-- The peg watches on blocks whose tenant lost them end (R335). -/
def recheckWatches (inRange : Nat → Bool) (s : State) : State :=
  (List.range 17).foldl (fun t f => (List.range 8).foldl (fun t w =>
    let p := t.get (R.HUB_PWATCH_PEG f w) % 65536
    if t.bit (R.HUB_PWATCH_EN f w) && inRange p && !pegOwned t f p then
      (t.setBit (R.HUB_PWATCH_EN f w) false).setBit (R.HUB_PWATCH_REVOKED f w) true
    else t) t) s

/-- RELEASE and CLEAR end every up-arrival that a raising of the blocks holds (R173): NACK with PEG_ALLOC. -/
def endUps (inRange : Nat → Bool) (s : State) : State :=
  let t := { s with upHeld := s.upHeld.filter fun u => !inRange u.cpeg }
  (s.upHeld.filter fun u => inRange u.cpeg).foldl (fun t u =>
    sendAnswer { src := BitVec.ofNat 20 u.src, flow := BitVec.ofNat 16 u.flow } u.x 0x13 6 [] t) t

end Sys2Proof.Machine
end

