-- ==== Sys2Proof/Machine/Calib.lean ====
section
/-!
DEFINITION. The calibration store's engine points and other tables (spec 11_scribe_calibration.md, R294 to R299), with
interpolation for temperature (R298). A value that the store does not list differs in nothing from the factory's, which the
spec leaves open (Config.factory).
-/

namespace Sys2Proof.Machine

/-- Field numbers of an engine point (Table 11.8): β, γ per row and combination, seeds per combination, the reference tile. -/
def calBeta (row combo : Nat) : Nat := row * 6 + combo
def calGamma (row combo : Nat) : Nat := 384 + row * 6 + combo
def calSeed (combo : Nat) : Nat := 768 + combo
def calRefWeight (row col : Nat) : Nat := 1000 + row * 64 + col
def calRefScale (row : Nat) : Nat := 5096 + row
/-- Transfer curves: input ring `k`, weight ring `n`, at d = −1, 0, +1 (`j` 0 to 2). -/
def calInCurve (k j : Nat) : Nat := 6000 + k * 3 + j
def calWCurve (n j : Nat) : Nat := 7000 + n * 3 + j
/-- Crosstalk sets: full line, ring × 16 + line; sparse line, ring × 8 + even line. -/
def calFull (ring m : Nat) : Nat := 20000 + ring * 16 + m
def calSparse (ring m : Nat) : Nat := 90000 + ring * 8 + m

/-- Number of fields of a point. -/
def calFields : Nat := 131072

/-- Temperature of point `i` in 1/256 °C: 25, 35, 45, 55, 65 °C. -/
def pointTemp (i : Nat) : Int := (25 + 10 * (i : Int)) * 256

/-- Field `f` of point `i` of engine `e` in the store `pts`. -/
def pointField (pts : List (Nat × Int)) (e i f : Nat) : Int :=
  tget (Config.factory 4 (e * 5 + i) f) pts ((e * 5 + i) * calFields + f)

/-- Valid points of engine `e` in the NVM. -/
def State.calMaskOf (s : State) (e : Nat) : Nat := tget 31 s.calMask e

/-- n / d to nearest with ties to even, d positive. -/
def divRne (n : Int) (d : Int) : Int :=
  let q := n / d
  let r := n % d
  if r * 2 > d ∨ (r * 2 = d ∧ q % 2 = 1) then q + 1 else q

/-- The valid points below or at `t`, nearest first, and those above or at it, nearest first. -/
def pointsBelow (mask : Nat) (t : Int) : List Nat :=
  ((List.range 5).filter fun i => nbit mask i && decide (pointTemp i ≤ t)).reverse
def pointsAbove (mask : Nat) (t : Int) : List Nat :=
  (List.range 5).filter fun i => nbit mask i && decide (t ≤ pointTemp i)

/-- The points that bracket `t` among the valid ones (R298): two points, or an end point twice; `none` with no valid point. -/
def bracket (mask : Nat) (t : Int) : Option (Nat × Nat) :=
  match pointsBelow mask t, pointsAbove mask t with
  | a :: _, b :: _ => some (a, b)
  | a :: _, [] => some (a, a)
  | [], b :: _ => some (b, b)
  | [], [] => none

/-- Field `f` of engine `e` interpolated at temperature `t` (R298). -/
def interpolate (pts : List (Nat × Int)) (mask e : Nat) (t : Int) (f : Nat) : Int :=
  match bracket mask t with
  | none => 0
  | some (a, b) =>
    let fa := pointField pts e a f
    let fb := pointField pts e b f
    if a = b then fa
    else if calRefWeight 0 0 ≤ f ∧ f < calRefScale 64 then
      (if t - pointTemp a ≤ pointTemp b - t then fa else fb)
    else divRne (fa * (pointTemp b - pointTemp a) + (fb - fa) * (t - pointTemp a)) (pointTemp b - pointTemp a)

/-- The calibration set of engine `e` built from the store at temperature `t`. -/
def State.buildSet (s : State) (e : Nat) (t : Int) : CalSet :=
  { pts := s.calPts.filter fun p => p.1 / calFields / 5 == e, mask := s.calMaskOf e, temp256 := t }

/-- Field `f` of a calibration set of engine `e`. -/
def CalSet.field (c : CalSet) (e f : Nat) : Int := interpolate c.pts c.mask e c.temp256 f

/-- Keys of the small tables (Table 11.7): table, unit and field. -/
def smallKey (table unit field : Nat) : Nat := (table * 128 + unit) * 65536 + field

/-- A value of a small table. -/
def State.small (s : State) (table unit field : Nat) : Int :=
  tget (Config.factory table unit field) s.calSmall (smallKey table unit field)

/-- A small table's value set. -/
def State.setSmall (s : State) (table unit field : Nat) (v : Int) : State :=
  { s with calSmall := tput (smallKey table unit field) v s.calSmall }

/-- Tables: 0 laser (field 0 offset in kHz, 1 and 2 the runs, 3 REF power, 4 temperature), 1 port, 2 plane elements (field
element × 4 + 0 CODE_BAR, 1 CODE_CROSS, 2 SLOPE, 3 TREF). -/
def elemField (j k : Nat) : Nat := j * 4 + k

end Sys2Proof.Machine
end

