-- ==== Sys2Proof/Machine/ScbCore.lean ====
section
/-!
DEFINITION. The requests of Scribe (spec 11_scribe_calibration.md, R286 to R291): units, permits, which units can be measured, and
the ends of a request that other parts of the package bring about.
-/

namespace Sys2Proof.Machine

/-- Unit numbers (Table 11.2). -/
def unitPort (p : Nat) : Nat := p
def unitEng (e : Nat) : Nat := 32 + e
def unitLaser (j : Nat) : Nat := 48 + j
def unitPlane (m : Nat) : Nat := 58 + m

/-- Permits that a calibration of unit `u` claims, ascending (Table 11.1). -/
def scbPermits (u : Nat) (s : State) : List Nat :=
  if u < 32 then permPort u :: (List.range 16).map permPlane
  else if u < 48 then [permEng (u - 32)]
  else if u < 58 then
    let f := s.get (R.LAS_STAT_SERVES (u - 48))
    if f = 15 then [permLaser (u - 48)]
    else (List.range 4).map (fun i => permPort (4 * f + i)) ++ [permEng (2 * f), permEng (2 * f + 1), permLaser (u - 48)]
  else [permPlane (u - 58)]

/-- Unit `u` can be measured (R287). A plane without a valid table can, since only a calibration returns it to service (R297). -/
def scbAvail (u : Nat) (s : State) : Bool :=
  if u < 32 then
    let st := s.get (R.LNK_STAT_STATE u)
    st != 5 && st != 0 && s.bit (R.PWR_DOM_EN (15 + u / 8))
  else if u < 48 then s.get (R.PMX_STAT_STATE (u - 32)) != 0 && !nbit (s.get R.HUB_ENG_MAP_ENG_OUT) (u - 32)
  else if u < 58 then let st := s.get (R.LAS_STAT_STATE (u - 48)); st != 4 && st != 0
  else (nbit (s.get R.HUB_PLANE_MAP_PLANE_IN_SERVICE) (u - 58) || s.bit (R.SCB_UNIT_MISSING u)) &&
    (List.range 4).all fun g => s.bit (R.PWR_DOM_EN (15 + g))

/-- Unit states and results of SCB_UNIT. -/
def scbIdle : Nat := 0
def scbQueued : Nat := 1
def scbDraining : Nat := 2
def scbRunning : Nat := 3
def scbOk : Nat := 1
def scbRejected : Nat := 2
def scbDisagree : Nat := 3
def scbTimeout : Nat := 4
def scbAborted : Nat := 5
def scbNoRef : Nat := 6
def scbTempMoved : Nat := 7

/-- State of unit `u`. -/
def State.scbState (s : State) (u : Nat) : Nat := s.get (R.SCB_UNIT_STATE u)

/-- Engines that a calibration of unit `u` interrupts: those whose permits it claims. -/
def ScbReq.engines (r : ScbReq) : List Nat := (r.res.filter fun x => 32 ≤ x && x < 48).map (· - 32)

/-- Sum of PMX_FB_SVC of the engines of a request. -/
def fbSvcSum (r : ScbReq) (s : State) : Nat := (r.engines.map fun e => s.get (R.PMX_FB_SVC_COUNT e)).foldl (· + ·) 0

/-- Tiles that a forced calibration has sent to fallback (R289). -/
def scbTiles (r : ScbReq) (s : State) : Nat :=
  if r.force then ((fbSvcSum r s : Nat) : Int) - r.base |>.toNat else 0

/-- Logbook record of a calibration (Table 15.8): unit, result, check, value, tiles sent to fallback. -/
def scbBytes (r : ScbReq) (result check : Nat) (value : Int) (s : State) : List Byte :=
  leBytes 1 r.unit ++ leBytes 1 result ++ leBytes 1 check ++ leBytes 4 (ofSigned 32 value) ++ leBytes 4 (scbTiles r s)

/-- A calibration is logged. -/
def scbLog (r : ScbReq) (result check : Nat) (value : Int) (s : State) : State :=
  logEvent 11 r.unit 0x0500 (scbBytes r result check value s) s

/-- The engines that a DRAIN calibration held back start their tiles again. -/
def scbUndrain (r : ScbReq) (s : State) : State :=
  r.engines.foldl (fun s e => match s.engs.find? fun x => x.1 == e with
    | some (_, g) => { s with engs := tput e { g with drain := none } s.engs }
    | none => s) s

/-- Request `r` ends with a result: its unit is IDLE, its permits are free, and ABORTED and TIMEOUT are counted (R290, R301). -/
def scbEnd (r : ScbReq) (result check : Nat) (s : State) : State :=
  let s := ((s.set (R.SCB_UNIT_STATE r.unit) scbIdle).set (R.SCB_UNIT_RESULT r.unit) result).set (R.SCB_UNIT_LIMIT r.unit) check
  let s := if result = scbAborted ∨ result = scbTimeout then s.incSat R.SCB_CNT_ABORTS else s
  scbUndrain r (freePermits r.res s)

/-- The waiting requests are `q`. -/
def scbPutQueue (q : List ScbReq) (s : State) : State := { s with scbQueue := q }.set R.SCB_STAT_QDEPTH q.length

/-- No calibration is DRAINING or RUNNING any more. -/
def scbStop (s : State) : State := { s with scbRun := none }.setBit R.SCB_STAT_RUN_VALID false

/-- Requests that are QUEUED or DRAINING for a unit that can no longer be measured end with ABORTED (R287). -/
def scbRecheck (s : State) : State :=
  let gone := s.scbQueue.filter fun r => !scbAvail r.unit s
  let s := if gone.isEmpty then s else
    gone.foldl (fun s r => scbLog r scbAborted 0 0 (scbEnd r scbAborted 0 s)) (scbPutQueue (s.scbQueue.filter fun r => scbAvail r.unit s) s)
  match s.scbRun with
  | none => s
  | some r =>
    if s.scbState r.unit = scbDraining ∧ !scbAvail r.unit s then scbLog r scbAborted 0 0 (scbEnd r scbAborted 0 (scbStop s)) else s

/-- A RUNNING calibration of a unit in `p` ends with ABORTED and keeps every old value (R291). -/
def scbAbortRun (p : Nat → Bool) (s : State) : State :=
  match s.scbRun with
  | none => s
  | some r =>
    if s.scbState r.unit = scbRunning ∧ p r.unit then scbLog r scbAborted 0 0 (scbEnd r scbAborted 0 (scbStop s)) else s

end Sys2Proof.Machine
end

