-- ==== Sys2Proof/Machine/Tiles.lean ====
section
/-!
DEFINITION. Tiles: the descriptor (Table 4.4), its checks (Table 4.5), tickets (R72 to R75), status words of tasks (R188) with
the advance of RETIRE (R185), and the end of a tile, which records its outcome and signals its completion peg once (R74, R116).
-/

namespace Sys2Proof.Machine

/-- Engine `e`. -/
def State.eng (s : State) (e : Nat) : Eng := tget Eng.reset s.engs e

/-- The state with engine `e` at `g`; QDEPTH follows the queue (R128). -/
def State.putEng (s : State) (e : Nat) (g : Eng) : State :=
  { s with engs := tput e g s.engs }.set (R.PMX_STAT_QDEPTH e) g.queue.length

/-- Queue `k` (tenant × 256 + queue). -/
def State.wq (s : State) (k : Nat) : WorkQ := tget { tasks := [], fetching := false, held := none } s.queues k

/-- The state with queue `k` at `q`. -/
def State.putWq (s : State) (k : Nat) (q : WorkQ) : State := { s with queues := tput k q s.queues }

/-- Fallback queue of bay `b`. -/
def State.fallback (s : State) (b : Nat) : List Tile := tget [] s.fbq b

/-- The state with the fallback queue of bay `b` at `ts`; DSP_FBSTAT follows it. -/
def State.putFallback (s : State) (b : Nat) (ts : List Tile) : State :=
  { s with fbq := tput b ts s.fbq }.set (R.DSP_FBSTAT_QDEPTH b) ts.length

/-! ## Descriptor fields -/

/-- Field of `w` bits at bit `lo` of the 8-byte word at offset `off` of a descriptor. -/
def dfld (d : List Byte) (off lo w : Nat) : Nat := nfld (leNat ((d.drop off).take 8)) lo w

def Tile.engine (t : Tile) : Nat := dfld t.desc 0 0 4
def Tile.mode (t : Tile) : Nat := dfld t.desc 0 4 2
def Tile.sparse (t : Tile) : Bool := dfld t.desc 0 6 1 == 1
def Tile.strict (t : Tile) : Bool := dfld t.desc 0 7 1 == 1
def Tile.bf (t : Tile) : Bool := dfld t.desc 0 8 1 == 1
def Tile.fsg (t : Tile) : Nat := dfld t.desc 0 9 3
def Tile.wbits (t : Tile) : Nat := dfld t.desc 0 12 3
def Tile.ceiling (t : Tile) : Nat := dfld t.desc 0 16 16
def Tile.nvec (t : Tile) : Nat := dfld t.desc 8 0 32
def Tile.tag (t : Tile) : Nat := dfld t.desc 8 32 32
def Tile.wAddr (t : Tile) : Nat := dfld t.desc 0x10 0 64
def Tile.wStride (t : Tile) : Nat := dfld t.desc 0x18 0 32
def Tile.rsAddr (t : Tile) : Nat := dfld t.desc 0x20 0 64
def Tile.inAddr (t : Tile) : Nat := dfld t.desc 0x28 0 64
def Tile.inStride (t : Tile) : Nat := dfld t.desc 0x30 0 32
def Tile.isAddr (t : Tile) : Nat := dfld t.desc 0x38 0 64
def Tile.outAddr (t : Tile) : Nat := dfld t.desc 0x40 0 64
def Tile.outStride (t : Tile) : Nat := dfld t.desc 0x48 0 32

/-- Completion peg of a descriptor, tile or DMA: bits [51:32] of its first word. -/
def descCpeg (d : List Byte) : Nat := dfld d 0 32 20

/-- Columns of the mode (R104). -/
def cols (sparse : Bool) : Nat := if sparse then 32 else 64

/-- Input width b of MODE, and O (R92). -/
def inBits (mode : Nat) : Nat := if mode = 0 then 4 else if mode = 1 then 6 else 8
def codeO (mode : Nat) : Nat := 2 ^ (inBits mode - 1) - 1

/-- Q of a weight width (R94). -/
def codeQ (bw : Nat) : Nat := 2 ^ (bw - 1) - 1

/-- Packed length of an input vector in bytes. -/
def packedLen (mode : Nat) (sparse : Bool) : Nat := cols sparse * inBits mode / 8

/-- Combination index i of R132. -/
def combo (mode : Nat) (sparse : Bool) : Nat := mode + if sparse then 3 else 0

/-! ## Areas and their translation -/

/-- Pieces of an area of `n` elements of `len` bytes, `stride` apart. -/
def strided (base stride len n : Nat) : List (Nat × Nat) := (List.range n).map fun i => ((base + i * stride) % 2 ^ 64, len)

/-- Areas of a tile. -/
def Tile.rowArea (t : Tile) : List (Nat × Nat) := strided t.wAddr t.wStride (cols t.sparse) 64
def Tile.scaleArea (t : Tile) : List (Nat × Nat) := [(t.rsAddr, 128)]
def Tile.inArea (t : Tile) : List (Nat × Nat) := strided t.inAddr t.inStride (packedLen t.mode t.sparse) t.nvec
def Tile.isArea (t : Tile) : List (Nat × Nat) := [(t.isAddr, 2 * t.nvec)]
def Tile.outArea (t : Tile) : List (Nat × Nat) := strided t.outAddr t.outStride 128 t.nvec

/-- Virtual pages that an area touches. -/
def areaPages (a : List (Nat × Nat)) : List Nat := (a.flatMap fun p => spanOf 4096 p.1 p.2).eraseDups

/-- Every page of a list translated for tenant `t` (R110): virtual page and physical address of the page, or a failure of check 4. -/
def translatePages (t : Nat) (wr : Bool) : List Nat → State → Option (List (Nat × Nat)) × State
  | [], s => (some [], s)
  | p :: r, s =>
    match agentLeaf t (p * 4096 % 2 ^ 64) s with
    | (.error _, s') => (none, s')
    | (.ok l, s') =>
      if !nbit l.pte 4 || !nbit l.pte 6 || !nbit l.pte 1 || (wr && (!nbit l.pte 2 || !nbit l.pte 7)) then (none, s')
      else match translatePages t wr r s' with
        | (none, s'') => (none, s'')
        | (some m, s'') => (some ((p, leafPa l (p * 4096 % 2 ^ 64)) :: m), s'')

/-- Pages that all lie in memory, with their home keys; `none` where check 5 fails. -/
def localPages (s : State) : List (Nat × Nat) → Option (List (Nat × Nat))
  | [] => some []
  | (p, pa) :: r =>
    match s.place pa, localPages s r with
    | .mem k, some m => some ((p, k) :: m)
    | _, _ => none

/-- Home pieces of `[va, va + n)` under a page map. -/
def homePieces (m : List (Nat × Nat)) (va n : Nat) : List (Nat × Nat) :=
  (pagePieces va n (n + 1)).map fun p => (tget 0 m (p.1 / 4096) + p.1 % 4096, p.2)

/-- Home pieces of an area. -/
def areaPieces (m : List (Nat × Nat)) (a : List (Nat × Nat)) : List (Nat × Nat) := a.flatMap fun p => homePieces m p.1 p.2

/-- Two lists of pieces share a byte. -/
def piecesMeet (a b : List (Nat × Nat)) : Bool := a.any fun p => b.any fun q => decide (p.1 < q.1 + q.2 ∧ q.1 < p.1 + p.2)

/-- The bytes of home pieces, and whether one of them has an uncorrectable error, which is counted (R163). A read of memory that has
stopped waits. -/
def readHome (ps : List (Nat × Nat)) (s : State) : List Byte × Bool × State :=
  ps.foldl (fun (bs, bad, t) (k, m) =>
    let t := atHome k t
    if t.hasError k m then (bs ++ List.replicate m 0, true, eccError k t) else (bs ++ t.bytesAt k m, bad, t)) ([], false, s)

/-! ## Descriptor checks (Table 4.5) -/

/-- Check 2, FIELD. -/
def Tile.fieldOk (t : Tile) : Bool :=
  dfld t.desc 0 15 1 == 0 && dfld t.desc 0 52 12 == 0 && dfld t.desc 0x18 32 32 == 0 && dfld t.desc 0x30 32 32 == 0 &&
  dfld t.desc 0x48 32 32 == 0 && (t.desc.drop 0x50).all (· == 0) &&
  t.mode != 3 && t.fsg ≤ 6 && t.wbits ≤ 4 && t.nvec != 0

/-- Check 3, ALIGN. -/
def Tile.alignOk (t : Tile) : Bool :=
  t.wAddr % 64 == 0 && t.wStride % 64 == 0 && t.rsAddr % 128 == 0 && t.inAddr % 8 == 0 && t.inStride % 8 == 0 &&
  packedLen t.mode t.sparse ≤ t.inStride && t.isAddr % 64 == 0 && t.outAddr % 128 == 0 && t.outStride % 128 == 0

/-- The checks of Table 4.5 in their order: the page map, or the reason code of the first that fails. -/
def tileChecks (t : Tile) (s : State) : Except Nat (List (Nat × Nat)) × State :=
  if t.engine / 2 ≠ t.bay then (.error 1, s)
  else if !t.fieldOk then (.error 2, s)
  else if !t.alignOk then (.error 3, s)
  else
    let ins := t.rowArea ++ t.scaleArea ++ t.inArea ++ t.isArea
    match translatePages t.tenant false (areaPages ins) s with
    | (none, s1) => (.error 4, s1)
    | (some mi, s1) =>
      match translatePages t.tenant true (areaPages t.outArea) s1 with
      | (none, s2) => (.error 4, s2)
      | (some mo, s2) =>
        match localPages s2 mi, localPages s2 mo with
        | some ki, some ko =>
          if piecesMeet (areaPieces ki ins) (areaPieces ko t.outArea) then (.error 6, s2) else (.ok (ki ++ ko), s2)
        | _, _ => (.error 5, s2)

/-! ## Queue registers -/

/-- Ring size 2^L of queue (t, q); values outside 4 to 12 act as the nearer end. -/
def State.qSize (s : State) (t q : Nat) : Nat := 2 ^ (max 4 (min 12 (s.get (R.DSP_Q_LOG2SIZE t q))))

/-- A queue stops with error `err` (R192). -/
def stopQueue (t q err : Nat) (s : State) : State :=
  let u := (s.set (R.DSP_Q_ERR t q) err).setBit (R.DSP_Q_STOPPED t q) true
  if s.bit (R.DSP_Q_STOPPED t q) || t == 0 then u else fireVec t 1 u

/-- State of task `i` of a queue, if it has left QUEUED. -/
def WorkQ.task (w : WorkQ) (i : Nat) : Option Task := w.tasks.find? fun x => x.idx == i

/-- Task `i` is final. -/
def WorkQ.final (w : WorkQ) (i : Nat) : Bool := w.tasks.any fun x => x.idx == i && x.st == .final

/-- RETIRE advances over each final task in index order (R185). -/
def advanceRetire (t q : Nat) : Nat → State → State
  | 0, s => s
  | fuel + 1, s =>
    let k := t * 256 + q
    let r := s.get (R.DSP_Q_RETIRE t q)
    let w := s.wq k
    if r ≠ s.get (R.DSP_Q_TAIL t q) ∧ w.final r then
      advanceRetire t q fuel ((s.putWq k { w with tasks := w.tasks.filter fun x => x.idx != r }).set (R.DSP_Q_RETIRE t q) (r + 1))
    else s

/-- HEAD moves past tasks that are already final. -/
def advanceHead (t q : Nat) : Nat → State → State
  | 0, s => s
  | fuel + 1, s =>
    let h := s.get (R.DSP_Q_HEAD t q)
    if h ≠ s.get (R.DSP_Q_TAIL t q) ∧ (s.wq (t * 256 + q)).final h then
      advanceHead t q fuel (s.set (R.DSP_Q_HEAD t q) (h + 1))
    else s

/-- The task is given state `st` with descriptor `d`. -/
def putTask (k : Nat) (x : Task) (s : State) : State :=
  let w := s.wq k
  s.putWq k { w with tasks := w.tasks.filter (fun y => y.idx != x.idx) ++ [x] }

/-- Status word of Table 7.6. -/
def statusWord (outcome st err idx reason : Nat) : Nat := outcome + 2 ^ 8 * st + 2 ^ 16 * err + 2 ^ 32 * idx + 2 ^ 48 * reason

/-- Task `i` of queue (t, q) reaches its final outcome: the status word is written (a failure stops the queue, R192), COMPLETED
counts, RETIRE advances, then CPEG is signalled if `cpeg` names it (R188, R189, R174). -/
def taskEnd (t q i outcome err reason : Nat) (cpeg : Option Nat) (s : State) : State :=
  let k := t * 256 + q
  let st := if outcome = 3 then 4 else 3
  let a := (s.get (R.DSP_Q_SBASE t q)) * 64 + i % s.qSize t q * 8
  let (r, s) := agentWrite t (sext48 a) (leBytes 8 (statusWord outcome st err i reason)) s
  let s := match r with
    | .error _ => stopQueue t q 3 s
    | .ok _ => s
  let s := putTask k { idx := i, st := .final, desc := [], src := [], dst := [], signal := none } s
  let s := s.incWrap (R.DSP_Q_COMPLETED t q)
  let s := advanceHead t q 65536 s
  let s := advanceRetire t q 65536 s
  match cpeg with
  | some p => signalPeg t p s
  | none => s

/-! ## The end of a tile -/

/-- Outcome codes of Table 2.16. -/
def outDone : Nat := 0
def outFallback : Nat := 1
def outExceeded : Nat := 2
def outCancelled : Nat := 3
def outBadDesc : Nat := 4
def outPending : Nat := 0xFE
def outNoTicket : Nat := 0xFF

/-- The outcome of a ticketed tile is recorded in its slot; a hart that waits for it gets it, which frees the slot (R74). -/
def recordTicket (c slot serial outcome err : Nat) (s : State) : State :=
  let h := s.hart c
  match h.slots.find? fun x => x.1 == slot with
  | none => s
  | some (_, sl) =>
    if sl.serial ≠ serial then s else
    match h.wait with
    | .pmx ticket rd =>
      if ticket % 16 = slot ∧ ticket / 16 = sl.serial then
        wakeRd c rd (outcome + 2 ^ 16 * err) (s.putHart c { h with slots := terase slot h.slots })
      else s.putHart c { h with slots := tput slot { sl with outcome := some (outcome, err) } h.slots }
    | _ => s.putHart c { h with slots := tput slot { sl with outcome := some (outcome, err) } h.slots }

/-- A tile ends (R74, R116): its weights are its own no longer, its outcome is recorded, and its completion peg is signalled once. -/
def tileEnd (t : Tile) (outcome reason : Nat) (s : State) : State :=
  let e := t.engine
  let err := if outcome = outCancelled ∨ outcome = outBadDesc then 0
             else s.get (R.PMX_ERR_ERR e (combo t.mode t.sparse))
  let s := { s with wprot := s.wprot.filter fun w => w.1 != t.id }
  let g := s.eng e
  let s := match g.drain with
    | some ids => s.putEng e { g with drain := some (ids.filter (· != t.id)) }
    | none => s
  match t.src with
  | .hart c (some (slot, serial)) => signalPeg t.tenant (descCpeg t.desc) (recordTicket c slot serial outcome err s)
  | .hart c none =>
    let h := s.hart c
    signalPeg t.tenant (descCpeg t.desc) (s.putHart c { h with detached := h.detached - 1 })
  | .queue tn q i => taskEnd tn q i outcome err reason (some (descCpeg t.desc)) s

/-- A tile ends as BAD_DESC (R109): PMX_BADDESC of its engine records the reason, the tenant and TAG. -/
def badDesc (t : Tile) (reason : Nat) (s : State) : State :=
  let e := t.engine
  tileEnd t outBadDesc reason
    (((s.set (R.PMX_BADDESC_REASON e) reason).set (R.PMX_BADDESC_TENANT e) t.tenant).set (R.PMX_BADDESC_TAG e) t.tag)

/-- A tile's task is in state `st`. -/
def tileTask (t : Tile) (st : TaskState) (s : State) : State :=
  match t.src with
  | .queue tn q i => putTask (tn * 256 + q) { idx := i, st := st, desc := t.desc, src := [], dst := [], signal := none } s
  | _ => s

/-- A tile routed to the digital path is marked so; it waits at its place in the engine queue for the fallback queue (R138). An
unchecked tile is checked first (R134): BAD_DESC ends it. `none`: the tile has left. -/
def routeDigital (t : Tile) (s : State) : Option Tile × State :=
  match t.pages with
  | some _ => (some { t with digital := true }, s)
  | none =>
    match tileChecks t s with
    | (.ok m, s') => (some { t with digital := true, pages := some m }, s')
    | (.error r, s') => (none, badDesc t r s')

end Sys2Proof.Machine
end

