-- ==== Sys2Proof/Machine/Engine.lean ====
section
/-!
DEFINITION. The photonic matrix engines (spec 04_photonic_engines.md, 05_error_contract.md): engine states, tile acceptance,
staging, streaming, probes and the published error, the weir, routing and the digital fallback.
-/

namespace Sys2Proof.Machine

/-- Codes of Table 4.9. -/
def engOff : Nat := 0
def engAcquiring : Nat := 1
def engIdle : Nat := 2
def engLoading : Nat := 3
def engStreaming : Nat := 4
def engCalibrating : Nat := 5
def engOut : Nat := 6

/-- State of engine `e`. -/
def State.engState (s : State) (e : Nat) : Nat := s.get (R.PMX_STAT_STATE e)

/-- Engine `e` is in service: IDLE, LOADING or STREAMING (R124). -/
def State.engServing (s : State) (e : Nat) : Bool := let st := s.engState e; st == 2 || st == 3 || st == 4

/-- Engine `e` is marked out (R127). -/
def State.engMarked (s : State) (e : Nat) : Bool := nbit (s.get R.HUB_ENG_MAP_ENG_OUT) e

/-- Slots of 50 ps in a window and in a sub-window (R120, R121). -/
def windowUnits : Nat := 1280000
def subUnits : Nat := 20000

/-- Power domain of engine `e`'s group: PD11 to PD14 (Tables 16.1, 1.1). -/
def engDomain (e : Nat) : Nat := 11 + e / 4

/-- The duty that the cap of engine `e`'s group allows, in eighths (R411); a cap above the maximum of 80 W acts as that (R410). -/
def dutyCap (e : Nat) (s : State) : Nat := min 8 ((min 80 (s.get (R.PWR_CAP_CAP_W (engDomain e))) - 28) / 6)

/-- The weir of engine `e` with D = 0 behind it (R122): the cap is that of a first window (R120, R411). -/
def weirCold (e : Nat) (s : State) : State :=
  let cap := windowUnits / 8 * min 1 (dutyCap e s)
  ((s.putEng e { s.eng e with duty := 0, cap := cap, floor := 0, driven := 0, subDriven := 0 }).set
    (R.PMX_STAT_WEIR_CAP e) (min 1 (dutyCap e s))).set (R.PMX_STAT_DUTY e) 0

/-- Every ERR of engine `e` set by `v`. -/
def setErrs (e : Nat) (v : Nat → Nat) (s : State) : State :=
  (List.range 6).foldl (fun t i => t.set (R.PMX_ERR_ERR e i) (v i)) s

/-- Engine `e` enters state `st`: ENG_IN_SERVICE follows (R124); out of service every ERR reads 0xFFFF (R133) and the weir starts
again from D = 0 (R122). -/
def engEnter (e st : Nat) (s : State) : State :=
  let serving := st == 2 || st == 3 || st == 4
  let was := s.engServing e
  let s := (s.set (R.PMX_STAT_STATE e) st).set R.HUB_ENG_MAP_ENG_IN_SERVICE
    (nput (s.get R.HUB_ENG_MAP_ENG_IN_SERVICE) e serving)
  if serving then s
  else
    let g := s.eng e
    let g := if was then { g with errs := (List.range 6).map fun i => s.get (R.PMX_ERR_ERR e i) } else g
    weirCold e (setErrs e (fun _ => 0xFFFF) (s.putEng e { g with running := false }))

/-- Engine `e` enters IDLE from ACQUIRING or CALIBRATING (R133): the window history is discarded and each ERR is the seed of its
calibration set; from ACQUIRING the probe register is seeded too (R130). -/
def engIdleSeeded (e : Nat) (fromAcquiring : Bool) (s : State) : State :=
  let s := engEnter e engIdle s
  let g := s.eng e
  let g := { g with hist := [], cur := [], peak := (0, 0), rings := none
                    lfsr := if fromAcquiring then 0x5EED0000 + e else g.lfsr }
  let seed (i : Nat) : Nat := match g.act with
    | some c => (c.field e (calSeed i)).toNat
    | none => 0xFFFF
  (List.range 6).foldl (fun t i => (t.set (R.PMX_ERR_AGE e i) 0).setBit (R.PMX_ERR_SEEDED e i) true) (setErrs e seed (s.putEng e g))

/-! ## Acceptance -/

/-- Home pieces of an accepted tile's weight rows and row scales, as its tenant's tables translate them now (Table 14.1 case 4). -/
def weightPieces (t : Tile) (s : State) : List (Nat × Nat) :=
  (t.rowArea ++ t.scaleArea).flatMap fun p =>
    match (agentRange t.tenant false (pagePieces p.1 p.2 (p.2 + 1)) s).1 with
    | .ok ks => ks
    | .error _ => []

/-- The engine calibrates in DRAIN: tiles that arrive wait in its queue (R118). -/
def State.calibratingInDrain (s : State) (e : Nat) : Bool :=
  s.engState e == engCalibrating && (match s.scbRun with
    | some r => r.engines.contains e && !r.force
    | none => false)

/-- An accepted tile enters its engine's queue (R111). Out of service, the engine sends it to the digital path (R118, R134). -/
def enqueueTile (t : Tile) (s : State) : State :=
  let e := t.engine
  let s := { s with wprot := s.wprot ++ (weightPieces t s).map fun p => (t.id, p.1, p.2) }
  let add (t : Tile) (s : State) : State := let g := s.eng e; s.putEng e { g with queue := g.queue ++ [t] }
  if s.engServing e || s.calibratingInDrain e then add t s
  else
    match routeDigital t s with
    | (some t', s') => add t' (s'.incWrap (R.PMX_FB_SVC_COUNT e))
    | (none, s') => s'

/-- A tile is accepted (R72, R109): a descriptor that names an engine of another bay completes as BAD_DESC. -/
def acceptTile (desc : List Byte) (tenant bay : Nat) (src : TileSrc) (s : State) : State :=
  let t : Tile := { id := s.tileNo, desc := desc, tenant := tenant, bay := bay, src := src, pages := none, digital := false,
                    started := false, staging := false, staged := none }
  let s := { s with tileNo := s.tileNo + 1 }
  if t.engine / 2 ≠ bay then badDesc t 1 s else enqueueTile t s

/-- Engine `e`'s queue is full (R111). -/
def State.engFull (s : State) (e : Nat) : Bool := decide (32 ≤ (s.eng e).queue.length)

/-! ## Leaving service -/

/-- A tile ends as EXCEEDED after `v` vectors with cause `cause` (R135, R140). -/
def tileExceeded (t : Tile) (v cause : Nat) (s : State) : State :=
  let e := t.engine
  tileEnd t outExceeded 0
    (((((s.incWrap (R.PMX_EXC_COUNT e)).set (R.PMX_EXCLAST0_VEC_DONE e) v).set (R.PMX_EXCLAST1_TENANT e) t.tenant).set
      (R.PMX_EXCLAST1_CAUSE e) cause).set (R.PMX_EXCLAST1_TAG e) t.tag)

/-- Every tile of a list is routed to the digital path because its engine is not in service; those that are already routed stay. -/
def routeAll (e : Nat) : List Tile → State → List Tile × State
  | [], s => ([], s)
  | t :: r, s =>
    let (here, s) := if t.digital then ([t], s) else
      match routeDigital t s with
      | (some t', s') => ([t'], s'.incWrap (R.PMX_FB_SVC_COUNT e))
      | (none, s') => ([], s')
    let (rest, s) := routeAll e r s
    (here ++ rest, s)

/-- The queued tiles of engine `e`, but for one that runs, complete as FALLBACK (R118). -/
def routeQueued (e : Nat) (s : State) : State :=
  let g := s.eng e
  let keep := if g.running then g.queue.take 1 else []
  let (rest, s) := routeAll e (if g.running then g.queue.drop 1 else g.queue) s
  let g := s.eng e
  s.putEng e { g with queue := keep ++ rest }

/-- Tiles of engine `e` that an event sends to the digital path: the running one, if `strictFalls` or its STRICT is clear, and
every queued one. A running STRICT tile otherwise ends as EXCEEDED with cause 3 (R118, R39). -/
def dropTiles (e : Nat) (strictFalls : Bool) (s : State) : State :=
  let g := s.eng e
  match g.running, g.queue with
  | true, t :: rest =>
    let s := s.putEng e { g with running := false, queue := rest }
    if t.strict && !strictFalls then routeQueued e (tileExceeded t g.vec 3 s)
    else
      let s := s.putEng e { s.eng e with queue := { t with digital := true } :: rest }
      routeQueued e (s.incWrap (R.PMX_FB_SVC_COUNT e))
  | _, _ => routeQueued e s

/-- An engine fault (R118): running and queued tiles as the table says, and the engine enters `st`. An engine that is OFF or marked out
stays as it is. -/
def engineFault (e st : Nat) (s : State) : State :=
  if s.engServing e || s.engState e == engCalibrating then engEnter e st (dropTiles e false s) else
  if s.engState e == engAcquiring && st != engAcquiring then engEnter e st s else s

/-- Engine `e` is marked out until the next package reset (R127), with its Logbook record and ALERT.ENGINE_OUT. -/
def markEngineOut (e cause : Nat) (s : State) : State :=
  if s.engMarked e then s
  else
    let s := engineFault e engOut s
    let s := engEnter e engOut s
    let s := s.set R.HUB_ENG_MAP_ENG_OUT (nput (s.get R.HUB_ENG_MAP_ENG_OUT) e true)
    let s := scbRecheck (scbAbortRun (· == unitEng e) s)
    logAlert alertEngineOut 2 e 0x0200 (leBytes 1 e ++ leBytes 1 cause) s

/-! ## Staging (R112, R113) -/

/-- Staging of the next tile begins (R112): the head on an idle engine, or the second in the queue once the head runs. Its checks
come first. -/
def stagingStart (e : Nat) (s : State) : State :=
  let g := s.eng e
  let pos := if g.running then 1 else 0
  if !s.engServing e then s else
  match g.queue.drop pos with
  | [] => s
  | t :: rest =>
    if t.staging || t.digital then s
    else
      let put (t : Tile) (s : State) : State := let g := s.eng e; s.putEng e { g with queue := g.queue.take pos ++ t :: rest }
      match t.pages with
      | some _ => put { t with staging := true } s
      | none =>
        match tileChecks t s with
        | (.ok m, s') => put { t with staging := true, pages := some m } s'
        | (.error r, s') =>
          let g := s'.eng e
          badDesc t r (s'.putEng e { g with queue := g.queue.take pos ++ rest })

/-- A stored weight clamped to ± Q (R94), and whether it was. -/
def clampW (q : Nat) (b : Byte) : Int × Bool :=
  let v := toSigned 8 b.toNat
  if v > q then (q, true) else if v < -(q : Int) then (-(q : Int), true) else (v, false)

/-- Whether the pre-distorted setting of the ring in row `r` at column `k` is clamped (R113). -/
def pdClamped (c : CalSet) (e : Nat) (sparse : Bool) (w : List Int) (q r k : Nat) : Bool :=
  let n := if sparse then 8 else 16
  let bus := k / n
  let l := k % n
  let h (m : Nat) : Int :=
    if sparse then c.field e (calSparse (r * 32 + k) m) else c.field e (calFull (r * 64 + k) m)
  let wt (m : Nat) : Int := w.getD (r * (4 * n) + bus * n + m) 0
  let num := wt l * 16384 - ((List.range n).filter (· != l)).foldl (fun a m => a + h m * wt m) 0
  decide ((q : Int) * (h l).natAbs < num.natAbs)

/-- The weights arrive (R112 to R115): read once, clamped, summed and pre-distorted into the staging buffer. -/
def stageTile (e : Nat) (t : Tile) (s : State) : Staged × State :=
  let m := t.pages.getD []
  let n := cols t.sparse
  let bw := 4 + t.wbits
  let q := codeQ bw
  let (wb, badW, s) := readHome (areaPieces m t.rowArea) s
  let (sb, badS, s) := readHome (areaPieces m t.scaleArea) s
  let cl := wb.map (clampW q)
  let w := cl.map Prod.fst
  let s := s.incSat (R.PMX_CLAMPCNT_W_CLAMP e) (cl.countP Prod.snd)
  let sums := (List.range 64).map fun r => ((w.drop (r * n)).take n).foldl (· + ·) 0
  let s := match (s.eng e).act with
    | some c => s.incSat (R.PMX_LOADSTAT_PD_SAT e)
        ((List.range 64).foldl (fun a r => a + (List.range n).countP (pdClamped c e t.sparse w q r)) 0)
    | none => s
  ({ weights := w, sums := sums, scales := (List.range 64).map fun r => leNat ((sb.drop (2 * r)).take 2), mode := t.mode,
     sparse := t.sparse, g := t.fsg, bw := bw, bad := badW || badS }, s)

/-- The weights of the tile whose staging has begun arrive. -/
def weightsArrived (e : Nat) (s : State) : State :=
  let g := s.eng e
  match g.queue.find? fun t => t.staging && t.staged.isNone && !t.digital with
  | none => s
  | some t =>
    let (st, s) := stageTile e t s
    let g := s.eng e
    s.putEng e { g with queue := g.queue.map fun u => if u.id == t.id then { u with staged := some st } else u }

/-! ## Starting, streaming, ending -/

/-- The engine takes up the next set at a tile boundary (R98). -/
def swapShadow (e : Nat) (s : State) : State :=
  let g := s.eng e
  match g.shadow with
  | some c => s.putEng e { g with act := some c, shadow := none }
  | none => s

/-- After its running tile has gone, engine `e` is IDLE, or OUT if SVC_OUT is set, when tiles that arrived since fall back (R118, R126);
a next tile not yet staged counts STAGE_LATE (R112). -/
def engineFree (e : Nat) (s : State) : State :=
  let s := swapShadow e s
  if s.bit (R.PMX_CTL_SVC_OUT e) || (s.eng e).selftest.isSome then engEnter e engOut (routeQueued e s)
  else
    let s := engEnter e engIdle s
    match (s.eng e).queue with
    | t :: _ => if t.staged.isNone && !t.digital then s.incSat (R.PMX_LOADSTAT_STAGE_LATE e) else s
    | [] => s

/-- The check at start and the route of the tile at the head of the queue (R134); with the engine route the weight reload begins
(R111, R114). -/
def tileStart (e : Nat) (s : State) : State :=
  let g := s.eng e
  if s.engState e ≠ engIdle ∨ g.running then s
  else match g.queue with
  | [] => s
  | t :: rest =>
    match t.staged with
    | none => s
    | some st =>
      let held := match g.drain with
        | some ids => !ids.contains t.id
        | none => false
      if t.digital || held then s
      else
        let digital (ctr : Fld) : State :=
          (s.putEng e { g with queue := { t with digital := true } :: rest }).incWrap ctr
        let err := s.get (R.PMX_ERR_ERR e (combo t.mode t.sparse))
        if nbit (s.get R.DSP_REPRO_TENANT_MASK) t.tenant || t.ceiling = 0 then digital (R.PMX_FB_REQ_COUNT e)
        else if t.ceiling = 0xFFFF || err ≤ t.ceiling then
          let s := tileTask t .running s
          let s := swapShadow e s
          let g := s.eng e
          let s := s.putEng e { g with queue := { t with started := true } :: rest, running := true, vec := 0, rings := some st, idleRun := 0 }
          (engEnter e engLoading s).incWrap (R.PMX_TILECNT_TILES e)
        else if t.strict then tileExceeded t 0 1 (s.putEng e { g with queue := rest })
        else digital (R.PMX_FB_START_COUNT e)

/-- The weight reload ends (R114). -/
def reloadComplete (e : Nat) (s : State) : State :=
  if s.engState e = engLoading then engEnter e engStreaming s else s

/-- Length of a slot of MODE in units of 50 ps. -/
def slotUnits (mode : Nat) : Nat := if mode = 2 then 2 else 1

/-- The cap lets engine `e` drive another `u` units in this sub-window (R121). -/
def capLets (g : Eng) (u : Nat) : Bool := decide (g.subDriven + u ≤ g.cap / 64)

/-- Engine `g` has driven `u` units. -/
def drive (u : Nat) (g : Eng) : Eng := { g with driven := g.driven + u, subDriven := g.subDriven + u }

/-- Input elements of a packed vector (R86, R92), clamped; and how many were. -/
def unpackInputs (mode n : Nat) (bs : List Byte) : List Int × Nat :=
  let b := inBits mode
  let v := leNat bs
  let raw := (List.range n).map fun k => toSigned b (nfld v (b * k) b)
  (raw.map fun x => max x (-(codeO mode : Int)), raw.countP fun x => decide (x < -(codeO mode : Int)))

/-- Vector `i` of a tile with its scale: elements, how many were clamped, σ, whether one had an uncorrectable error. -/
def readVector (t : Tile) (i : Nat) (s : State) : List Int × Nat × Nat × Bool × State :=
  let m := t.pages.getD []
  let (vb, bad1, s) := readHome (homePieces m ((t.inAddr + i * t.inStride) % 2 ^ 64) (packedLen t.mode t.sparse)) s
  let (sb, bad2, s) := readHome (homePieces m ((t.isAddr + 2 * i) % 2 ^ 64) 2) s
  let (xs, n) := unpackInputs t.mode (cols t.sparse) vb
  (xs, n, leNat sb, bad1 || bad2, s)

/-- Record `i` of a tile is written: 64 values of 2 bytes (R97, R116). -/
def writeRecord (t : Tile) (i : Nat) (ys : List Nat) (s : State) : State :=
  let m := t.pages.getD []
  writePieces (homePieces m ((t.outAddr + i * t.outStride) % 2 ^ 64) 128) (ys.flatMap (leBytes 2)) s

/-- A signed converter code. -/
def adcCode (codes : List Byte) (r : Nat) : Int := toSigned 8 (codes.getD r 0).toNat

/-- A vector slot (R116, R117): an idle slot when data is not ready; none at a probe position (R106) or beyond the cap (R121);
else the next vector is applied and its record written. -/
def vectorSlot (e : Nat) (ready : Bool) (codes : List Byte) (s : State) : State :=
  let g := s.eng e
  if s.engState e ≠ engStreaming then s
  else match g.running, g.queue, g.rings with
  | true, t :: _, some st =>
    if g.vec ≥ t.nvec ∨ g.slotCnt = 4095 then s
    else if !ready then
      if g.idleRun = 63 then (s.putEng e { g with idleRun := 0 }).incSat (R.PMX_STARVE_SLOTS64 e)
      else s.putEng e { g with idleRun := g.idleRun + 1 }
    else if !capLets g (slotUnits t.mode) then s.putEng e { g with withheld := true }
    else
      let i := g.vec
      let (_, clamped, sigma, bad, s) := readVector t i s
      let clips := (List.range 64).countP fun r => adcCode codes r == -128 || adcCode codes r == 127
      let s := (s.incSat (R.PMX_CLAMPCNT_IN_CLAMP e) clamped).incSat (R.PMX_CLIPCNT_ADC_CLIP e) clips
      let cs := (s.eng e).act
      let fld (f : Nat) : Int := match cs with
        | some c => c.field e f
        | none => 0
      let ci := combo t.mode t.sparse
      let ys := (List.range 64).map fun r =>
        if bad || st.bad then (outFmt t.bf).nanCode
        else engineOut t.bf (adcCode codes r) (fld (calBeta r ci)) (fld (calGamma r ci)).toNat (codeO t.mode) (codeQ st.bw) st.g
          (st.sums.getD r 0) (st.scales.getD r 0) sigma
      let s := writeRecord t i ys s
      let g := drive (slotUnits t.mode) (s.eng e)
      (s.putEng e { g with vec := i + 1, slotCnt := g.slotCnt + 1, idleRun := 0 }).incWrap (R.PMX_VECCNT_VECTORS e)
  | _, _, _ => s

/-- The last record has been performed (R116): the tile ends as DONE. -/
def tileComplete (e : Nat) (s : State) : State :=
  let g := s.eng e
  if s.engState e ≠ engStreaming then s
  else match g.running, g.queue with
  | true, t :: rest =>
    if g.vec < t.nvec then s
    else engineFree e (tileEnd t outDone 0 (s.putEng e { g with running := false, queue := rest }))
  | _, _ => s

/-! ## Probes and the published error -/

/-- One step of the probe register (R130). -/
def lfsrStep (x : Nat) : Nat := if x % 2 = 1 then (x / 2) ^^^ 0xE0000200 else x / 2

/-- The next `n` probe elements of a mode with O = `o`, and the register after them. -/
def probeElems (o : Nat) : Nat → Nat → List Int × Nat
  | 0, x => ([], x)
  | n + 1, x =>
    let y := lfsrStep x
    let (r, z) := probeElems o n y
    ((((y % (2 * o + 1) : Nat) : Int) - o) :: r, z)

/-- Common multiple of every Q of R94, and of every O; row errors are kept exactly, in units of 1 / errUnit output LSB. -/
def lcmQ : Nat := 1240155
def lcmO : Nat := 27559
def errUnit : Nat := 4194304 * lcmQ * lcmO

/-- The reference tile of a calibration set (R129): P6, full line, g = 4, bw = 6. -/
def refTile (c : CalSet) (e : Nat) : Staged :=
  let w := (List.range 64).flatMap fun r => (List.range 64).map fun k => c.field e (calRefWeight r k)
  { weights := w, sums := (List.range 64).map fun r => ((w.drop (r * 64)).take 64).foldl (· + ·) 0,
    scales := (List.range 64).map fun r => (c.field e (calRefScale r)).toNat, mode := 1, sparse := false, g := 4, bw := 6,
    bad := false }

/-- Ideal code c* of row `r` for probe elements `xs` as a numerator over O × Q (R131), with its denominator. -/
def idealCode (st : Staged) (xs : List Int) (r : Nat) : Int × Nat :=
  let n := cols st.sparse
  let o := codeO st.mode
  let q := codeQ st.bw
  let dot := (((st.weights.drop (r * n)).take n).zip xs).foldl (fun a p => a + p.1 * p.2) 0
  ((st.sums.getD r 0 * o + dot) * 2 ^ st.g, o * q)

/-- Row errors of a probe: scaled error per scored row; `none` for an excluded row (R131). -/
def probeRow (c : CalSet) (e : Nat) (st : Staged) (xs : List Int) (codes : List Byte) (r : Nat) : Option Int :=
  let (num, den) := idealCode st xs r
  let cr := adcCode codes r
  if decide (120 * (den : Int) < num.natAbs) || cr == -128 || cr == 127 then none
  else
    let ci := combo st.mode st.sparse
    let meas := (cr * 256 - c.field e (calBeta r ci)) * c.field e (calGamma r ci)
    some (meas * ((lcmQ * lcmO : Nat) : Int) - num * ((4194304 * (lcmQ * lcmO / den) : Nat) : Int))

/-- A probe slot (R106, R129 to R131): the probe vector is scored on the weights in the rings. -/
def probeSlot (e : Nat) (codes : List Byte) (s : State) : State :=
  let g := s.eng e
  match g.act with
  | none => s
  | some c =>
    if !s.engServing e || s.engState e = engLoading || (g.slotCnt ≠ 4095 && g.probesDue = 0) then s
    else
      let st := match g.rings with
        | some st => st
        | none => refTile c e
      let u := slotUnits st.mode
      if g.probesDue = 0 && !capLets g u then s.putEng e { g with withheld := true }
      else
        let (xs, x) := probeElems (codeO st.mode) (cols st.sparse) g.lfsr
        let rows := (List.range 64).map (probeRow c e st xs codes)
        let errs := rows.filterMap id
        let ci := combo st.mode st.sparse
        let (ss, n) := g.cur.getD ci (0, 0)
        let cur := ((List.range 6).map fun i => g.cur.getD i (0, 0)).set ci
          (ss + errs.foldl (fun a v => a + v.natAbs * v.natAbs) 0, n + errs.length)
        let peak := errs.foldl (fun p v => if v.natAbs > p.1 then (v.natAbs, ci) else p) g.peak
        let g : Eng := { g with lfsr := x, cur := cur, peak := peak }
        let g : Eng := if g.probesDue ≠ 0 then { g with probesDue := g.probesDue - 1 } else drive u { g with slotCnt := 0 }
        ((s.putEng e g).incWrap (R.PMX_PROBECNT_PROBES e)).incSat (R.PMX_PROBEREJ_ROWS e) (64 - errs.length)

/-- Integer square root: the largest r with r² ≤ n, by bisection over `fuel` bits. -/
def isqrtGo (n : Nat) : Nat → Nat → Nat
  | 0, r => r
  | fuel + 1, r => let c := r + 2 ^ fuel; isqrtGo n fuel (if c * c ≤ n then c else r)
def isqrt (n : Nat) : Nat := isqrtGo n (Nat.log2 n / 2 + 1) 0

/-- The root-mean-square of a sum of squares of scaled errors over `n` rows in U8.8, to nearest. -/
def rms (ss n : Nat) : Nat := (isqrt (4 * 65536 * ss / (n * errUnit * errUnit)) + 1) / 2

/-- The published errors at a window boundary (R132). -/
def publishErrors (e : Nat) (s : State) : State :=
  let g := s.eng e
  let wins := (g.cur :: g.hist).take 16
  (List.range 6).foldl (fun t i =>
    let ss := wins.foldl (fun a w => a + (w.getD i (0, 0)).1) 0
    let n := wins.foldl (fun a w => a + (w.getD i (0, 0)).2) 0
    if n ≥ 1024 then
      ((t.set (R.PMX_ERR_ERR e i) (min 0xFFFE (rms ss n))).set (R.PMX_ERR_AGE e i) 0).setBit (R.PMX_ERR_SEEDED e i) false
    else t.incSat (R.PMX_ERR_AGE e i)) s

/-- The running tile is checked against its ceiling at a window boundary (R135, R136). -/
def midTileCheck (e : Nat) (s : State) : State :=
  let g := s.eng e
  match g.running, g.queue with
  | true, t :: rest =>
    if g.vec < t.nvec ∧ t.ceiling ≠ 0xFFFF ∧ t.ceiling < s.get (R.PMX_ERR_ERR e (combo t.mode t.sparse)) ∧
        s.engState e = engStreaming then
      if t.strict then engineFree e (tileExceeded t g.vec 2 (s.putEng e { g with running := false, queue := rest }))
      else engineFree e ((s.putEng e { g with running := false, queue := { t with digital := true } :: rest }).incWrap (R.PMX_FB_RUN_COUNT e))
    else s
  | _, _ => s

/-- The probe scores of the window that ends join the history, and ERRPEAK shows its largest row error (R132, R140). -/
def probeWindowEnd (e : Nat) (s : State) : State :=
  let g := s.eng e
  let peak := min 0xFFFF ((g.peak.1 * 512 + errUnit) / (2 * errUnit))
  ((s.putEng e { g with cur := [], hist := (g.cur :: g.hist).take 15, peak := (0, 0) }).set (R.PMX_ERRPEAK_PEAK e) peak).set
    (R.PMX_ERRPEAK_COMBO e) g.peak.2

/-- A window of 64 µs ends (R120, R132, R135, R411): D is taken, the cap and floor of the next window follow, keep-warm within the
cap, and the published errors are updated. Out of service D stays 0 (R122), and the window counts in the history of R132. -/
def weirWindowEnd (e : Nat) (s : State) : State :=
  let g := s.eng e
  if !s.engServing e then weirCold e (probeWindowEnd e s)
  else
    let d := min g.driven windowUnits
    let limit := windowUnits / 8 * dutyCap e s
    let cap := min (min windowUnits (d + windowUnits / 8)) limit
    let kw := if s.bit (R.PMX_CTL_KW_EN e) then min cap (windowUnits / 8 * s.get (R.PMX_CTL_KW_DUTY e)) else 0
    let floor := max (d - windowUnits / 8) kw
    let s := probeWindowEnd e (publishErrors e s)
    let s := s.putEng e { s.eng e with duty := d, cap := cap, floor := floor, driven := 0, subDriven := 0 }
    let s := (s.set (R.PMX_STAT_WEIR_CAP e) (cap * 8 / windowUnits)).set (R.PMX_STAT_DUTY e) (d * 8 / windowUnits)
    midTileCheck e s

/-- The cap of engine `e`'s group, and not the weir's own, holds back a waiting tile (R411). -/
def heldByPower (s : State) (e : Nat) : Bool :=
  let g := s.eng e
  g.withheld && decide (g.cap < min windowUnits (g.duty + windowUnits / 8))

/-- A sub-window of 1 µs ends (R121): a tile that the cap held back counts, and dummy patterns fill up to the floor. -/
def weirSubwindow (e : Nat) (s : State) : State :=
  let g := s.eng e
  if !s.engServing e then s
  else
    let s := s.setBit (R.PWR_DOM_THROTTLE (engDomain e)) ((List.range 4).any fun i => heldByPower s (e / 4 * 4 + i))
    let s := if g.withheld then s.incSat (R.PMX_WEIRCNT_WITHHELD_US e) else s
    let pad := if s.engState e = engLoading then 0 else g.floor / 64 - g.subDriven
    let rest := g.padRest + pad
    let pos := g.slotCnt + pad
    let g := { drive pad g with subDriven := 0, withheld := false, padRest := rest % subUnits, slotCnt := pos % 4096,
                                probesDue := g.probesDue + pos / 4096 }
    (s.putEng e g).incSat (R.PMX_WEIRCNT_PADDED_US e) (rest / subUnits)

/-! ## Fallback (R137, R138) -/

/-- The first engine of bay `b` whose head is routed to the digital path; with both waiting, which one is a free value. -/
def fallbackEngine (b : Nat) (s : State) : Option Nat × State :=
  let waits (e : Nat) : Bool := match (s.eng e).queue with
    | t :: _ => t.digital && !(s.eng e).running
    | [] => false
  match waits (2 * b), waits (2 * b + 1) with
  | true, true => let (v, s) := s.free; (some (2 * b + v % 2), s)
  | true, false => (some (2 * b), s)
  | false, true => (some (2 * b + 1), s)
  | false, false => (none, s)

/-- A tile routed to the digital path enters the bay's fallback queue when it has room (R138). -/
def fallbackAccept (b : Nat) (s : State) : State :=
  let q := s.fallback b
  if q.length ≥ 1024 then s
  else match fallbackEngine b s with
  | (none, s) => s
  | (some e, s) =>
    match (s.eng e).queue with
    | t :: rest =>
      let s := s.putEng e { s.eng e with queue := rest }
      let s := if q.isEmpty then tileTask t .running s else s
      s.putFallback b (q ++ [{ t with started := t.started || q.isEmpty }])
    | [] => s

/-- The digital result of vector `i` of a tile (R137), or canonical NaN where its data has an uncorrectable error (R163). -/
def fallbackVector (t : Tile) (st : Staged) (i : Nat) (s : State) : State :=
  let (xs, _, sigma, bad, s) := readVector t i s
  let n := cols t.sparse
  let ys := (List.range 64).map fun r =>
    if bad || st.bad then (outFmt t.bf).nanCode
    else fallbackOut t.bf ((((st.weights.drop (r * n)).take n).zip xs).foldl (fun a p => a + p.1 * p.2) 0) (st.scales.getD r 0) sigma
  writeRecord t i ys s

/-- Order of the records of a fallback tile: any (R137). Only with OUT_STRIDE = 0 does the last one matter (R424): it is a free value. -/
def fallbackOrder (t : Tile) (s : State) : List Nat × State :=
  if t.outStride = 0 ∧ 1 < t.nvec then
    let (v, s) := s.free
    let l := v % t.nvec
    ((List.range t.nvec).filter (· != l) ++ [l], s)
  else (List.range t.nvec, s)

/-- The weights of a fallback tile, read again and clamped; nothing is counted but errors. -/
def fallbackWeights (t : Tile) (s : State) : Staged × State :=
  let m := t.pages.getD []
  let n := cols t.sparse
  let (wb, badW, s) := readHome (areaPieces m t.rowArea) s
  let (sb, badS, s) := readHome (areaPieces m t.scaleArea) s
  let w := wb.map fun b => (clampW (codeQ (4 + t.wbits)) b).1
  ({ weights := w, sums := (List.range 64).map fun r => ((w.drop (r * n)).take n).foldl (· + ·) 0,
     scales := (List.range 64).map fun r => leNat ((sb.drop (2 * r)).take 2), mode := t.mode, sparse := t.sparse, g := t.fsg,
     bw := 4 + t.wbits, bad := badW || badS }, s)

/-- The fallback cores finish the tile at the head of the bay's fallback queue (R137, R138). -/
def fallbackComplete (b : Nat) (s : State) : State :=
  match s.fallback b with
  | [] => s
  | t :: rest =>
    let (st, s) := fallbackWeights t s
    let (order, s) := fallbackOrder t s
    let s := order.foldl (fun s i => fallbackVector t st i s) s
    let s := s.incWrap (R.PMX_FB_VEC_VECTORS t.engine) t.nvec
    let s := match rest with
      | u :: _ => tileTask u .running s
      | [] => s
    let rest := match rest with
      | u :: r => { u with started := true } :: r
      | [] => []
    tileEnd t outFallback 0 (s.putFallback b rest)

/-! ## Service -/

/-- The engine returns to IDLE after OUT, through ACQUIRING if a ring has lost lock (R126): LOCKED says so. Its published errors
read again as they were kept (R133). -/
def engineReturn (e : Nat) (s : State) : State :=
  if s.engState e = engOut ∧ !s.engMarked e then
    if s.bit (R.PMX_STAT_LOCKED e) then
      let s := engEnter e engIdle s
      setErrs e (fun i => (s.eng e).errs.getD i 0xFFFF) s
    else engEnter e engAcquiring s
  else s

/-- Engine `e` comes back from ACQUIRING or CALIBRATING (Tables 4.7, 4.9): IDLE with the seeds of its set, or OUT where SVC_OUT is set or a
self-test waits. -/
def engineSettle (e : Nat) (s : State) : State :=
  if s.bit (R.PMX_CTL_SVC_OUT e) || (s.eng e).selftest.isSome then engEnter e engOut (routeQueued e s)
  else engIdleSeeded e (s.engState e == engAcquiring) s

/-- A write of PMX_CTL.SVC_OUT (R126): 1 takes the engine out once its running tile completes, and its queued tiles fall back;
0 returns it. -/
def svcOut (e : Nat) (v : Bool) (s : State) : State :=
  let s := s.setBit (R.PMX_CTL_SVC_OUT e) v
  if v then
    if (s.eng e).running then routeQueued e s
    else if s.engServing e then engEnter e engOut (routeQueued e s) else s
  else if (s.eng e).selftest.isSome then s else engineReturn e s

/-! ## Events -/

/-- STAGING_START (R112). -/
def execStagingStart (e : Sys2Proof.Eng) (s : State) : Out := attempt (inBay (e.val / 2) (stagingStart e)) s

/-- WEIGHTS_ARRIVED (R113). -/
def execWeightsArrived (e : Sys2Proof.Eng) (s : State) : Out := attempt (inBay (e.val / 2) (weightsArrived e)) s

/-- TILE_START (R111). -/
def execTileStart (e : Sys2Proof.Eng) (s : State) : Out := attempt (inBay (e.val / 2) (tileStart e)) s

/-- RELOAD_COMPLETE (R114). -/
def execReloadComplete (e : Sys2Proof.Eng) (s : State) : Out := .next (inBay (e.val / 2) (reloadComplete e) s)

/-- VECTOR_SLOT (R116). -/
def execVectorSlot (e : Sys2Proof.Eng) (ready : Bool) (codes : List Byte) (s : State) : Out := attempt (inBay (e.val / 2) (vectorSlot e ready codes)) s

/-- PROBE_SLOT (R131). -/
def execProbeSlot (e : Sys2Proof.Eng) (codes : List Byte) (s : State) : Out := .next (inBay (e.val / 2) (probeSlot e codes) s)

/-- TILE_COMPLETE (R116). -/
def execTileComplete (e : Sys2Proof.Eng) (s : State) : Out := attempt (inBay (e.val / 2) (tileComplete e)) s

/-- WEIR_WINDOW_END (R120). -/
def execWeirWindowEnd (e : Sys2Proof.Eng) (s : State) : Out := attempt (inBay (e.val / 2) (weirWindowEnd e)) s

/-- WEIR_SUBWINDOW (R121). -/
def execWeirSubwindow (e : Sys2Proof.Eng) (s : State) : Out := .next (inBay (e.val / 2) (weirSubwindow e) s)

/-- FALLBACK_QUEUE_ACCEPT (R138). -/
def execFallbackQueueAccept (b : Bay) (s : State) : Out := .next (inBay b.val (fallbackAccept b) s)

/-- FALLBACK_COMPLETE (R137). -/
def execFallbackComplete (b : Bay) (s : State) : Out := attempt (inBay b.val (fallbackComplete b)) s

end Sys2Proof.Machine
end

