-- ==== Sys2Proof/Machine/Queues.lean ====
section
/-!
DEFINITION. Work queues (spec 07_pegs_raisings_queues.md, R181 to R194): enabling, doorbells, descriptor fetches and their checks,
DMA tasks, cancelling, and what a peg block command ends.
-/

namespace Sys2Proof.Machine

/-- Key of queue (t, q). -/
def qKey (t q : Nat) : Nat := t * 256 + q

/-! ## Enable and doorbell -/

/-- EN of queue (t, q) is written with 1 (R181): enabled, or BAD_CONFIG. Already enabled, nothing changes. -/
def queueEnableNow (t q : Nat) (s : State) : State :=
  if s.bit (R.DSP_Q_EN t q) then s
  else if s.get (R.DSP_Q_TYPE t q) ≤ 1 && s.bayIn (s.get (R.DSP_Q_HOME t q)) &&
      (!s.bit (R.DSP_Q_PEGDB t q) || pegOwned s t (s.get (R.DSP_Q_DBPEG t q))) then
    s.setBit (R.DSP_Q_EN t q) true
  else s.set (R.DSP_Q_ERR t q) 4

/-- EN is written with 0 (R181): effective once RETIRE = TAIL. -/
def queueDisableNow (t q : Nat) (s : State) : State :=
  if s.get (R.DSP_Q_RETIRE t q) = s.get (R.DSP_Q_TAIL t q) then s.setBit (R.DSP_Q_EN t q) false else s

/-- A write of DSP_QBASE by its 64-bit value (R181, R194): with EN = 1 only EN is writable. -/
def qbaseWrite (t q v : Nat) (s : State) : State :=
  if s.bit (R.DSP_Q_EN t q) then (if nbit v 0 then s else queueDisableNow t q s)
  else
    let s := (((s.set (R.DSP_Q_TYPE t q) (nfld v 1 2)).set (R.DSP_Q_PEGDB t q) (nfld v 3 1)).set (R.DSP_Q_HOME t q) (nfld v 4 3)).set
      (R.DSP_Q_LOG2SIZE t q) (nfld v 8 4)
    let s := s.set (R.DSP_Q_BASE t q) (nfld v 12 36)
    if nbit v 0 then queueEnableNow t q s else s

/-- A doorbell write of `v` reaches queue (t, q) (R182, R184): dropped for a queue that takes none, an overrun, or TAIL. A write of the reserved
bits [31:16] is case 1 of Table 14.1 (R8). -/
def ringDoorbell (t q v : Nat) (s : State) : State :=
  if !s.bit (R.DSP_Q_EN t q) || s.bit (R.DSP_Q_PEGDB t q) || s.bit (R.DSP_Q_STOPPED t q) then s.incSat (R.DSP_DBDROP_COUNT t)
  else if 65535 < v then s.undef 1
  else if (v + 65536 - s.get (R.DSP_Q_RETIRE t q)) % 65536 > s.qSize t q then stopQueue t q 1 s
  else s.set (R.DSP_Q_TAIL t q) v

/-- A 32-bit doorbell write of function `f` at BAR4 offset `off` (R182, R331). -/
def doorbellWrite (f off v : Nat) (s : State) : State :=
  if !s.decodes f then s
  else if !s.bit R.HUB_LEVEL_STAT_WRITTEN then s.incSat R.HUB_LEVEL_STAT_PRE_LEVEL
  else if f = 16 then s.incSat (R.DSP_DBDROP_COUNT 16)
  else
    let t := if f = 0 then off / 0x10000 else f
    let o := if f = 0 then off % 0x10000 else off
    if f = 0 ∧ 0x100000 ≤ off then s.incSat (R.DSP_DBDROP_COUNT 0)
    else if o % 0x100 ≠ 0 ∨ 0x10000 ≤ o then s.incSat (R.DSP_DBDROP_COUNT t)
    else ringDoorbell t (o / 0x100) v s

/-- The dispatcher takes one from DBPEG (R183). A take that fails its check stops the queue. -/
def doorbellTake (t q : Nat) (s : State) : State :=
  let p := s.get (R.DSP_Q_DBPEG t q)
  if !s.bit (R.DSP_Q_EN t q) || !s.bit (R.DSP_Q_PEGDB t q) || s.bit (R.DSP_Q_STOPPED t q) then s
  else if (s.get (R.DSP_Q_TAIL t q) + 65536 - s.get (R.DSP_Q_RETIRE t q)) % 65536 = s.qSize t q then s
  else if !pegOwned s t p then stopQueue t q 4 s
  else if s.bit (R.PEG_VAL_POISON p) ∨ s.peg p = 0 then s
  else pegChanged p ((s.set (R.PEG_VAL_VALUE p) (s.peg p - 1)).set (R.DSP_Q_TAIL t q) (s.get (R.DSP_Q_TAIL t q) + 1))

/-! ## Fetch and checks -/

/-- Fetches in flight of the dispatcher slice of bay `b`. -/
def fetchesOf (s : State) (b : Nat) : Nat :=
  s.queues.countP fun (k, w) => w.fetching && s.get (R.DSP_Q_HOME (k / 256) (k % 256)) == b

/-- The fetch of the queue's next descriptor is issued (R184, R375). A DMA task that has not got past its wait holds the later ones, which
stay QUEUED. -/
def fetchIssue (t q : Nat) (s : State) : State :=
  let w := s.wq (qKey t q)
  let waits := s.get (R.DSP_Q_TYPE t q) == 1 && w.tasks.any (·.st == .ready)
  if !s.bit (R.DSP_Q_EN t q) || s.bit (R.DSP_Q_STOPPED t q) || w.fetching || w.held.isSome || waits ||
      s.get (R.DSP_Q_HEAD t q) == s.get (R.DSP_Q_TAIL t q) || 16 ≤ fetchesOf s (s.get (R.DSP_Q_HOME t q)) ||
      (s.bit R.HUB_SOLO_EN && s.get R.HUB_SOLO_TENANT != t) then s
  else s.putWq (qKey t q) { w with fetching := true }

/-- The descriptor of task `i`. -/
def readDesc (t q i : Nat) (s : State) : Except AgentErr (List Byte) × State :=
  agentRead t (sext48 (s.get (R.DSP_Q_BASE t q) * 4096 + i % s.qSize t q * 128)) 128 s

/-- Fields of a DMA descriptor (Table 7.5). -/
def dmaKind (d : List Byte) : Nat := dfld d 0 0 4
def dmaWaitEn (d : List Byte) : Bool := dfld d 0 4 1 == 1
def dmaWaitTake (d : List Byte) : Bool := dfld d 0 5 1 == 1
def dmaWaitPeg (d : List Byte) : Nat := dfld d 8 0 20
def dmaWaitN (d : List Byte) : Nat := dfld d 8 32 24
def dmaSrc (d : List Byte) : Nat := dfld d 0x10 0 64
def dmaDst (d : List Byte) : Nat := dfld d 0x18 0 64
def dmaLen (d : List Byte) : Nat := dfld d 0x20 0 32
def dmaSig (d : List Byte) : Nat := dfld d 0x28 0 64
def dmaSigN (d : List Byte) : Nat := dfld d 0x30 0 24

/-- Check 2 of Table 7.7. -/
def dmaFieldOk (d : List Byte) : Bool :=
  dfld d 0 6 26 == 0 && dfld d 0 52 12 == 0 && dfld d 8 20 12 == 0 && dfld d 8 56 8 == 0 && dfld d 0x20 32 32 == 0 &&
  dfld d 0x30 24 40 == 0 && dfld d 0x38 32 32 == 0 && (d.drop 0x40).all (· == 0) && dmaKind d ≤ 2 &&
  (dmaKind d != 1 || dmaLen d != 0) && (dmaKind d != 2 || pegOperandOk (dmaSig d))

/-- Checks 2 to 6 of Table 7.7 for a DMA task: source and destination pieces of a COPY, or the reason code. -/
def dmaChecks (t : Nat) (d : List Byte) (s : State) : Except Nat (List (Nat × Nat) × List (Nat × Nat)) × State :=
  if !dmaFieldOk d then (.error 2, s)
  else if dmaKind d = 1 ∧ (dmaSrc d % 64 ≠ 0 ∨ dmaDst d % 64 ≠ 0 ∨ dmaLen d % 64 ≠ 0) then (.error 3, s)
  else if (dmaWaitEn d && !pegOwned s t (dmaWaitPeg d)) ||
      (dmaKind d == 2 && !pegRemote (dmaSig d) && !pegOwned s t (dmaSig d % 2 ^ 20)) then (.error 7, s)
  else if dmaKind d ≠ 1 then (.ok ([], []), s)
  else
    match translatePages t false (areaPages [(dmaSrc d, dmaLen d)]) s with
    | (none, s1) => (.error 4, s1)
    | (some ms, s1) =>
      match translatePages t true (areaPages [(dmaDst d, dmaLen d)]) s1 with
      | (none, s2) => (.error 4, s2)
      | (some md, s2) =>
        match localPages s2 ms, localPages s2 md with
        | some ks, some kd => (.ok (homePieces ks (dmaSrc d) (dmaLen d), homePieces kd (dmaDst d) (dmaLen d)), s2)
        | _, _ => (.error 5, s2)

/-- A DMA task ends: its status word, then its CPEG (R188, R189). -/
def dmaEnd (t q i outcome reason : Nat) (d : List Byte) (s : State) : State := taskEnd t q i outcome 0 reason (some (descCpeg d)) s

/-- Task `i` ends without a signal because its CPEG fails check 1 (R189): BAD_DESC, and the queue stops. -/
def cpegFail (t q i : Nat) (s : State) : State := taskEnd t q i 4 0 8 none (stopQueue t q 5 s)

/-- The engine queue takes a tile task, or the queue holds it while the engine queue is full (R184). -/
def offerTile (t q : Nat) (tile : Tile) (s : State) : State :=
  if s.engFull tile.engine then
    let w := s.wq (qKey t q)
    s.putWq (qKey t q) { w with held := some tile }
  else enqueueTile tile (tileTask tile .ready s)

/-- The fetched descriptor of the task at HEAD arrives (R190, R192). -/
def descArrived (t q : Nat) (s : State) : State :=
  let k := qKey t q
  let w := s.wq k
  if !w.fetching then s
  else
    let s := s.putWq k { w with fetching := false }
    let i := s.get (R.DSP_Q_HEAD t q)
    if s.bit (R.DSP_Q_STOPPED t q) || i == s.get (R.DSP_Q_TAIL t q) then s
    else match readDesc t q i s with
    | (.error _, s) => stopQueue t q 2 s
    | (.ok d, s) =>
      let s := s.set (R.DSP_Q_HEAD t q) (i + 1)
      if !pegOwned s t (descCpeg d) then cpegFail t q i s
      else if s.get (R.DSP_Q_TYPE t q) = 1 then
        match dmaChecks t d s with
        | (.error r, s) => dmaEnd t q i outBadDesc r d s
        | (.ok (src, dst), s) => putTask k { idx := i, st := .ready, desc := d, src := src, dst := dst, signal := none } s
      else
        let tile : Tile := { id := s.tileNo, desc := d, tenant := t, bay := s.get (R.DSP_Q_HOME t q), src := .queue t q i, pages := none,
                             digital := false, started := false, staging := false, staged := none }
        let s := { s with tileNo := s.tileNo + 1 }
        match tileChecks tile s with
        | (.error r, s) => badDesc tile r s
        | (.ok m, s) => offerTile t q { tile with pages := some m } s

/-- The engine queue has room for the tile that the queue holds (R184). -/
def heldAccept (t q : Nat) (s : State) : State :=
  let k := qKey t q
  let w := s.wq k
  match w.held with
  | none => s
  | some tile =>
    if s.engFull tile.engine then s else enqueueTile tile (tileTask tile .ready (s.putWq k { w with held := none }))

/-! ## DMA tasks -/

/-- The READY DMA task `i`, with every earlier task of its queue past its wait (R184). -/
def dmaReady (t q i : Nat) (s : State) : Option Task :=
  let w := s.wq (qKey t q)
  match w.tasks.find? fun x => x.st == .ready with
  | some x => if x.idx = i then some x else none
  | none => none

/-- The wait of a DMA task holds now; with WAIT_TAKE the amount is taken (R187, R168). -/
def dmaWait (d : List Byte) (s : State) : Option State :=
  if !dmaWaitEn d then some s
  else
    let p := dmaWaitPeg d
    if s.bit (R.PEG_VAL_POISON p) ∨ s.peg p < dmaWaitN d then none
    else if dmaWaitTake d ∧ dmaWaitN d ≠ 0 then some (pegChanged p (s.set (R.PEG_VAL_VALUE p) (s.peg p - dmaWaitN d)))
    else some s

/-- DMA task `i` of kind `kind` acts by `eff` once its wait holds. -/
def dmaAct (t q i kind : Nat) (eff : Task → State → State) (s : State) : State :=
  match dmaReady t q i s with
  | none => s
  | some x =>
    if dmaKind x.desc ≠ kind then s
    else match dmaWait x.desc s with
    | none => s
    | some s' => eff x s'

/-- Destination pieces of every COPY in flight on the package, and of their sources. -/
def copiesInFlight (s : State) : List Task :=
  s.queues.flatMap fun (_, w) => w.tasks.filter fun x => x.st == .running && !x.dst.isEmpty

/-- A COPY starts (R187); overlapping ranges are case 7 of Table 14.1. -/
def copyStart (t q : Nat) (x : Task) (s : State) : State :=
  let clash := piecesMeet x.src x.dst || (copiesInFlight s).any fun y =>
    piecesMeet y.dst x.src || piecesMeet y.dst x.dst || piecesMeet x.dst y.src
  let s := putTask (qKey t q) { x with st := .running } s
  if clash then s.undef 7 else s

/-- The 64-byte blocks of home pieces. -/
def blocks64 (ps : List (Nat × Nat)) : List Nat := ps.flatMap fun p => (List.range (p.2 / 64)).map fun j => p.1 + j * 64

/-- A COPY finishes (R187, R188): a source block with an uncorrectable error leaves its destination bytes unwritten. -/
def copyFinish (t q i : Nat) (s : State) : State :=
  match (s.wq (qKey t q)).tasks.find? fun x => x.idx == i && x.st == .running && !x.dst.isEmpty with
  | none => s
  | some x =>
    let (bad, s) := ((blocks64 x.src).zip (blocks64 x.dst)).foldl (fun (bad, s) (a, b) =>
      let s := atHome a s
      if s.hasError a 64 then (true, eccError a s) else (bad, writeHome b (s.bytesAt a 64) s)) (false, s)
    dmaEnd t q i (if bad then 5 else 0) (if bad then 3 else 0) x.desc s

/-- A SIGNAL is performed (R187): locally at once; remotely it waits for its answer; without a route it ends FAULTED. -/
def signalStart (t q : Nat) (x : Task) (s : State) : State :=
  let sig := dmaSig x.desc
  let n := dmaSigN x.desc
  if !pegRemote sig then
    let p := sig % 65536
    if !pegOwned s t p then dmaEnd t q x.idx 5 6 x.desc s
    else if s.bit (R.PEG_VAL_POISON p) then dmaEnd t q x.idx 5 3 x.desc s
    else dmaEnd t q x.idx 0 0 x.desc (pegAddHome p n s)
  else
    let dst := nfld sig 32 16
    if !s.hasRoute dst then dmaEnd t q x.idx 5 5 x.desc s
    else
      let s := putTask (qKey t q) { x with st := .running, signal := some (s.dispSeq, sig % 2 ^ 28, dst) } s
      let s := sendRequest 0 t dst 4 0 3 s.dispSeq (sig % 2 ^ 28) (leBytes 3 n) s
      { s with dispSeq := (s.dispSeq + 1) % 2 ^ 32 }

/-- A remote SIGNAL has had no answer for 10 ms (R187). -/
def signalTimeout (t q i : Nat) (s : State) : State :=
  match (s.wq (qKey t q)).tasks.find? fun x => x.idx == i && x.signal.isSome with
  | none => s
  | some x => dmaEnd t q i 6 0 x.desc s

/-- The queue and task that wait for the answer to the dispatchers' request `iseq` with `addr` from package `src`. -/
def signalTask (src iseq addr : Nat) (s : State) : Option (Nat × Task) :=
  s.queues.findSome? fun (k, w) => (w.tasks.find? fun x => x.signal == some (iseq, addr, src)).map fun x => (k, x)

/-! ## Cancelling (R191) -/

/-- Task `i` is not RUNNING or final, and lies between RETIRE and TAIL. -/
def cancellable (t q i : Nat) (s : State) : Bool :=
  let r := s.get (R.DSP_Q_RETIRE t q)
  let n := (s.get (R.DSP_Q_TAIL t q) + 65536 - r) % 65536
  decide ((i + 65536 - r) % 65536 < n) && (match (s.wq (qKey t q)).task i with
    | some x => x.st == .ready
    | none => true)

/-- A tile task in an engine queue, held, or in a fallback queue is taken out of it. -/
def removeTile (t q i : Nat) (s : State) : Option Tile × State :=
  let isIt (x : Tile) : Bool := x.src == .queue t q i
  let w := s.wq (qKey t q)
  match w.held with
  | some x => if isIt x then (some x, s.putWq (qKey t q) { w with held := none }) else go isIt s
  | none => go isIt s
where
  go (isIt : Tile → Bool) (s : State) : Option Tile × State :=
    match (List.range 16).findSome? fun e => ((s.eng e).queue.find? isIt).map fun x => (e, x) with
    | some (e, x) =>
      let g := s.eng e
      (some x, s.putEng e { g with queue := g.queue.filter fun y => !isIt y })
    | none =>
      match (List.range 8).findSome? fun b => ((s.fallback b).find? isIt).map fun x => (b, x) with
      | some (b, x) => (some x, s.putFallback b ((s.fallback b).filter fun y => !isIt y))
      | none => (none, s)

/-- Task `i` becomes CANCELLED (R191): a QUEUED one has its descriptor fetched for its CPEG. -/
def cancelTask (t q i : Nat) (s : State) : State :=
  if !cancellable t q i s then s
  else
    match removeTile t q i s with
    | (some tile, s) => tileEnd tile outCancelled 0 s
    | (none, s) =>
      match (s.wq (qKey t q)).task i with
      | some x => dmaEnd t q i outCancelled 0 x.desc s
      | none =>
        match readDesc t q i s with
        | (.error _, s) => taskEnd t q i outCancelled 0 8 none (stopQueue t q 2 s)
        | (.ok d, s) =>
          if !pegOwned s t (descCpeg d) then taskEnd t q i outCancelled 0 8 none (stopQueue t q 5 s)
          else taskEnd t q i outCancelled 0 0 (some (descCpeg d)) s

/-- DSP_QCMD. -/
def qCmd : CmdReg := { status := R.DSP_QCMD_STATUS, ignored := R.DSP_QCMD_IGNORED, busy := [1], refused := none }

/-- The queue that DSP_QCMDARG names, and its INDEX. -/
def qArg (s : State) : Nat × Nat × Nat := (s.get R.DSP_QCMDARG_TENANT, s.get R.DSP_QCMDARG_QUEUE, s.get R.DSP_QCMDARG_INDEX)

/-- CANCEL_FROM (Table 7.8). -/
def cancelFromNow : State → State := cmdWrite qCmd fun s =>
  let (t, q, i) := qArg s
  let n := (s.get (R.DSP_Q_TAIL t q) + 65536 - i) % 65536
  let s := stopQueue t q (s.get (R.DSP_Q_ERR t q)) s
  let s := (List.range n).foldl (fun s j => cancelTask t q ((i + j) % 65536) s) s
  s.set R.DSP_QCMD_STATUS 2

/-- CANCEL_ONE (Table 7.8). -/
def cancelOneNow : State → State := cmdWrite qCmd fun s =>
  let (t, q, i) := qArg s
  (cancelTask t q i s).set R.DSP_QCMD_STATUS 2

/-- RESUME (Table 7.8). -/
def resumeNow : State → State := cmdWrite qCmd fun s =>
  let (t, q, _) := qArg s
  ((s.set (R.DSP_Q_ERR t q) 0).setBit (R.DSP_Q_STOPPED t q) false).set R.DSP_QCMD_STATUS 2

/-! ## What a block command ends (R173, R187, R183) -/

/-- The registered wait of each queue's waiting DMA task whose peg lies in range and no longer belongs to its tenant ends: FAULTED
with PEG_ALLOC. -/
def recheckDma (inRange : Nat → Bool) (s : State) : State :=
  s.queues.foldl (fun s (k, _) =>
    match (s.wq k).tasks.find? fun x => x.st == .ready with
    | some x =>
      let p := dmaWaitPeg x.desc
      if s.get (R.DSP_Q_TYPE (k / 256) (k % 256)) = 1 && dmaWaitEn x.desc && inRange p && !pegOwned s (k / 256) p then
        dmaEnd (k / 256) (k % 256) x.idx 5 6 x.desc s
      else s
    | none => s) s

/-- The doorbell takes of queues whose DBPEG lies in range and no longer belongs to the tenant fail: the queue stops. -/
def recheckTakes (inRange : Nat → Bool) (s : State) : State :=
  s.queues.foldl (fun s (k, _) =>
    let t := k / 256
    let q := k % 256
    let p := s.get (R.DSP_Q_DBPEG t q)
    if s.bit (R.DSP_Q_EN t q) && s.bit (R.DSP_Q_PEGDB t q) && !s.bit (R.DSP_Q_STOPPED t q) && inRange p && !pegOwned s t p then
      stopQueue t q 4 s
    else s) s

/-- A block command finishes (R173). -/
def blockComplete (s : State) : State :=
  match s.blkCmd with
  | none => s
  | some (cmd, first, count, _) =>
    let inRange (p : Nat) : Bool := decide (first ≤ p / 256 ∧ p / 256 < first + count)
    let s := recheckTakes inRange (recheckDma inRange (recheckWatches inRange (recheckHarts inRange s)))
    let s := if cmd = 1 then s else endUps inRange s
    let pegs := (s.harts.filterMap fun (_, h) => match h.wait with
      | .peg _ op _ _ => some (op % 65536)
      | .raise op _ _ => some (op % 65536 + 1)
      | _ => none).filter inRange
    let s := pegs.foldl (fun s p => pegChanged p s) s
    { s.set R.PEG_BLKCMD_STATUS 2 with blkCmd := none }

/-! ## Peg watches (R335) -/

/-- EN is written to watch `w` of function `f`: REFUSED and REVOKED clear; a 1 is checked against the function's tenant, registers the
watch, and fires it at once if its value is there. -/
def watchEn (f w : Nat) (en : Bool) (s : State) : State :=
  let s := ((s.setBit (R.HUB_PWATCH_EN f w) false).setBit (R.HUB_PWATCH_REFUSED f w) false).setBit (R.HUB_PWATCH_REVOKED f w) false
  let p := s.get (R.HUB_PWATCH_PEG f w)
  if !en then s
  else if f = 16 ∨ !pegOwned s f p then s.setBit (R.HUB_PWATCH_REFUSED f w) true
  else
    let s := s.setBit (R.HUB_PWATCH_EN f w) true
    if s.bit (R.PEG_VAL_POISON p) then s else fireWatches p s

/-! ## Commands -/

/-- ASSIGN (R172). -/
def execAssign (r : Requester) (s : State) : Out := .next (gated r 0x600404 (blockCommand 1) s)

/-- RELEASE (R172). -/
def execRelease (r : Requester) (s : State) : Out := .next (gated r 0x600404 (blockCommand 2) s)

/-- CLEAR (R172). -/
def execClear (r : Requester) (s : State) : Out := .next (gated r 0x600404 (blockCommand 3) s)

/-- BLOCK_COMMAND_COMPLETE (R173). -/
def execBlockCommandComplete (s : State) : Out := attempt blockComplete s

/-- DOORBELL (R182). -/
def execDoorbell (f : Fn) (off : BitVec 24) (val : BitVec 32) (s : State) : Out := attempt (doorbellWrite f off.toNat val.toNat) s

/-- PEG_DOORBELL_TAKE (R183). -/
def execPegDoorbellTake (t : Tenant) (q : QNum) (s : State) : Out :=
  .next (inBay (s.get (R.DSP_Q_HOME t.val q.val)) (doorbellTake t q) s)

/-- DESCRIPTOR_FETCH (R184). -/
def execDescriptorFetch (t : Tenant) (q : QNum) (s : State) : Out :=
  .next (inBay (s.get (R.DSP_Q_HOME t.val q.val)) (fetchIssue t q) s)

/-- DESCRIPTOR_RECEIVED (R190). -/
def execDescriptorReceived (t : Tenant) (q : QNum) (s : State) : Out :=
  attempt (inBay (s.get (R.DSP_Q_HOME t.val q.val)) (descArrived t q)) s

/-- ENGINE_QUEUE_ACCEPT (R184). -/
def execEngineQueueAccept (t : Tenant) (q : QNum) (s : State) : Out :=
  attempt (inBay (s.get (R.DSP_Q_HOME t.val q.val)) (heldAccept t q)) s

/-- DMA_NOP (R187). -/
def execDmaNop (t : Tenant) (q : QNum) (i : BitVec 16) (s : State) : Out :=
  attempt (inBay (s.get (R.DSP_Q_HOME t.val q.val)) (dmaAct t q i.toNat 0 fun x s => dmaEnd t q x.idx 0 0 x.desc s)) s

/-- DMA_COPY (R187). -/
def execDmaCopy (t : Tenant) (q : QNum) (i : BitVec 16) (s : State) : Out :=
  attempt (inBay (s.get (R.DSP_Q_HOME t.val q.val)) (dmaAct t q i.toNat 1 (copyStart t q))) s

/-- DMA_COPY_COMPLETE (R188). -/
def execDmaCopyComplete (t : Tenant) (q : QNum) (i : BitVec 16) (s : State) : Out :=
  attempt (inBay (s.get (R.DSP_Q_HOME t.val q.val)) (copyFinish t q i.toNat)) s

/-- DMA_SIGNAL (R187). -/
def execDmaSignal (t : Tenant) (q : QNum) (i : BitVec 16) (s : State) : Out :=
  attempt (inBay (s.get (R.DSP_Q_HOME t.val q.val)) (dmaAct t q i.toNat 2 (signalStart t q))) s

/-- DMA_SIGNAL_TIMEOUT (R187). -/
def execDmaSignalTimeout (t : Tenant) (q : QNum) (i : BitVec 16) (s : State) : Out :=
  attempt (inBay (s.get (R.DSP_Q_HOME t.val q.val)) (signalTimeout t q i.toNat)) s

/-- CANCEL_FROM (R191). -/
def execCancelFrom (r : Requester) (s : State) : Out := attempt (gated r 0x402004 cancelFromNow) s

/-- CANCEL_ONE (R191). -/
def execCancelOne (r : Requester) (s : State) : Out := attempt (gated r 0x402004 cancelOneNow) s

/-- RESUME (R191). -/
def execResume (r : Requester) (s : State) : Out := .next (gated r 0x402004 resumeNow s)

end Sys2Proof.Machine
end

