-- ==== Sys2Proof/Machine/Sync.lean ====
section
/-!
DEFINITION. The HS instructions of a hart (spec 02_cores_and_extensions.md, Table 2.12): peg operations, RAISE, and the HS fences
with the commit timeout (R63 to R71); and the timed release of a root raising (R180).
-/

namespace Sys2Proof.Machine

/-- PEG_ADD (R64). -/
def execPegAdd (c : Core) (f : RFields) (s : State) : Out := attempt (onHart c (pegAdd c f)) s

/-- PEG_SUB (R64). -/
def execPegSub (c : Core) (f : RFields) (s : State) : Out := attempt (onHart c (pegSub c f)) s

/-- PEG_WAITGE (R64). -/
def execPegWaitge (c : Core) (f : RFields) (s : State) : Out := attempt (onHart c (pegWaitge c f)) s

/-- PEG_TAKE (R64). -/
def execPegTake (c : Core) (f : RFields) (s : State) : Out := attempt (onHart c (pegTake c f)) s

/-- PEG_READ (R64). -/
def execPegRead (c : Core) (f : RFields) (s : State) : Out := attempt (onHart c (pegRead c f)) s

/-- RAISE (R177). -/
def execRaise (c : Core) (f : RFields) (s : State) : Out := attempt (onHart c (raiseInstr c f)) s

/-- TIMED_RELEASE (R180). -/
def execTimedRelease (k : Fin 256) (s : State) : Out := .next (timedRelease k s)

/-- An HS fence of hart `c` with effect `eff` (R55: illegal below M mode without HS_EN, or with a
non-zero field that Table 2.12 marks zero). -/
def hsFence (c : Nat) (zero : Bool) (eff : State → State) (s : State) : State :=
  if hsIllegal (s.hart c) || !zero then illegal c s else eff s

/-- HFENCE.REL (R68): every dirty line is written back; earlier accesses and local peg operations are complete already, since the
model performs each when it executes. -/
def hfenceRel (c : Nat) (f : RFields) (s : State) : State := 
  hsFence c (f.rd == 0 && f.rs1 == 0 && f.rs2 == 0) (fun s => retire c (l1dWriteBack c s)) s

/-- HFENCE.ACQ (R69): every clean line is invalidated. -/
def hfenceAcq (c : Nat) (f : RFields) (s : State) : State := 
  hsFence c (f.rd == 0 && f.rs1 == 0 && f.rs2 == 0) (fun s => retire c (l1dInvalidate c s)) s

/-- Result of a commit fence (Table 2.13). -/
def commitResult (status nacked oldest : Nat) : Nat := status + 2 ^ 16 * min nacked 0xFFFF + 2 ^ 32 * oldest

/-- A commit fence whose covered requests are all answered retires: COMPLETE or FAULTED (R70). -/
def commitRetire (c : Nat) (rd : XReg) (s : State) : State :=
  let h := s.hart c
  let v := commitResult (if h.nacked = 0 then 0 else 1) h.nacked 0
  wakeRd c rd v (s.putHart c { h with nacked := 0 })

/-- HFENCE.COMMIT (R70): as HFENCE.REL, then it waits while a covered request has no answer. -/
def hfenceCommit (c : Nat) (f : RFields) (s : State) : State :=
  hsFence c (f.rs1 == 0 && f.rs2 == 0) (fun s =>
    let s := l1dWriteBack c s
    let h := s.hart c
    if h.track.isEmpty then commitRetire c f.rd s else s.putHart c { h with wait := .commit s.time64 f.rd }) s

/-- hcommitto expires on a waiting commit fence (R70): LOST, and the tracker is cleared. hcommitto = 0 disables it (Table 2.3). -/
def commitTimeout (c : Nat) (s : State) : State :=
  let h := s.hart c
  match h.wait with
  | .commit _ rd =>
    if h.commitTo = 0 then s else
    let oldest := match h.track with
      | e :: _ => e.seq
      | [] => 0
    let v := commitResult 2 h.nacked oldest
    wakeRd c rd v (s.putHart c { h with nacked := 0, track := [], lost := h.lost ++ h.track })
  | _ => s

/-- HFENCE_REL (R68). -/
def execHfenceRel (c : Core) (f : RFields) (s : State) : Out := attempt (onHart c (hfenceRel c f)) s

/-- HFENCE_ACQ (R69). -/
def execHfenceAcq (c : Core) (f : RFields) (s : State) : Out := .next (onHart c (hfenceAcq c f) s)

/-- HFENCE_COMMIT (R70). -/
def execHfenceCommit (c : Core) (f : RFields) (s : State) : Out := attempt (onHart c (hfenceCommit c f)) s

/-- COMMIT_TIMEOUT (R70). -/
def execCommitTimeout (c : Core) (s : State) : Out := .next (commitTimeout c s)

end Sys2Proof.Machine
end

