-- ==== Sys2Proof/Machine/Remote.lean ====
section
/-!
DEFINITION. Remote access (spec 06_memory_and_remote_access.md, R147 to R163): the remote agent's performance of requests, the
answers to this package's own requests, the host aperture, invalidation, fabric tags and patrol scrubbing.
-/

namespace Sys2Proof.Machine

/-! ## Requests that arrive -/

/-- The tenant served under fabric tag `tag` (R151). -/
def tagTenant (s : State) (tag : Nat) : Option Nat :=
  (List.range 16).find? fun t => s.bit (R.MEM_FTAG_VALID t) && s.get (R.MEM_FTAG_TAG t) == tag

/-- A request of the package to itself leaves its own queue when it arrives (R153). -/
def takeOwn (env : Envelope) (op : Nat) (x : XBody) (s : State) : State :=
  if env.src.toNat = s.pkg then
    { s with fabricOut := s.fabricOut.erase { cls := opClass op, dst := s.pkg, src := s.pkg, flow := env.flow.toNat, x := { op := BitVec.ofNat 8 op, body := x } } }
  else s

/-- A NACK with a reason code, and for a WRITE the number of bytes performed (Table 8.4). -/
def nack (env : Envelope) (x : XBody) (reason : Nat) (data : List Byte) (s : State) : State := sendAnswer env x 0x13 reason data s

/-- A request is served under tenant `t` by `eff`, or answered NO_TENANT (R151). -/
def serve (env : Envelope) (op : Nat) (x : XBody) (eff : Nat → State → State) (s : State) : State :=
  let s := takeOwn env op x s
  if s.packageResetting then s
  else match tagTenant s x.ftag.toNat with
  | none => nack env x 4 [] (s.incWrap R.MEM_NOTENANT_COUNT)
  | some t => eff t s

/-- A request of tenant `t` has been performed, or NACKed with `reason`. -/
def served (t : Nat) (s : State) : State := s.incWrap (R.MEM_RCNT_SERVED t)
def refusedReq (env : Envelope) (t : Nat) (x : XBody) (reason : Nat) (data : List Byte) (s : State) : State :=
  nack env x reason data (s.incWrap (R.MEM_RCNT_NACKED t))

/-- Home pieces reach a core-store window while a compute reset runs: no answer (R364). -/
def silentCore (s : State) (ks : List (Nat × Nat)) : Bool := s.computeResetting && ks.any fun p => inCoreStore p.1

/-- The pieces of a WRITE page by page (R79): the passing ones are written; result: bytes written and the first failure. -/
def writePages (t : Nat) : List (Nat × Nat) → List Byte → State → Nat × Option AgentErr × State
  | [], _, s => (0, none, s)
  | (va, m) :: r, bs, s =>
    match agentXlate t va true s with
    | (.ok k, s) =>
      let (n, e, s) := writePages t r (bs.drop m) (writeHome k (bs.take m) s)
      (n + m, e, s)
    | (.error e, s) =>
      let (n, _, s) := writePages t r (bs.drop m) s
      (n, some e, s)

/-- Home keys of an agent's range, without effect on the caches. -/
def rangeKeys (t va n : Nat) (wr : Bool) (s : State) : List (Nat × Nat) :=
  (pagePieces va n (n + 1)).filterMap fun p => match (agentXlate t p.1 wr s).1 with
    | .ok k => some (k, p.2)
    | .error _ => none

/-- WRITE (R152, R154). -/
def remoteWrite (env : Envelope) (x : XBody) : State → State := serve env 1 x fun t s =>
  let va := sext48 x.addr.toNat
  if silentCore s (rangeKeys t va x.data.length true s) then s
  else
    match writePages t (pagePieces va x.data.length (x.data.length + 1)) x.data s with
    | (_, none, s) => sendAnswer env x 0x12 0 [] (served t s)
    | (n, some e, s) => refusedReq env t x e.code (leBytes 4 n) s

/-- READ (R152). -/
def remoteRead (env : Envelope) (x : XBody) : State → State := serve env 2 x fun t s =>
  let va := sext48 x.addr.toNat
  if silentCore s (rangeKeys t va x.size.toNat false s) then s
  else
    match agentRead t va x.size.toNat s with
    | (.ok bs, s) => sendAnswer env x 0x11 0 bs (served t s)
    | (.error e, s) => refusedReq env t x e.code [] s

/-- The new value of an atomic operation (Table 2.17) on `w`-byte values: old, operand, compare value. -/
def amoResult (op w old opd cmp : Nat) : Nat :=
  let m := 2 ^ (8 * w)
  let so := toSigned (8 * w) old
  let sp := toSigned (8 * w) opd
  match op with
  | 0 => (old + opd) % m
  | 1 => opd
  | 2 => old &&& opd
  | 3 => old ||| opd
  | 4 => old ^^^ opd
  | 5 => if so < sp then opd else old
  | 6 => if sp < so then opd else old
  | 7 => max old opd
  | 8 => min old opd
  | _ => if old = cmp then opd else old

/-- AMO (R80, R152). -/
def remoteAmo (env : Envelope) (x : XBody) : State → State := serve env 3 x fun t s =>
  let op := x.attr.toNat
  let n := x.data.length
  let w := if op = 9 then n / 2 else n
  if 9 < op ∨ x.size.toNat ≠ n ∨ ¬(w = 4 ∨ w = 8) ∨ (op = 9 ∧ n % 2 = 1) then refusedReq env t x 2 [] s
  else
    let va := sext48 x.addr.toNat
    if silentCore s (rangeKeys t va w true s) then s
    else
      match agentRange t true (pagePieces va w (w + 1)) s with
      | (.error e, s) => refusedReq env t x e.code [] s
      | (.ok ks, s) =>
        match readPieces s ks with
        | .error k => refusedReq env t x 3 [] (eccError k s)
        | .ok bs =>
          let new := amoResult op w (leNat bs) (leNat (x.data.take w)) (leNat (x.data.drop w))
          sendAnswer env x 0x14 0 bs (served t (writePieces ks (leBytes w new) s))

/-- The checks of R175 on a remote peg operation: performed by `eff` on the peg, dropped, or NACKed. A compute reset leaves it
unanswered (R364). -/
def remotePeg (env : Envelope) (op : Nat) (x : XBody) (eff : Nat → Nat → State → State) : State → State := serve env op x fun t s =>
  let p := nfld x.addr.toNat 0 20
  if s.computeResetting then s
  else if p < 65536 ∧ nfld x.addr.toNat 20 8 ≠ s.get (R.PEG_BLK_GEN (p / 256)) then
    sendAnswer env x 0x12 0 [] (s.incWrap (R.MEM_RCNT_GEN_DROP t))
  else if !pegOwned s t p then refusedReq env t x 6 [] s
  else if s.bayDead (p / 8192) then s.stall
  else if s.bit (R.PEG_VAL_POISON p) then refusedReq env t x 3 [] s
  else eff t p s

/-- PEG_ADD (R154). -/
def remotePegAdd (env : Envelope) (x : XBody) : State → State := remotePeg env 4 x fun t p s =>
  sendAnswer env x 0x12 0 [] (served t (pegAddHome p (leNat (x.data.take 3)) s))

/-- PEG_SUB (R158): an underflow is answered with ACK_UNDERFLOW and the value before the subtraction. -/
def remotePegSub (env : Envelope) (x : XBody) : State → State := remotePeg env 5 x fun t p s =>
  let n := leNat (x.data.take 3)
  let old := s.peg p
  let s := served t (pegSubHome p n s)
  if n > old then sendAnswer env x 0x15 0 (leBytes 3 old) s else sendAnswer env x 0x12 0 [] s

/-- RAISE_UP (R178): counted as one arrival, its answer held. With 1,024 held, it waits in the link's buffers. -/
def remoteRaise (env : Envelope) (x : XBody) (s : State) : State :=
  if 1024 ≤ s.upHeld.length then s
  else remotePeg env 6 x (fun t p s =>
    let n := leNat (x.data.take 2)
    if p % 2 = 1 ∨ n = 0 then refusedReq env t x 6 [] s
    else if s.bit (R.PEG_VAL_POISON (p + 1)) then refusedReq env t x 3 [] s
    else
      let ph := s.peg (p + 1) % 2
      arrive p n (served t { s with upHeld := s.upHeld ++ [{ cpeg := p, phase := ph, src := env.src.toNat, flow := env.flow.toNat, x := x }] })) s

/-! ## Answers that arrive -/

/-- A request of this package's harts from before a compute reset is answered (R364): discarded and counted, until 10 s after DONE. -/
def isStale (env : Envelope) (x : XBody) (s : State) : Bool :=
  s.stale.contains (x.core.toNat, x.iseq.toNat, env.src.toNat) && (s.computeResetting || decide (timeDiff s.time64 s.doneAt < 10 * 2 ^ 32))

/-- An answer to `x` is handled by `eff` unless it belongs to a request from before a compute reset. -/
def onAnswer (env : Envelope) (op : Nat) (x : XBody) (eff : State → State) (s : State) : State :=
  let s := takeOwn env op x s
  if isStale env x s then
    { s.incSat R.HUB_RESET_CNT_LATE_RESP with stale := s.stale.erase (x.core.toNat, x.iseq.toNat, env.src.toNat) }
  else eff s

/-- Value of a loaded datum of `n` bytes in a register. -/
def loadValue (n : Nat) (unsigned : Bool) (v : Nat) : Nat := if unsigned then v else ofSigned 64 (toSigned (8 * n) v)

/-- The vector register group from `vd` with `bs` in its first bytes. -/
def Hart.putV (h : Hart) (vd : XReg) (bs : List Byte) : Hart :=
  { h with v := ((List.range bs.length).zip bs).foldl (fun v p => tset 0 (vd.toNat * 128 + p.1) p.2 v) h.v }

/-- Byte `i` of the vector register group from `vs`. -/
def Hart.vByte (h : Hart) (vs : XReg) (i : Nat) : Byte := tget 0 h.v (vs.toNat * 128 + i)

/-- mstatus.VS or FS or XS becomes Dirty (3). -/
def Hart.dirtyV (h : Hart) : Hart := h.setMst 9 2 3
def Hart.dirtyF (h : Hart) : Hart := h.setMst 13 2 3
def Hart.dirtyX (h : Hart) : Hart := h.setMst 15 2 3

/-- READ_DATA (R77): the waiting GLD completes, or the waiting VGLD once every part is there. -/
def readDataArrived (env : Envelope) (x : XBody) (s : State) : State :=
  let c := x.core.toNat
  let h := s.hart c
  match h.wait with
  | .gld req addr size u rd =>
    if req = x.iseq.toNat ∧ nfld addr 48 16 = env.src.toNat ∧ addr % 2 ^ 48 = x.addr.toNat then
      wakeRd c rd (loadValue size u (leNat (x.data.take size))) s
    else s
  | .vgld req addr elem vl vd got =>
    if req = x.iseq.toNat ∧ nfld addr 48 16 = env.src.toNat then
      let off := (x.addr.toNat + 2 ^ 48 - addr % 2 ^ 48) % 2 ^ 48
      let got := tput off x.data got
      let bs := got.flatMap Prod.snd
      if bs.length < elem * vl then s.putHart c { h with wait := .vgld req addr elem vl vd got }
      else s.putHart c { ((h.putV vd (bs.take (elem * vl))).dirtyV).retire with wait := .none }
    else s
  | _ => s

/-- AMO_DATA (R77, R80): the waiting GAMO completes; W-sized results are sign-extended. -/
def amoDataArrived (env : Envelope) (x : XBody) (s : State) : State :=
  let c := x.core.toNat
  match (s.hart c).wait with
  | .gamo req addr size rd =>
    if req = x.iseq.toNat ∧ nfld addr 48 16 = env.src.toNat then wakeRd c rd (loadValue size false (leNat (x.data.take size))) s else s
  | _ => s

/-- Destination package of a tracked request. -/
def TrackEnt.dst (e : TrackEnt) : Nat :=
  match e.kind with
  | .write => nfld e.addr 48 16
  | _ => nfld e.addr 32 16

/-- The entry answers a transaction from package `src` with sequence number `q` and ADDR `a`. -/
def TrackEnt.fits (e : TrackEnt) (src q a : Nat) : Bool := e.seq == q && e.dst == src && e.parts.any fun p => p.1 == a

/-- The entry with the part at `a` answered, `n` more bytes performed, and the reason of the first NACK kept. -/
def TrackEnt.answered (e : TrackEnt) (a n : Nat) (reason : Option Nat) : TrackEnt :=
  { e with parts := e.parts.filter fun p => p.1 != a, left := e.left - 1, done := e.done + n,
           reason := match e.reason with
             | some r => some r
             | none => reason }

/-- The record of a NACKed request (Table 6.4, R79). -/
def nackRecord (e : TrackEnt) (afterLost : Bool) : FqRec :=
  { kind := match e.kind with
      | .write => 1
      | _ => 2
    reason := e.reason.getD 0, tenant := e.tenant, afterLost := afterLost, isPartial := e.elem != 0 && e.done != 0, seq := e.seq,
    addr := e.addr, operand := e.operand, detail := if e.elem != 0 && e.done != 0 then e.done / e.elem else 0 }

/-- The record of an underflow reported by ACK_UNDERFLOW (R158). -/
def underflowRecord (e : TrackEnt) (afterLost : Bool) (old : Nat) : FqRec :=
  { kind := 3, reason := 0, tenant := e.tenant, afterLost := afterLost, isPartial := false, seq := e.seq, addr := e.addr,
    operand := e.operand, detail := old }

/-- A commit fence whose covered requests are all answered retires (R70). -/
def commitCheck (c : Nat) (s : State) : State :=
  let h := s.hart c
  match h.wait with
  | .commit _ rd => if h.track.isEmpty then commitRetire c rd s else s
  | _ => s

/-- Hart `c`'s tracked request `e` has a further answer: `e'`. With its last one it leaves the tracker; a NACKed one writes its record
and counts for the fence (R77, R79, R157). -/
def trackAnswer (c : Nat) (e e' : TrackEnt) (s : State) : State :=
  let h := s.hart c
  if e'.left ≠ 0 then s.putHart c { h with track := h.track.map fun y => if y = e then e' else y }
  else
    let h := { h with track := h.track.erase e }
    let s := match e'.reason with
      | some _ => fqWrite c (nackRecord e' false) (s.putHart c { h with nacked := h.nacked + 1 })
      | none => s.putHart c h
    commitCheck c s

/-- A record that arrives after a LOST commit fence (R159). -/
def lateRecord (c : Nat) (r : FqRec) (s : State) : State :=
  if (s.hart c).tenant = r.tenant then fqWrite c r s else s.incSat (R.MEM_HXCNT_MISROUTED c)

/-- The lost request `e` of hart `c` has a further answer: `e'`. -/
def lostAnswer (c : Nat) (e e' : TrackEnt) (s : State) : State :=
  let h := s.hart c
  s.putHart c { h with lost := if e'.left = 0 then h.lost.erase e else h.lost.map fun y => if y = e then e' else y }

/-- What an answer names among this package's own requests: a tracked or lost request of a hart, a dispatcher's SIGNAL, an up-arrival. -/
inductive AnswerTo where
  | tracked (c : Nat) (e : TrackEnt)
  | lost (c : Nat) (e : TrackEnt)
  | signal (k : Nat) (t : Task)
  | link (u : UpSent)
  | nothing

/-- The up-arrival that an answer names: ISEQ is its entry's number, one of 256, and its count peg one of 65,536 (log entry 12). -/
def linkAnswered (env : Envelope) (x : XBody) (s : State) : Option UpSent :=
  s.upSent.find? fun u =>
    u.entry == x.iseq.toNat && decide (u.entry < 256) && decide (u.count < 65536) && u.pkg == env.src.toNat && u.peg == nfld x.addr.toNat 0 20

/-- The request that an ACK, a NACK or an ACK_UNDERFLOW answers. -/
def answerTo (env : Envelope) (x : XBody) (s : State) : AnswerTo :=
  let c := x.core.toNat
  let h := s.hart c
  let fit (e : TrackEnt) : Bool := e.fits env.src.toNat x.iseq.toNat x.addr.toNat
  match h.track.find? fit with
  | some e => .tracked c e
  | none =>
    match h.lost.find? fit with
    | some e => .lost c e
    | none =>
      match signalTask env.src.toNat x.iseq.toNat x.addr.toNat s with
      | some (k, t) => .signal k t
      | none =>
        match linkAnswered env x s with
        | some u => .link u
        | none => .nothing

/-- Bytes of the part at `a`. -/
def TrackEnt.partLen (e : TrackEnt) (a : Nat) : Nat := tget 0 e.parts a

/-- An up-arrival was dropped or NACKed (R179): its entry is in FAULT, with its tenant's summary flag. -/
def linkFault (u : UpSent) (s : State) : State :=
  setTsum 3 (pegOwner s u.count) { s.set (R.PEG_RLINK_STATE u.entry) 2 with upSent := s.upSent.erase u }

/-- ACK (R70, R77, R79, R159). -/
def ackArrived (env : Envelope) (x : XBody) (s : State) : State :=
  let a := x.addr.toNat
  match answerTo env x s with
  | .tracked c e => trackAnswer c e (e.answered a (e.partLen a) none) s
  | .lost c e => lostAnswer c e (e.answered a (e.partLen a) none) (s.incSat (R.MEM_HXCNT_LATE_ACK c))
  | .signal k t => dmaEnd (k / 256) (k % 256) t.idx 0 0 t.desc s
  | .link u => linkFault u s
  | .nothing => s

/-- NACK (R77, R79, R159, R179); of a GLD, VGLD or GAMO it raises the remote access fault. -/
def nackArrived (env : Envelope) (x : XBody) (s : State) : State :=
  let a := x.addr.toNat
  let reason := x.attr.toNat
  let c := x.core.toNat
  let mine (req addr : Nat) : Bool := req == x.iseq.toNat && nfld addr 48 16 == env.src.toNat
  match (s.hart c).wait with
  | .gld req addr _ _ _ => if mine req addr && addr % 2 ^ 48 == a then remoteFault c addr reason s else other a reason s
  | .vgld req addr _ _ _ _ => if mine req addr then remoteFault c addr reason s else other a reason s
  | .gamo req addr _ _ => if mine req addr && addr % 2 ^ 48 == a then remoteFault c addr reason s else other a reason s
  | _ => other a reason s
where
  other (a reason : Nat) (s : State) : State :=
    match answerTo env x s with
    | .tracked c e => trackAnswer c e (e.answered a (leNat (x.data.take 4)) (some reason)) s
    | .lost c e =>
      let e' := e.answered a (leNat (x.data.take 4)) (some reason)
      if e.reported then lostAnswer c e e' s
      else
        let s := lostAnswer c e { e' with reported := true } s
        lateRecord c (nackRecord e' true) (if (s.hart c).tenant = e.tenant then s.incSat (R.MEM_HXCNT_LATE_NACK c) else s)
    | .signal k t => dmaEnd (k / 256) (k % 256) t.idx 5 reason t.desc s
    | .link u => linkFault u s
    | .nothing => s

/-- ACK_UNDERFLOW (R158, R159). -/
def ackUnderflowArrived (env : Envelope) (x : XBody) (s : State) : State :=
  let a := x.addr.toNat
  let old := leNat (x.data.take 4)
  match answerTo env x s with
  | .tracked c e =>
    let h := s.hart c
    commitCheck c (fqWrite c (underflowRecord e false old) (s.putHart c { h with track := h.track.erase e }))
  | .lost c e =>
    lateRecord c (underflowRecord e true old) (lostAnswer c e (e.answered a 0 none) (s.incSat (R.MEM_HXCNT_LATE_ACK c)))
  | .signal k t => dmaEnd (k / 256) (k % 256) t.idx 0 0 t.desc s
  | .link _ => s
  | .nothing => s

/-- RAISE_ANSWER (R178): the child flips its sense peg, which releases its harts. -/
def raiseAnswerArrived (env : Envelope) (x : XBody) (s : State) : State :=
  match linkAnswered env x s with
  | some u => raiseRelease u.count (s.peg (u.count + 1) % 2) (some u.entry) { s with upSent := s.upSent.erase u }
  | none => s

/-! ## The host aperture (R148, R325) -/

/-- Home pieces of a BAR2 access of function `f`, `none` where it is unsupported. -/
def barPieces (f off n : Nat) (wr : Bool) (s : State) : Option (List (Nat × Nat)) × State :=
  if f = 16 then (none, s)
  else if f = 0 then
    let a := s.get (R.MEM_APER_BASE 0) / 16 * 16 * 2 ^ 32 + off
    let ps := (pagePieces a n (n + 1)).map fun p => match s.place p.1 with
      | .mem k => some (k, p.2)
      | _ => none
    (if ps.all Option.isSome then some (ps.filterMap id) else none, s)
  else
    match agentRange f wr (pagePieces (sext48 (s.get (R.MEM_APER_BASE f) * 2 ^ 32 + off % 2 ^ 32)) n (n + 1)) s with
    | (.ok ks, s) => (some ks, s)
    | (.error _, s) => (none, s)

/-- A host read through BAR2. -/
def bar2Read (f off n : Nat) (s : State) : State :=
  if !s.decodes f then s.answer .unsupported
  else if !s.bit R.HUB_LEVEL_STAT_WRITTEN then (s.incSat R.HUB_LEVEL_STAT_PRE_LEVEL).answer .unsupported
  else match barPieces f off n false s with
  | (none, s) => s.answer .unsupported
  | (some ks, s) =>
    if silentCore s ks then s.answer .unsupported
    else if ks.any (fun p => s.memStopped p.1) then s.stall
    else
      let (bs, bad, s) := readHome ks s
      s.answer (if bad then .poisoned bs else .data bs)

/-- A host write through BAR2. -/
def bar2Write (f off : Nat) (bs : List Byte) (s : State) : State :=
  if !s.decodes f then s
  else if !s.bit R.HUB_LEVEL_STAT_WRITTEN then s.incSat R.HUB_LEVEL_STAT_PRE_LEVEL
  else match barPieces f off bs.length true s with
  | (none, s) => s.aerReport f
  | (some ks, s) => if silentCore s ks then s else writePieces ks bs s

/-! ## Scrubbing, invalidation, fabric tags -/

/-- The parity check of peg `p` fails (R162): it is poisoned, and the summary of the tenant whose block it lies in says so. -/
def poisonPeg (p : Nat) (s : State) : State :=
  let t := pegOwner s p
  let u := s.setBit (R.PEG_VAL_POISON p) true
  if pegOwned s t p then setTsum 2 t u else u

/-- A patrol-scrub read of the location at local physical address `a` (R161, R163). The table has no row for the parity failure of a peg
(R162); it is what an uncorrectable find at the peg's PEG_VAL in device control space stands for (log entry 37). -/
def scrub (a : Nat) (found : EccFind) (s : State) : State :=
  match s.place a with
  | .mem k =>
    match found with
    | .clean => s
    | .corrected => s.incWrap (R.MEM_ECC_CE (eccIndex k))
    | .uncorrectable =>
      let s := eccError k s
      if inHbm k then { s with poison := if s.poison.contains (k / 64) then s.poison else s.poison ++ [k / 64] }
      else { s with badWords := if s.badWords.contains (k / 8) then s.badWords else s.badWords ++ [k / 8] }
  | .device o => if found = .uncorrectable ∧ 0x610000 ≤ o ∧ o < 0x650000 then poisonPeg ((o - 0x610000) / 4) s else s
  | .unmapped => s

/-- MEM_INVAL_CMD. -/
def invalCmd : CmdReg := { status := R.MEM_INVAL_CMD_STATUS, ignored := R.MEM_INVAL_CMD_IGNORED, busy := [1], refused := none }

/-- INVALIDATE starts (R149): it works on MEM_INVAL_ARG as it is now. -/
def invalStart : State → State := cmdWrite invalCmd fun s =>
  { s.set R.MEM_INVAL_CMD_STATUS 1 with
    inval := some { tenant := s.get R.MEM_INVAL_ARG_TENANT, scope := s.get R.MEM_INVAL_ARG_SCOPE, vpn := s.get R.MEM_INVAL_ARG_VPN,
                    asid := s.get R.MEM_INVAL_ARG_ASID } }

/-- A cached translation falls inside the invalidation `a` (R149). -/
def invalHits (a : InvalArg) (e : TlbEnt) : Bool :=
  let page := a.vpn / 2 ^ (9 * e.level) == e.vpn / 2 ^ (9 * e.level)
  let asid := e.asid == a.asid && !nbit e.pte 5
  e.tenant == a.tenant && (if a.scope = 0 then true else if a.scope = 1 then asid else if a.scope = 2 then page else page && asid)

/-- A list of cached translations without those that the invalidation removes. -/
def invalKeep (s : State) (es : List TlbEnt) : List TlbEnt :=
  match s.inval with
  | some a => es.filter fun e => !invalHits a e
  | none => es

/-- The invalidation is complete (R149): the entries are gone from every translation cache, and STATUS reads DONE. -/
def invalDone (s : State) : State :=
  if s.get R.MEM_INVAL_CMD_STATUS ≠ 1 then s
  else
    { s.set R.MEM_INVAL_CMD_STATUS 2 with
      atc := invalKeep s s.atc
      harts := s.harts.map fun (c, h) => (c, { h with tlb := invalKeep s h.tlb }) }

/-- A write of MEM_FTAG[t] (R151): a duplicate of another valid tag is refused. -/
def ftagWrite (t v : Nat) (s : State) : State :=
  let s := s.set (R.MEM_FTAG_TAG t) (nfld v 0 16)
  if nbit v 31 && (List.range 16).any fun u => u != t && s.bit (R.MEM_FTAG_VALID u) && s.get (R.MEM_FTAG_TAG u) == nfld v 0 16 then
    (s.setBit (R.MEM_FTAG_VALID t) false).setBit R.MEM_STAT_TAG_DUP true
  else s.setBit (R.MEM_FTAG_VALID t) (nbit v 31)

/-! ## Commands -/

/-- WRITE (R152). -/
def execWrite (env : Envelope) (x : XBody) (s : State) : Out := attempt (remoteWrite env x) s

/-- READ (R152). -/
def execRead (env : Envelope) (x : XBody) (s : State) : Out := attempt (remoteRead env x) s

/-- AMO (R152). -/
def execAmo (env : Envelope) (x : XBody) (s : State) : Out := attempt (remoteAmo env x) s

/-- PEG_ADD_OP (R175). -/
def execPegAddOp (env : Envelope) (x : XBody) (s : State) : Out := attempt (remotePegAdd env x) s

/-- PEG_SUB_OP (R158). -/
def execPegSubOp (env : Envelope) (x : XBody) (s : State) : Out := attempt (remotePegSub env x) s

/-- RAISE_UP (R178). -/
def execRaiseUp (env : Envelope) (x : XBody) (s : State) : Out := attempt (remoteRaise env x) s

/-- READ_DATA (R77). -/
def execReadData (env : Envelope) (x : XBody) (s : State) : Out := .next (onAnswer env 0x11 x (readDataArrived env x) s)

/-- AMO_DATA (R77). -/
def execAmoData (env : Envelope) (x : XBody) (s : State) : Out := .next (onAnswer env 0x14 x (amoDataArrived env x) s)

/-- ACK (R70). -/
def execAck (env : Envelope) (x : XBody) (s : State) : Out := attempt (onAnswer env 0x12 x (ackArrived env x)) s

/-- NACK (R77). -/
def execNack (env : Envelope) (x : XBody) (s : State) : Out := attempt (onAnswer env 0x13 x (nackArrived env x)) s

/-- ACK_UNDERFLOW (R158). -/
def execAckUnderflow (env : Envelope) (x : XBody) (s : State) : Out := attempt (onAnswer env 0x15 x (ackUnderflowArrived env x)) s

/-- RAISE_ANSWER (R178). -/
def execRaiseAnswer (env : Envelope) (x : XBody) (s : State) : Out := .next (onAnswer env 0x16 x (raiseAnswerArrived env x) s)

/-- BAR2_READ (R148). -/
def execBar2Read (f : Fn) (off : BitVec 36) (len : Nat) (s : State) : Out := attempt (bar2Read f off.toNat len) s

/-- BAR2_WRITE (R148). -/
def execBar2Write (f : Fn) (off : BitVec 36) (data : List Byte) (s : State) : Out := attempt (bar2Write f off.toNat data) s

/-- PATROL_SCRUB (R163). -/
def execPatrolScrub (addr : BitVec 48) (found : EccFind) (s : State) : Out := .next (scrub addr.toNat found s)

/-- INVALIDATE (R149). -/
def execInvalidate (r : Requester) (s : State) : Out := .next (gated r 0x500010 invalStart s)

/-- INVALIDATE_COMPLETE (R149). -/
def execInvalidateComplete (s : State) : Out := .next (invalDone s)

end Sys2Proof.Machine
end

