-- ==== Sys2Proof/Machine/Hm.lean ====
section
/-!
DEFINITION. The HM instructions of a hart (spec 02_cores_and_extensions.md, R56 to R62; 03_number_formats.md, R84 to R91): tile
and accumulator moves, the exact multiply-accumulate with one rounding, and the conversions.
-/

namespace Sys2Proof.Machine

/-! ## Operand elements -/

/-- Element types of MMA operands (Table 2.8). -/
inductive ElemTy where
  | e4m3 | e5m2 | int8 | bf16 | fp16 | int4 | e2m1 | mxint8
  deriving DecidableEq, Repr

/-- Width of an element in bits. -/
def ElemTy.width : ElemTy → Nat
  | .bf16 => 16
  | .fp16 => 16
  | .int4 => 4
  | .e2m1 => 4
  | _ => 8

/-- The type has no negative zero: it is an integer code. -/
def ElemTy.isInt : ElemTy → Bool
  | .int8 => true
  | .int4 => true
  | .mxint8 => true
  | _ => false

/-- The number that element code `c` stands for (Table 3.1). -/
def ElemTy.value (t : ElemTy) (c : Nat) : FVal :=
  match t with
  | .e4m3 => decodeF Sys2Proof.Machine.e4m3 c
  | .e5m2 => decodeF Sys2Proof.Machine.e5m2 c
  | .bf16 => decodeF Sys2Proof.Machine.bf16 c
  | .fp16 => decodeF Sys2Proof.Machine.fp16 c
  | .e2m1 => decodeF Sys2Proof.Machine.e2m1 c
  | .int8 => ofInt (toSigned 8 c)
  | .int4 => ofInt (toSigned 4 c)
  | .mxint8 => let n := toSigned 8 c; .fin (decide (n < 0)) n.natAbs (-6)

/-- An MMA format (Table 2.8): element types of A and Bᵀ, rows of A, elements of K, and whether MX scales apply. -/
structure MmaFmt where
  a : ElemTy
  b : ElemTy
  m : Nat
  k : Nat
  mx : Bool
  deriving DecidableEq, Repr

/-- Format of an MMA by funct7 (Table 2.8); `none` for a code that is not listed. -/
def mmaFmt (f : Nat) : Option MmaFmt :=
  match f with
  | 0x00 => some ⟨.e4m3, .e4m3, 32, 32, false⟩
  | 0x01 => some ⟨.e5m2, .e5m2, 32, 32, false⟩
  | 0x02 => some ⟨.e4m3, .e5m2, 32, 32, false⟩
  | 0x03 => some ⟨.e5m2, .e4m3, 32, 32, false⟩
  | 0x04 => some ⟨.int8, .int8, 32, 32, false⟩
  | 0x08 => some ⟨.bf16, .bf16, 16, 32, false⟩
  | 0x09 => some ⟨.fp16, .fp16, 16, 32, false⟩
  | 0x0C => some ⟨.int4, .int4, 32, 64, false⟩
  | 0x0D => some ⟨.e2m1, .e2m1, 32, 64, true⟩
  | 0x10 => some ⟨.e4m3, .e4m3, 32, 32, true⟩
  | 0x11 => some ⟨.e5m2, .e5m2, 32, 32, true⟩
  | 0x12 => some ⟨.mxint8, .mxint8, 32, 32, true⟩
  | _ => none

/-- Byte `i` of the tile registers from tile `t` on. -/
def Hart.tileByte (h : Hart) (t i : Nat) : Nat := (tget 0 h.tile (t * 1024 + i)).toNat

/-- Code of element `k` of row `i` in the tile at `t`, of `kk` elements per row packed as R86 says. -/
def Hart.tileElem (h : Hart) (ty : ElemTy) (kk t i k : Nat) : Nat :=
  let bit := (i * kk + k) * ty.width
  let lo := h.tileByte t (bit / 8)
  match ty.width with
  | 4 => nfld lo (bit % 8) 4
  | 16 => lo + 256 * h.tileByte t (bit / 8 + 1)
  | _ => lo

/-- Scale byte of the block that holds element `k` of row `i` (R59, R87). -/
def Hart.tileScale (h : Hart) (kk t i k : Nat) : Nat :=
  (tget 0 h.tscale (t * 64 + (if kk = 64 then 2 * i + k / 32 else i))).toNat

/-! ## MMA -/

/-- The product term of two elements under MX scale bytes `sa` and `sb` (127 where none applies): a signalling NaN and ∞ × 0 give
`nan true`, a scale of 0xFF a quiet NaN (R87, R89). -/
def mmaTerm (intZero : Bool) (a b : FVal) (sa sb : Nat) : FVal :=
  if a = .nan true ∨ b = .nan true then .nan true
  else if sa = 0xFF ∨ sb = 0xFF then .nan false
  else match mulV a b with
    | .fin neg m e => .fin (neg && !(intZero && m == 0)) m (e + (sa : Int) + sb - 254)
    | v => v

/-- Result of one accumulator element (Table 3.2, first row that applies) and its flags. -/
def mmaElement (acc : Nat) (terms : List FVal) : Nat × FFlags :=
  let all := decodeF fp32 acc :: terms
  if all.contains (.nan true) then (fp32.nanCode, { nv := true })
  else if all.contains (.inf true) && all.contains (.inf false) then (fp32.nanCode, { nv := true })
  else if all.contains (.nan false) then (fp32.nanCode, {})
  else match all.foldl addV (.fin true 0 0) with
    | .fin neg m e => ieeeRound fp32 neg m e
    | .inf neg => (withSign fp32 neg (fp32.infCode.getD 0), {})
    | .nan _ => (fp32.nanCode, {})

/-- The terms of element (i, j) of an MMA in format `f` on tiles `ta` and `tb`. -/
def mmaTerms (h : Hart) (f : MmaFmt) (ta tb i j : Nat) : List FVal :=
  (List.range f.k).map fun k =>
    mmaTerm f.a.isInt (f.a.value (h.tileElem f.a f.k ta i k)) (f.b.value (h.tileElem f.b f.k tb j k))
      (if f.mx then h.tileScale f.k ta i k else 127) (if f.mx then h.tileScale f.k tb j k else 127)

/-- Flags accumulate into fcsr.fflags (R90). FP state becomes Dirty unless it is Off (log entry 26). -/
def Hart.accFlags (h : Hart) (fl : FFlags) : Hart :=
  if fl.bits = 0 then h
  else
    let h := h.setCsr csrFcsr (h.csrVal csrFcsr ||| fl.bits)
    if h.mst 13 2 = 0 then h else h.dirtyF

/-- Element `n` of accumulator `a`. -/
def Hart.accElem (h : Hart) (a n : Nat) : Nat := tget 0 h.acc (a * 1024 + n)

/-- Element `n` of accumulator `a` at FP32 code `v`. -/
def Hart.putAcc (h : Hart) (a n v : Nat) : Hart := { h with acc := tset 0 (a * 1024 + n) v h.acc }

/-- A queued MMA is carried out (R59): every element of its region is rounded once. -/
def mmaRun (h : Hart) (op : MmaOp) : Hart :=
  match mmaFmt op.fmt with
  | none => h
  | some f =>
    let (h', fl) := (List.range (f.m * 32)).foldl (fun (p : Hart × FFlags) n =>
      let (v, fl) := mmaElement (h.accElem op.a n) (mmaTerms h f op.ta op.tb (n / 32) (n % 32))
      (p.1.putAcc op.a n v, p.2.or fl)) (h, {})
    h'.accFlags fl

/-- The oldest queued MMA completes (R60, R90). -/
def Hart.mmaDone (h : Hart) : Hart :=
  match h.mmaq with
  | [] => h
  | op :: r => mmaRun { h with mmaq := r } op

/-- Every queued MMA completes: the hardware interlock of R60 and the wait of R90. -/
def Hart.mmaDrain (h : Hart) : Hart := h.mmaq.foldl (fun t _ => t.mmaDone) h

/-- Every MMA of hart `c` completes. -/
def mmaDrain (c : Nat) (s : State) : State := s.putHart c (s.hart c).mmaDrain

/-- An HM instruction of hart `c` (R55, R56): illegal with mstatus.XS Off, or with a field that its row of Table 2.7 does not allow. -/
def hmInstr (c : Nat) (fieldsOk : Bool) (eff : State → State) (s : State) : State :=
  if (s.hart c).mst 15 2 = 0 || !fieldsOk then illegal c s else eff s

/-- The unused upper bits of a register field are zero: the field's value is below `n`. -/
def below (n : Nat) (r : XReg) : Bool := decide (r.toNat < n)

/-- MMA.fmt (R59, R60): it joins the two-entry queue; the oldest of a full queue completes first. BF16 and FP16 need an even tb. -/
def mmaInstr (c : Nat) (f7 : Nat) (f : RFields) (s : State) : State :=
  let ok := match mmaFmt f7 with
    | none => false
    | some m => below 4 f.rd && below 8 f.rs1 && below 8 f.rs2 && (m.a.width != 16 || f.rs2.toNat % 2 == 0)
  hmInstr c ok (fun s =>
    let h := s.hart c
    let h := if 2 ≤ h.mmaq.length then h.mmaDone else h
    s.putHart c { h.dirtyX.retire with
      mmaq := h.mmaq ++ [{ fmt := f7, a := f.rd.toNat, ta := f.rs1.toNat, tb := f.rs2.toNat }] }) s

/-- The oldest queued MMA of hart `c` completes (R90). -/
def mmaComplete (c : Nat) (s : State) : State := if s.coreOn c then s.putHart c (s.hart c).mmaDone else s

/-! ## Moves between memory and the matrix state -/

/-- `n` bytes of a row along its path (R57): from the L1D where it holds them, else from home without allocation; `none` at an
uncorrectable error. -/
def hmRowBytes (c : Nat) (p : DataPath) (n : Nat) (s : State) : Option (List Byte) × State :=
  let part (k m : Nat) : Option (List Byte) :=
    match l1dFind (s.hart c) (k / 64) with
    | some l => some ((l.data.drop (k % 64)).take m)
    | none => if s.hasError k m then none else some (s.bytesAt k m)
  match p with
  | .cached k =>
    match part k (min n 64), (if n ≤ 64 then some [] else part (k + 64) (n - 64)) with
    | some a, some b => (some (a ++ b), s)
    | _, _ => (none, eccError k s)
  | .home k => if s.hasError k n then (none, eccError k s) else (some (s.bytesAt k n), s)
  | .device _ => (none, s)

/-- One row of a tile load (R57, R58): its bytes, or the cause of its exception. Device control space is not memory (R146). -/
def hmLoadRow (c va n : Nat) (s : State) : Except Nat (List Byte) × State :=
  match hartResolve c .load va n s with
  | (.error e, s) => (.error e, s)
  | (.ok (.device _), s) => (.error 5, s)
  | (.ok p, s) =>
    match hmRowBytes c p n s with
    | (some bs, s) => (.ok bs, s)
    | (none, s) => (.error 19, s)

/-- The rows of a load in order, all or nothing (R58): their bytes, or the cause and address of the first fault. -/
def hmLoadRows (c n : Nat) : List Nat → State → Except (Nat × Nat) (List Byte) × State
  | [], s => (.ok [], s)
  | va :: r, s =>
    match hmLoadRow c va n s with
    | (.error e, s) => (.error (e, va), s)
    | (.ok bs, s) =>
      match hmLoadRows c n r s with
      | (.error e, s) => (.error e, s)
      | (.ok rest, s) => (.ok (bs ++ rest), s)

/-- Addresses of `m` rows from `base` with `stride`. -/
def rowAddrs (base stride m : Nat) : List Nat := (List.range m).map fun i => (base + i * stride) % 2 ^ 64

/-- A matrix load of `m` rows of `n` bytes: `put` lays the bytes into the matrix state. -/
def hmLoad (c base stride m n : Nat) (put : List Byte → Hart → Hart) (s : State) : State :=
  let s := mmaDrain c s
  match hmLoadRows c n (rowAddrs base stride m) s with
  | (.error (e, va), s) => except c e va s
  | (.ok bs, s) => s.putHart c (put bs (s.hart c)).dirtyX.retire

/-- Bytes laid into a table from key `k` on. -/
def putTab (k : Nat) (bs : List Byte) (t : List (Nat × Byte)) : List (Nat × Byte) :=
  ((List.range bs.length).zip bs).foldl (fun t p => tset 0 (k + p.1) p.2 t) t

/-- MLD.T (R57): 32 rows of 32 bytes, or with GEOM 16 rows of 64 bytes. -/
def mldT (c f7 : Nat) (f : RFields) (s : State) : State :=
  hmInstr c (below 8 f.rd && f7 / 2 == 0) (fun s =>
    let h := s.hart c
    let wide := f7 % 2 = 1
    hmLoad c (h.rn f.rs1) (h.rn f.rs2) (if wide then 16 else 32) (if wide then 64 else 32)
      (fun bs h => { h with tile := putTab (f.rd.toNat * 1024) bs h.tile }) s) s

/-- MLDS.T (R57). -/
def mldsT (c f7 : Nat) (f : RFields) (s : State) : State :=
  hmInstr c (below 8 f.rd && f.rs2 == 0 && f7 == 0) (fun s =>
    hmLoad c ((s.hart c).rn f.rs1) 0 1 64 (fun bs h => { h with tscale := putTab (f.rd.toNat * 64) bs h.tscale }) s) s

/-- MLD.A (R57): 32 rows of 128 bytes, copied bit for bit (R85). -/
def mldA (c f7 : Nat) (f : RFields) (s : State) : State :=
  hmInstr c (below 4 f.rd && f7 == 0) (fun s =>
    let h := s.hart c
    hmLoad c (h.rn f.rs1) (h.rn f.rs2) 32 128 (fun bs h =>
      let ws := leWords bs 1024
      ((List.range 1024).zip ws).foldl (fun h p => h.putAcc f.rd.toNat p.1 p.2) h) s) s

/-- MZERO.A (R61). -/
def mzeroA (c f7 : Nat) (f : RFields) (s : State) : State :=
  hmInstr c (below 4 f.rd && f.rs1 == 0 && f.rs2 == 0 && f7 == 0) (fun s =>
    let h := (s.hart c).mmaDrain
    s.putHart c { h.dirtyX.retire with acc := h.acc.filter fun p => p.1 / 1024 != f.rd.toNat }) s

/-- Output formats of MST.A (Table 2.9): bytes per element, and the target where the element is converted. -/
def mstFmt (n : Nat) : Option (Nat × Option Fmt) :=
  match n with
  | 0 => some (4, none)
  | 1 => some (2, some bf16)
  | 2 => some (2, some fp16)
  | 3 => some (1, some e4m3)
  | 4 => some (1, some e5m2)
  | _ => none

/-- One element converted for MST.A, with its flags (R61, R91). -/
def mstElem (t : Option Fmt) (v : Nat) : Nat × FFlags :=
  match t with
  | none => (v, {})
  | some f => satConvert f (decodeF fp32 v)

/-- Bytes and flags of row `i` of accumulator `a` for MST.A. -/
def mstRow (h : Hart) (a w : Nat) (t : Option Fmt) (i : Nat) : List Byte × FFlags :=
  (List.range 32).foldl (fun (p : List Byte × FFlags) j =>
    let (v, fl) := mstElem t (h.accElem a (32 * i + j))
    (p.1 ++ leBytes w v, p.2.or fl)) ([], {})

/-- A row stored along its path (R57): into L1D lines that hold it, else at home without allocation. -/
def hmStoreBytes (c : Nat) (p : DataPath) (bs : List Byte) (s : State) : State :=
  let part (k : Nat) (bs : List Byte) (s : State) : State :=
    let h := s.hart c
    match l1dFind h (k / 64) with
    | some l =>
      let l' : CacheLine := { l with data := overlay l.data (k % 64) bs, dirty := true }
      s.putHart c { h with l1d := h.l1d.map fun m => if m.block == l.block then l' else m }
    | none => writeHome k bs s
  match p with
  | .cached k => if bs.length ≤ 64 then part k bs s else part (k + 64) (bs.drop 64) (part k (bs.take 64) s)
  | .home k => writeHome k bs s
  | .device _ => s

/-- The rows of MST.A in ascending order (R58): a fault stops at its row; the flags are set when every row is written (R90). -/
def mstRows (c a w base stride : Nat) (t : Option Fmt) : List Nat → FFlags → State → State
  | [], fl, s => s.putHart c ((s.hart c).accFlags fl).retire
  | i :: r, fl, s =>
    let va := (base + i * stride) % 2 ^ 64
    match hartResolve c .store va (32 * w) s with
    | (.error e, s) => except c e va s
    | (.ok (.device _), s) => except c 7 va s
    | (.ok p, s) =>
      let (bs, fl') := mstRow (s.hart c) a w t i
      mstRows c a w base stride t r (fl.or fl') (hmStoreBytes c p bs s)

/-- MST.A (R58, R61). -/
def mstA (c f7 : Nat) (f : RFields) (s : State) : State :=
  match mstFmt (f7 % 8) with
  | none => illegal c s
  | some (w, t) =>
    hmInstr c (below 4 f.rd && f7 / 16 == 0) (fun s =>
      let s := mmaDrain c s
      let h := s.hart c
      mstRows c f.rd.toNat w (h.rn f.rs1) (h.rn f.rs2) t (List.range (if nbit f7 3 then 16 else 32)) {} s) s

/-! ## Vector operands -/

/-- LMUL of vtype in eighths; `none` for the reserved code. -/
def lmul8 (vtype : Nat) : Option Nat :=
  match vtype % 8 with
  | 0 => some 8
  | 1 => some 16
  | 2 => some 32
  | 3 => some 64
  | 5 => some 1
  | 6 => some 2
  | 7 => some 4
  | _ => none

/-- SEW of vtype in bytes. -/
def sewBytes (vtype : Nat) : Nat := 2 ^ nfld vtype 3 3

/-- vtype holds a legal configuration (the V extension that R41 cites): vill clear, SEW at most 64, LMUL not reserved. -/
def vtypeOk (vtype : Nat) : Bool := !nbit vtype 63 && decide (nfld vtype 3 3 ≤ 3) && (lmul8 vtype).isSome

/-- A register group of `e8` eighths of a register starts at a multiple of its size (V extension; log entry 27). -/
def groupOk (e8 : Nat) (r : XReg) : Bool := r.toNat % max 1 (e8 / 8) == 0

/-- Bytes `0` to `n - 1` of the vector register group from `vs`. -/
def Hart.vBytes (h : Hart) (vs : XReg) (n : Nat) : List Byte := (List.range n).map (h.vByte vs ·)

/-- vl of a hart. -/
def Hart.vl (h : Hart) : Nat := h.csrVal csrVl

/-- A conversion of MCVT (Table 2.10): source width and destination width in bits, and the conversion of one element. -/
structure Cvt where
  sw : Nat
  dw : Nat
  conv : Nat → Nat × FFlags

/-- The conversion of code `n` (Table 2.10). -/
def mcvtOf (n : Nat) : Option Cvt :=
  match n with
  | 0 => some ⟨32, 8, fun x => satConvert e4m3 (decodeF fp32 x)⟩
  | 1 => some ⟨32, 8, fun x => satConvert e5m2 (decodeF fp32 x)⟩
  | 2 => some ⟨8, 32, fun x => (exactConvert fp32 (decodeF e4m3 x), {})⟩
  | 3 => some ⟨8, 32, fun x => (exactConvert fp32 (decodeF e5m2 x), {})⟩
  | 4 => some ⟨32, 4, fun x => int4Convert (decodeF fp32 x)⟩
  | 5 => some ⟨16, 8, fun x => satConvert e4m3 (decodeF bf16 x)⟩
  | 6 => some ⟨8, 8, fun x => (exactConvert e4m3 (decodeF e3m2 (x % 64)), {})⟩
  | _ => none

/-- MCVT takes the vector configuration `vtype`, `vl` and `vstart` (R62). -/
def mcvtOk (k : Cvt) (vtype vl vstart n : Nat) (f : RFields) : Bool :=
  match lmul8 vtype with
  | none => false
  | some l8 =>
    let e8 := l8 * k.dw / k.sw
    vtypeOk vtype && 8 * sewBytes vtype == k.sw && vstart == 0 && (n != 4 || vl % 2 == 0) &&
      l8 * k.dw % k.sw == 0 && decide (1 ≤ e8 ∧ e8 ≤ 64) && groupOk l8 f.rs2 && groupOk e8 f.rd

/-- Elements of `w` bytes of a byte list. -/
def elemsOf (w : Nat) : Nat → List Byte → List Nat
  | 0, _ => []
  | n + 1, bs => leNat (bs.take w) :: elemsOf w n (bs.drop w)

/-- Codes of 4 bits packed two per byte, element 2i in bits [3:0] (R86). -/
def packNibbles : List Nat → List Byte
  | a :: b :: r => BitVec.ofNat 8 (a % 16 + 16 * (b % 16)) :: packNibbles r
  | [a] => [BitVec.ofNat 8 (a % 16)]
  | [] => []

/-- MCVT (R62, R91): vl elements, unmasked. The vector state must be on, and becomes Dirty (log entry 27). -/
def mcvt (c f7 : Nat) (f : RFields) (s : State) : State :=
  let h := s.hart c
  match mcvtOf f7 with
  | none => illegal c s
  | some k =>
    let ok := f.rs1 == 0 && h.mst 9 2 != 0 && mcvtOk k (h.csrVal csrVtype) h.vl (h.csrVal csrVstart) f7 f
    hmInstr c ok (fun s =>
      let rs := (elemsOf (k.sw / 8) h.vl (h.vBytes f.rs2 (h.vl * (k.sw / 8)))).map k.conv
      let fl := rs.foldl (fun a r => a.or r.2) {}
      let out := if k.dw = 4 then packNibbles (rs.map Prod.fst) else rs.flatMap fun r => leBytes (k.dw / 8) r.1
      s.putHart c (((h.putV f.rd out).dirtyV).accFlags fl).retire) s

/-! ## Commands -/

/-- MMA (R59). -/
def execMma (c : Core) (funct7 : BitVec 7) (f : RFields) (s : State) : Out := .next (onHart c (mmaInstr c funct7.toNat f) s)

/-- MMA_COMPLETE (R90). -/
def execMmaComplete (c : Core) (s : State) : Out := .next (mmaComplete c s)

/-- MLD_T (R57). -/
def execMldT (c : Core) (funct7 : BitVec 7) (f : RFields) (s : State) : Out := attempt (onHart c (mldT c funct7.toNat f)) s

/-- MLDS_T (R57). -/
def execMldsT (c : Core) (funct7 : BitVec 7) (f : RFields) (s : State) : Out := attempt (onHart c (mldsT c funct7.toNat f)) s

/-- MLD_A (R57). -/
def execMldA (c : Core) (funct7 : BitVec 7) (f : RFields) (s : State) : Out := attempt (onHart c (mldA c funct7.toNat f)) s

/-- MST_A (R61). -/
def execMstA (c : Core) (funct7 : BitVec 7) (f : RFields) (s : State) : Out := attempt (onHart c (mstA c funct7.toNat f)) s

/-- MZERO_A (R61). -/
def execMzeroA (c : Core) (funct7 : BitVec 7) (f : RFields) (s : State) : Out := .next (onHart c (mzeroA c funct7.toNat f) s)

/-- MCVT (R62). -/
def execMcvt (c : Core) (funct7 : BitVec 7) (f : RFields) (s : State) : Out := .next (onHart c (mcvt c funct7.toNat f) s)

end Sys2Proof.Machine
end

