-- ==== Sys2Proof/Machine/Csr.lean ====
section
/-!
DEFINITION. The CSRs of a hart: the Henovik CSRs (spec 02_cores_and_extensions.md, R52 to R54, Table 2.3) and those of the
architectures that R41 cites (log entry 28), what each reads and what a write of it does.
-/

namespace Sys2Proof.Machine

/-- misa (R41): RV64 with A, C, D, F, I, M, S, U, V and X. -/
def misaValue : Nat := 2 * 2 ^ 62 + 2 ^ 0 + 2 ^ 2 + 2 ^ 3 + 2 ^ 5 + 2 ^ 8 + 2 ^ 12 + 2 ^ 18 + 2 ^ 20 + 2 ^ 21 + 2 ^ 23

/-- Bits of mstatus that software writes. -/
def mstatusMask : Nat := 0x7FFFAA

/-- Bits of mstatus that sstatus shows. -/
def sstatusMask : Nat := 0xDE722

/-- Exceptions that medeleg can delegate: the standard ones, the hardware error, and causes 24 and 25 (R54). -/
def medelegMask : Nat := 0xB3FF + 2 ^ 19 + 2 ^ 24 + 2 ^ 25

/-- Interrupts that mideleg can delegate, and those that mie enables (R54). -/
def midelegMask : Nat := 2 ^ 1 + 2 ^ 5 + 2 ^ 9 + 2 ^ 16
def mieMask : Nat := midelegMask + 2 ^ 3 + 2 ^ 7 + 2 ^ 11

/-- Bits of mip that M mode writes. -/
def mipMask : Nat := 2 ^ 1 + 2 ^ 5 + 2 ^ 9

/-- mstatus as read: UXL and SXL are 2, SD shows a Dirty unit. -/
def Hart.mstatus (h : Hart) : Nat :=
  (h.csrVal csrMstatus &&& mstatusMask) + 2 * 2 ^ 32 + 2 * 2 ^ 34 +
    (if h.mst 9 2 = 3 ∨ h.mst 13 2 = 3 ∨ h.mst 15 2 = 3 then 2 ^ 63 else 0)

/-- mip as read: bit 16 is pending while the fault queue is enabled and not empty (R54). -/
def Hart.mip (h : Hart) : Nat := (h.csrVal 0x344 &&& mipMask) + if h.fqPending then 2 ^ 16 else 0

/-- hdstat (R52). -/
def Hart.hdstat (h : Hart) : Nat :=
  bitsNat ((List.range 16).map fun i => h.slots.any fun p => p.1 == i) + 2 ^ 16 * (h.detached % 256)

/-- The value of a Henovik CSR of core `c` (Table 2.3), `none` for another number. -/
def henCsr (pkg c : Nat) (h : Hart) (n : Nat) : Option Nat :=
  match n with
  | 0x7C0 => some (h.tenant + (if h.hsEn then 2 ^ 8 else 0) + (if h.hdEn then 2 ^ 9 else 0) + if h.hxEn then 2 ^ 10 else 0)
  | 0x7C1 => some (h.fqSize + (if h.fqEn then 8 else 0) + 2 ^ 12 * h.fqBase)
  | 0x7C2 => some h.commitTo
  | 0x7C3 => some ((if h.raiseArrived then 1 else 0) + 2 * (h.raisePhase % 2) + 2 ^ 32 * h.raisePeg)
  | 0xBC0 => some h.hxseq
  | 0x800 => some h.fqHead
  | 0xCC0 => some h.hxseq
  | 0xCC1 => some h.track.length
  | 0xCC2 => some (h.fqTail + 2 ^ 16 * h.fqDropped)
  | 0xCC3 => some h.hdstat
  | 0xCC4 => some h.hxcause
  | 0xCC5 => some (c + 2 ^ 16 * h.tenant + 2 ^ 32 * pkg)
  | _ => none

/-- CSRs that a table entry holds as written. -/
def plainCsrs : List Nat :=
  [0x302, 0x303, 0x304, 0x305, 0x306, 0x320, 0x340, 0x341, 0x342, 0x343, 0x105, 0x106, 0x140, 0x141, 0x142, 0x143, 0x180]

/-- CSRs that read 0: configuration of counters and memory protection that the package does not have. -/
def zeroCsr (n : Nat) : Bool :=
  (0x323 ≤ n && n ≤ 0x33F) || (0xB03 ≤ n && n ≤ 0xB1F) || (0xC03 ≤ n && n ≤ 0xC1F) ||
    (0x3A0 ≤ n && n ≤ 0x3AE && n % 2 == 0) || (0x3B0 ≤ n && n ≤ 0x3EF) || n == 0xF15

/-- A counter CSR: cycle, time, instret and their M-mode forms; its value is free. -/
def counterCsr (n : Nat) : Bool := n == 0xC00 || n == 0xC01 || n == 0xC02 || n == 0xB00 || n == 0xB02

/-- The value of a CSR of the RISC-V architectures (log entry 28), `none` for a number that does not exist; counters apart. -/
def archCsr (c : Nat) (h : Hart) (n : Nat) : Option Nat :=
  match n with
  | 0x001 => some (h.csrVal csrFcsr % 32)
  | 0x002 => some (h.csrVal csrFcsr / 32 % 8)
  | 0x003 => some (h.csrVal csrFcsr % 256)
  | 0x008 => some (h.csrVal csrVstart)
  | 0x009 => some (h.csrVal 0x00F % 2)
  | 0x00A => some (h.csrVal 0x00F / 2 % 4)
  | 0x00F => some (h.csrVal 0x00F % 8)
  | 0xC20 => some (h.csrVal csrVl)
  | 0xC21 => some (h.csrVal csrVtype)
  | 0xC22 => some 128
  | 0x100 => some ((h.csrVal csrMstatus &&& sstatusMask) + 2 * 2 ^ 32 + h.mstatus / 2 ^ 63 * 2 ^ 63)
  | 0x104 => some (h.csrVal 0x304 &&& h.csrVal csrMideleg)
  | 0x144 => some (h.mip &&& h.csrVal csrMideleg)
  | 0x10A => some (h.csrVal 0x10A % 2)
  | 0x30A => some (h.csrVal 0x30A % 2 + 2 ^ 62)
  | 0x300 => some h.mstatus
  | 0x301 => some misaValue
  | 0x344 => some h.mip
  | 0xF11 => some (Config.vendorId % 2 ^ 32)
  | 0xF12 => some 1
  | 0xF13 => some 0xA1
  | 0xF14 => some c
  | _ => if plainCsrs.contains n then some (h.csrVal n) else if zeroCsr n then some 0 else none

/-- A CSR of the FP unit, of the vector unit. -/
def fpCsr (n : Nat) : Bool := 1 ≤ n && n ≤ 3
def vecCsr (n : Nat) : Bool := (8 ≤ n && n ≤ 10) || n == 0x00F || (0xC20 ≤ n && n ≤ 0xC22)

/-- Number of a privilege mode reaches that of CSR `n`, and the units and counters that it needs are on. -/
def csrAllowed (h : Hart) (n : Nat) : Bool :=
  let counter := n % 0x20
  decide (n / 256 % 4 ≤ h.priv.code) &&
    !(fpCsr n && h.mst 13 2 == 0) && !(vecCsr n && h.mst 9 2 == 0) &&
    !(n == csrSatp && h.priv == .s && h.mst 20 1 == 1) &&
    !(0xC00 ≤ n && n ≤ 0xC1F && h.priv != .m && !nbit (h.csrVal 0x306) counter) &&
    !(0xC00 ≤ n && n ≤ 0xC1F && h.priv == .u && !nbit (h.csrVal 0x106) counter)

/-- A write of `v` to mstatus: a reserved MPP leaves that field as it was. -/
def Hart.writeMstatus (h : Hart) (v : Nat) : Hart :=
  let mpp := nfld v 11 2
  let h' := h.setCsr csrMstatus (v &&& mstatusMask)
  h'.setMst 11 2 (if mpp = 2 then h.mst 11 2 else mpp)

/-- A write of `v` to a Henovik CSR (Table 2.3; R52: reserved fields ignore it). -/
def Hart.writeHen (h : Hart) (n v : Nat) : Hart :=
  match n with
  | 0x7C0 => { h with tenant := v % 16, hsEn := nbit v 8, hdEn := nbit v 9, hxEn := nbit v 10 }
  | 0x7C1 => { h with fqSize := v % 8, fqEn := nbit v 3, fqBase := nfld v 12 36, fqTail := 0, fqDropped := 0, fqHead := 0 }
  | 0x7C2 => { h with commitTo := v % 2 ^ 32 }
  | 0x7C3 => { h with raiseArrived := nbit v 0, raisePhase := nfld v 1 1, raisePeg := nfld v 32 20 }
  | 0xBC0 => { h with hxseq := v % 2 ^ 32 }
  | 0x800 => { h with fqHead := v % 2 ^ 12 }
  | _ => h

/-- `new` in the bits of `mask`, `old` elsewhere. -/
def mergeBits (mask old new : Nat) : Nat := (old - (old &&& mask)) + (new &&& mask)

/-- A write of `v` to a CSR of the RISC-V architectures (log entry 28). -/
def Hart.writeArch (h : Hart) (n v : Nat) : Hart :=
  match n with
  | 0x001 => (h.setCsr csrFcsr (mergeBits 0x1F (h.csrVal csrFcsr) v)).dirtyF
  | 0x002 => (h.setCsr csrFcsr (mergeBits 0xE0 (h.csrVal csrFcsr) (v * 32))).dirtyF
  | 0x003 => (h.setCsr csrFcsr (v % 256)).dirtyF
  | 0x008 => (h.setCsr csrVstart (v % 1024)).dirtyV
  | 0x009 => (h.setCsr 0x00F (mergeBits 1 (h.csrVal 0x00F) v)).dirtyV
  | 0x00A => (h.setCsr 0x00F (mergeBits 6 (h.csrVal 0x00F) (v * 2))).dirtyV
  | 0x00F => (h.setCsr 0x00F (v % 8)).dirtyV
  | 0x100 => h.writeMstatus (mergeBits sstatusMask (h.csrVal csrMstatus) v)
  | 0x104 => h.setCsr 0x304 (mergeBits (h.csrVal csrMideleg) (h.csrVal 0x304) v)
  | 0x144 => h.setCsr 0x344 (mergeBits (h.csrVal csrMideleg &&& 2) (h.csrVal 0x344) v)
  | 0x10A => h.setCsr 0x10A (v % 2)
  | 0x30A => h.setCsr 0x30A (v % 2)
  | 0x300 => h.writeMstatus v
  | 0x302 => h.setCsr 0x302 (v &&& medelegMask)
  | 0x303 => h.setCsr 0x303 (v &&& midelegMask)
  | 0x304 => h.setCsr 0x304 (v &&& mieMask)
  | 0x344 => h.setCsr 0x344 (v &&& mipMask)
  | 0x305 => h.setCsr 0x305 (v / 4 * 4 + v % 2)
  | 0x105 => h.setCsr 0x105 (v / 4 * 4 + v % 2)
  | 0x306 => h.setCsr 0x306 (v % 8)
  | 0x106 => h.setCsr 0x106 (v % 8)
  | 0x320 => h.setCsr 0x320 (v &&& 5)
  | 0x341 => h.setCsr 0x341 (v / 2 * 2)
  | 0x141 => h.setCsr 0x141 (v / 2 * 2)
  | 0x180 => if nfld v 60 4 = 0 ∨ nfld v 60 4 = 9 then h.setCsr 0x180 v else h
  | _ => if plainCsrs.contains n then h.setCsr n v else h

/-- A CSR access of hart `c` that reads CSR `n` where `rd` asks for it, and writes `new old` where there is one (the unprivileged
architecture that R41 cites). An access that needs a higher mode, a write of a read-only CSR and a CSR that does not exist are
illegal (R52). fflags and fcsr wait for every earlier HM instruction (R90). -/
def csrInstr (c n : Nat) (rd : XReg) (new : Option (Nat → Nat)) (s : State) : State :=
  let h := s.hart c
  if !csrAllowed h n || (new.isSome && n / 1024 == 3) then illegal c s
  else if counterCsr n then
    let (v, s) := s.free
    retireRd c rd (v % 2 ^ 64) s
  else
    let h := if n = 1 ∨ n = 3 then h.mmaDrain else h
    match henCsr s.pkg c h n, archCsr c h n with
    | none, none => illegal c s
    | hen, arch =>
      let old := (hen.orElse fun _ => arch).getD 0
      let h := match new with
        | none => h
        | some g => if hen.isSome then h.writeHen n (g old % 2 ^ 64) else h.writeArch n (g old % 2 ^ 64)
      s.putHart c (h.wx rd (BitVec.ofNat 64 old)).retire

/-- A CSR instruction: CSRRW always writes; CSRRS and CSRRC write unless their operand field is 0. -/
def csrAccess (c n : Nat) (op : CsrOp) (imm : Bool) (rd rs1 : XReg) (s : State) : State :=
  let v := if imm then rs1.toNat else (s.hart c).rn rs1
  let new : Option (Nat → Nat) := match op with
    | .rw => some fun _ => v
    | .rs => if rs1 = 0 then none else some fun old => old ||| v
    | .rc => if rs1 = 0 then none else some fun old => old - (old &&& v)
  csrInstr c n rd new s

/-- CSR_ACCESS (R52). -/
def execCsrAccess (c : Core) (csr : BitVec 12) (op : CsrOp) (imm : Bool) (rd rs1 : XReg) (s : State) : Out :=
  .next (onHart c (csrAccess c csr.toNat op imm rd rs1) s)

/-- HFQBASE_WRITE (R52). -/
def execHfqbaseWrite (c : Core) (val : Word) (s : State) : Out :=
  .next (onHart c (csrInstr c 0x7C1 0 (some fun _ => val.toNat)) s)

/-- HXSEQW_WRITE (R52). -/
def execHxseqwWrite (c : Core) (val : Word) (s : State) : Out :=
  .next (onHart c (csrInstr c 0xBC0 0 (some fun _ => val.toNat)) s)

end Sys2Proof.Machine
end

