-- ==== Sys2Proof/Machine/HartMem.lean ====
section
/-!
DEFINITION. Atomic accesses, the standard fences, loading a context, and interrupts of a waiting hart (spec
02_cores_and_extensions.md, R45 to R51, R82).
-/

namespace Sys2Proof.Machine

/-! ## LR, SC, AMO -/

/-- Number in `amoResult` of an AMO form. -/
def amoCode : AmoForm → Nat
  | .add => 0
  | .swap => 1
  | .and => 2
  | .or => 3
  | .xor => 4
  | .max => 5
  | .min => 6
  | .maxu => 7
  | .minu => 8
  | .lr => 0
  | .sc => 0

/-- An LR, SC or AMO of `n` bytes at home key `k` (R46), after the hart's own copy of the line is gone. -/
def amoHome (c : Nat) (form : AmoForm) (n k va : Nat) (f : RFields) (s : State) : State :=
  let s := l1dEvict c (k / 64) s
  let h := s.hart c
  match form with
  | .sc =>
    let ok := h.resv == some (k / 64)
    let s := s.putHart c { h with resv := none }
    if ok then retireRd c f.rd 0 (writeHome k (leBytes n (h.rn f.rs2)) s) else retireRd c f.rd 1 s
  | _ =>
    if s.hasError k n then except c 19 va (eccError k s)
    else
      let old := leNat (s.bytesAt k n)
      let v := loadValue n false old
      match form with
      | .lr => retireRd c f.rd v (s.putHart c { h with resv := some (k / 64) })
      | _ => retireRd c f.rd v (writeHome k (leBytes n (amoResult (amoCode form) n old (h.rn f.rs2 % 2 ^ (8 * n)) 0)) s)

/-- LR, SC and AMOs (R46, R47): a misaligned one raises cause 4 or 6, one outside memory an access fault. -/
def lrScAmo (c : Nat) (form : AmoForm) (dword : Bool) (f : RFields) (s : State) : State :=
  let n := if dword then 8 else 4
  let va := (s.hart c).rn f.rs1
  let k : AccKind := if form = .lr then .load else .store
  if form = .lr ∧ f.rs2 ≠ 0 then illegal c s
  else match hartResolve c k va n s with
  | (.error e, s) => except c e va s
  | (.ok (.device _), s) => except c k.accessFault va s
  | (.ok (.cached key), s) => amoHome c form n key va f s
  | (.ok (.home key), s) => amoHome c form n key va f s

/-! ## Fences -/

/-- FENCE (R45): W in the predecessor set writes back every dirty line, R in the successor set invalidates every clean one. -/
def fence (c : Nat) (pred succ : FenceSet) (tso : Bool) (s : State) : State :=
  let s := if pred.w || tso then l1dWriteBack c s else s
  let s := if succ.r || tso then l1dInvalidate c s else s
  retire c s

/-- SFENCE.VMA invalidates the hart's own TLB entries (R50): all, those of the page of rs1, those of the address space of rs2 unless
global. -/
def sfenceVma (c : Nat) (rs1 rs2 : XReg) (s : State) : State :=
  let h := s.hart c
  let va := h.rn rs1
  let hit (e : TlbEnt) : Bool :=
    (rs1 == 0 || (canonical48 va && nfld va 12 36 / 2 ^ (9 * e.level) == e.vpn / 2 ^ (9 * e.level))) &&
      (rs2 == 0 || (e.asid == h.rn rs2 % 65536 && !nbit e.pte 5))
  if h.priv == .u || (h.priv == .s && h.mst 20 1 == 1) then illegal c s
  else s.putHart c { h.retire with tlb := h.tlb.filter fun e => !hit e }

/-! ## Contexts -/

/-- A table of the values of a list by position that differ from `d`. -/
def listTab {α : Type} [DecidableEq α] (d : α) (vs : List α) : List (Nat × α) :=
  ((List.range vs.length).zip vs).filter fun p => decide (p.2 ≠ d)

/-- A hart with a context loaded (R48, R51): its saved state, U mode, the tenant and the enables, and every ticket slot clear. The
launch serial stays (Table 2.15). -/
def loadContext (ctx : ContextImage) (h : Hart) : Hart :=
  let h := (((h.mmaDrain.setMst 13 2 ctx.fs.toNat).setMst 9 2 ctx.vs.toNat).setMst 15 2 ctx.xs.toNat).setCsr csrSatp ctx.satp.toNat
  let h := ((h.setCsr csrFcsr ctx.fcsr.toNat).setCsr csrVl ctx.vl.toNat).setCsr csrVtype ctx.vtype.toNat
  let h := h.setCsr csrVstart 0
  { h with
    pc := ctx.pc
    priv := .u
    x := (listTab 0 ctx.x).filter fun p => p.1 != 0
    f := listTab 0 ctx.f
    v := listTab 0 ctx.v
    tile := listTab 0 ctx.tile
    tscale := listTab 0 ctx.tscale
    acc := listTab 0 (ctx.acc.map BitVec.toNat)
    tenant := ctx.tenant.val
    hsEn := ctx.hsEn
    hdEn := ctx.hdEn
    hxEn := ctx.hxEn
    hxseq := ctx.hxseq.toNat
    raiseArrived := nbit ctx.hraise.toNat 0
    raisePhase := nfld ctx.hraise.toNat 1 1
    raisePeg := nfld ctx.hraise.toNat 32 20
    fqHead := ctx.hfqhead.toNat
    slots := []
    resv := none }

/-- Firmware loads a context (R51). That the hart has come to M mode for it is not checked. -/
def contextLoad (c : Nat) (ctx : ContextImage) (s : State) : State := s.putHart c (loadContext ctx (s.hart c))

/-! ## Interrupts of a waiting hart (R82) -/

/-- Interrupt `code` is taken: it is enabled in mie, and globally in the mode that takes it. -/
def Hart.takesInterrupt (h : Hart) (code : Nat) : Bool :=
  nbit (h.csrVal 0x304) code &&
    (if nbit (h.csrVal csrMideleg) code then h.priv == .u || (h.priv == .s && h.mst 1 1 == 1)
     else h.priv != .m || h.mst 3 1 == 1)

/-- An interrupt arrives while hart `c` waits (Table 2.18): GAMO keeps waiting; any other wait is abandoned, with nothing performed, and
the saved pc points at the instruction. -/
def interruptDuringWait (c code : Nat) (s : State) : State :=
  let h := s.hart c
  if !s.coreOn c then s
  else match h.wait with
  | .none => s
  | .gamo _ _ _ _ => s
  | _ => if h.takesInterrupt code then s.putHart c (h.trap true code 0) else s

/-! ## Commands -/

/-- LR_SC_AMO (R46). -/
def execLrScAmo (c : Core) (form : AmoForm) (dword : Bool) (f : RFields) (s : State) : Out :=
  attempt (onHart c (lrScAmo c form dword f)) s

/-- FENCE (R45). -/
def execFence (c : Core) (pred succ : FenceSet) (tso : Bool) (s : State) : Out := attempt (onHart c (fence c pred succ tso)) s

/-- FENCE_I (R45): the instruction cache is no state of the model, since no instruction is fetched. -/
def execFenceI (c : Core) (s : State) : Out := .next (onHart c (retire c) s)

/-- SFENCE_VMA (R50). -/
def execSfenceVma (c : Core) (rs1 rs2 : XReg) (s : State) : Out := .next (onHart c (sfenceVma c rs1 rs2) s)

/-- CONTEXT_LOAD (R51). -/
def execContextLoad (c : Core) (ctx : ContextImage) (s : State) : Out := .next (onHart c (contextLoad c ctx) s)

/-- INTERRUPT_DURING_WAIT (R82). -/
def execInterruptDuringWait (c : Core) (code : Fin 64) (s : State) : Out := .next (interruptDuringWait c code s)

end Sys2Proof.Machine
end

