-- ==== Sys2Proof/Machine/Server.lean ====
section
/-!
DEFINITION. How a Musyn request is answered (spec 13_host_and_musyn.md, R337 to R348): the response buffer of a mailbox, the
RSP frames of CAN, and commands that arrive either as a register write or as an EXEC of the entry that names the register (R339).
-/

namespace Sys2Proof.Machine

/-- A response (Tables 13.9 and 13.10): STATUS, HOLDER, RESOURCE, TOTAL and the data bytes. -/
structure MResp where
  status : Nat
  holder : Nat
  resource : Nat
  total : Nat
  data : List Byte
  deriving DecidableEq, Repr

/-- A response with a status alone. -/
def MResp.code (st : Nat) : MResp := { status := st, holder := 0, resource := 0, total := 0, data := [] }

/-- How a command ends when it arrives: accepted, refused for a permit (R353), or refused with a reason. -/
inductive CmdRes where
  | ok
  | busy (resource holder : Nat)
  | refused (reason : Nat)
  | hostOnly
  | code (status : Nat)
  | data (bytes : List Byte)
  deriving DecidableEq, Repr

/-- The response to an EXEC (R339). -/
def CmdRes.resp : CmdRes → MResp
  | .ok => MResp.code 0
  | .busy r h => { status := 5, holder := h, resource := r, total := 0, data := [] }
  | .refused n => { status := 6, holder := 0, resource := 0, total := 0, data := leBytes 1 n }
  | .hostOnly => MResp.code 9
  | .code st => MResp.code st
  | .data bs => { status := 0, holder := 0, resource := 0, total := bs.length, data := bs }

/-- Path code of a requester (R352). -/
def reqPath : Requester → Nat
  | .fn _ => 1
  | .hart _ => 3

/-- Path code of a Musyn path. -/
def musPath : MusynPath → Nat
  | .mbx _ _ => 1
  | .can _ => 2

/-- The 64 words of a mailbox buffer filled by `mk`. -/
def putWords (mk : Nat → Fld) (ws : List Nat) (s : State) : State :=
  (List.range ws.length).foldl (fun t i => t.set (mk i) (ws.getD i 0)) s

/-- The bytes of a mailbox request (Table 13.9). -/
def reqBytes (op area index offset length tag : Nat) (data : List Byte) : List Byte :=
  leBytes 1 op ++ leBytes 1 area ++ leBytes 2 index ++ leBytes 4 offset ++ leBytes 2 length ++ leBytes 2 tag ++ leBytes 4 0 ++
    data.take 240

/-- The bytes of a mailbox response. -/
def rspBytes (op tag : Nat) (r : MResp) : List Byte :=
  leBytes 1 r.status ++ leBytes 1 op ++ leBytes 2 tag ++ leBytes 4 r.data.length ++ leBytes 2 r.holder ++ leBytes 2 r.resource ++
    leBytes 4 r.total ++ r.data.take 240

/-- The mailbox of function `f` takes a request (R340, R343): STATUS reads BUSY until the response is complete, `eff` performs the request, and
the response stands in the response buffer. A reset that the request starts may have reset the mailbox. -/
def mbxServe (f op tag : Nat) (eff : State → MResp × State) (s : State) : State :=
  let (r, s) := eff ((s.set (R.HUB_MBX_CMD_STATUS f) 1).odInc 3 0x20 32)
  if s.get (R.HUB_MBX_CMD_STATUS f) = 1 then putWords (R.HUB_MBX_RSP_WORD f) (leWords (padTo 256 (rspBytes op tag r)) 64) s else s

/-- SEG frames of 60 bytes each, numbered from `n` (Table 13.12). -/
def segFrames (txn : Nat) : Nat → Nat → List Byte → List (List Byte)
  | 0, _, _ => []
  | fuel + 1, n, bs =>
    if bs.isEmpty then [] else
      (leBytes 1 2 ++ leBytes 1 txn ++ leBytes 2 n ++ padTo 60 bs) :: segFrames txn fuel (n + 1) (bs.drop 60)

/-- The RSP frames of a response: INIT and the SEG frames that follow it. -/
def rspFrames (txn op : Nat) (r : MResp) : List (List Byte) :=
  (leBytes 1 1 ++ leBytes 1 txn ++ leBytes 1 r.status ++ leBytes 1 op ++ leBytes 2 r.holder ++ leBytes 2 r.resource ++
    leBytes 4 r.total ++ leBytes 4 r.data.length ++ padTo 48 r.data) :: segFrames txn (r.data.length + 1) 1 (r.data.drop 48)

/-- A response on CAN (R347). -/
def canRespond (txn op : Nat) (r : MResp) (s : State) : State :=
  ((rspFrames txn op r).foldl (fun t fr => canSend 5 (some txn) fr t) s).odInc 3 0x20 32

/-- The transaction's response joins the transmit queue (R347, R348): the transaction lasts until its last frame is sent. -/
def canReply (txn op : Nat) (r : MResp) (s : State) : State :=
  let s := canRespond txn op r s
  let t : CanTxn := { txn := txn, op := op, area := 0, index := 0, offset := 0, length := 0, nextSeg := 0, data := [], answered := true }
  { s with can := { s.can with txn := if s.can.txq.any (fun f => f.txn == some txn) then some t else none } }

/-- The controller takes part in transactions: it is error-active or error-passive (R344, R350). -/
def State.canServes (s : State) : Bool := let st := s.get R.HUB_CAN_STAT_STATE; st == 1 || st == 2

/-- The transaction is aborted with reason `why` (R348): its queued frames and its data are discarded, and an ABORT frame is sent. -/
def canAbortTxn (why : Nat) (s : State) : State :=
  match s.can.txn with
  | none => s
  | some t =>
    canSend 5 none (leBytes 1 3 ++ leBytes 1 t.txn ++ leBytes 1 why)
      { s with can := { s.can with txn := none, txq := s.can.txq.filter fun f => f.txn != some t.txn || f.won } }

/-- Another transaction is in progress (R348). -/
def State.canBusy (s : State) (txn : Nat) : Bool :=
  match s.can.txn with
  | some t => t.txn != txn
  | none => false

/-- Frames received for this node (OD 3.0011). -/
def canRx (n : Nat) (s : State) : State := s.odSet 3 0x11 ((s.odGet 3 0x11 0 + n) % 2 ^ 32)

/-- A READ that a halted, tripped or not yet started package answers. -/
def readServed (op area : Nat) : Bool := op == 1 && [0, 2, 3, 6].contains area

/-- The package serves request `op` of entry `area`.`index` on path `p` (R388, R407, R415). What it does not serve is not answered (log
entry 32). -/
def musServed (p : MusynPath) (op area index : Nat) (s : State) : Bool :=
  let halted := s.get R.HUB_BOOT_STATE == 2
  let asleep := s.tripped || s.get R.HUB_BOOT_STATE == 0 && s.get R.HUB_BOOT_STEP == 0
  s.powered && (match p with
  | .mbx _ _ =>
    !asleep && (!halted || readServed op area || op == 3 && area == 4 && (index == 0 || decide (0x70 ≤ index ∧ index ≤ 0x76)))
  | .can _ => !(asleep || halted) || readServed op area)

/-- A request in the mailbox of function `f` with its bytes (R340): a mailbox that is BUSY ignores it and counts it. `eff` performs it. -/
def mbxRequest (f op tag : Nat) (bytes : List Byte) (eff : State → MResp × State) (s : State) : State :=
  if s.get (R.HUB_MBX_CMD_STATUS f) = 1 then s.incSat (R.HUB_MBX_CMD_IGNORED f)
  else mbxServe f op tag eff (putWords (R.HUB_MBX_REQ_WORD f) (leWords (padTo 256 bytes) 64) s)

/-- A whole request over CAN with `n` data bytes. -/
def canRequest (txn op n : Nat) (eff : State → MResp × State) (s : State) : State :=
  if !s.canServes then s
  else
    let s := canRx (1 + (n - 48 + 59) / 60) s
    if s.canBusy txn then canRespond txn op (MResp.code 8) s
    else
      let (r, s) := eff (canAbortTxn 3 s)
      canReply txn op r s

/-- A request `op` of entry `area`.`index` by a Musyn path (R339, R340): `eff` performs it for the path code. A VF gets HOST_ONLY. -/
def viaMusyn (p : MusynPath) (op area index : Nat) (data : List Byte) (eff : Nat → State → CmdRes × State) (s : State) : State :=
  if !musServed p op area index s then s
  else match p with
  | .mbx f tag =>
    if regGate (.fn f) (0x10000000 * f.val + 0x1000) s ≠ .pass then s
    else mbxRequest f.val op tag.toNat (reqBytes op area index 0 data.length tag.toNat data) (fun s =>
      if f.val ≠ 0 then (MResp.code 9, s)
      else
        let (r, s) := eff 1 s
        (r.resp, s)) s
  | .can txn => canRequest txn.toNat op data.length (fun s =>
      let (r, s) := eff 2 s
      (r.resp, s)) s

/-- A command of register `c` at address `a`, from a write of the register or an EXEC of entry 4.`index` (R16, R339). `eff` performs it
for a path code and says whether it was accepted. While a command is in progress a write is ignored and counted; an EXEC is
refused with reason 0 (log entry 16). -/
def viaCmd (src : CmdSrc) (c : CmdReg) (a index : Nat) (data : List Byte) (eff : Nat → State → CmdRes × State) (s : State) : State :=
  match src with
  | .reg r => gated r a (cmdWrite c fun s => (eff (reqPath r) s).2) s
  | .od p => viaMusyn p 3 4 index data (fun path s => if s.cmdBusy c then (.refused 0, s) else eff path s) s

end Sys2Proof.Machine
end

