-- ==== Sys2Proof/Machine/Nvm.lean ====
section
/-!
DEFINITION. What the NVM keeps (spec 15_boot_update_logbook.md, R383, R391, R396): image slots, the configuration store, lifetime
values, and the erase journal as far as its INTENT entries and counters show it.
-/

namespace Sys2Proof.Machine

/-- The NVM takes no write: the NOR flash has failed (Table 1.8). -/
def State.nvmDead (s : State) : Bool := s.deadDies.contains dieNor

/-- Slot `b`: 0 A, 1 B. -/
def State.imgSlot (s : State) (b : Nat) : ImgSlot := if b = 0 then s.slotA else s.slotB

/-- HUB_FW_SLOTS.NEXT: the slot that step 3 would try first (R392): the request of BOOT_SLOT, else the candidate with the highest
STAGE_SEQ by signed difference. BOOT_MODE comes before either. -/
def State.nextSlot (s : State) : Nat :=
  let ok (x : ImgSlot) : Bool := x.state == 1 || x.state == 2
  let m := s.get R.HUB_BOOT_MODE
  if m = 1 then 0 else if m = 2 then 1
  else match s.bootFirst with
  | some b => b
  | none =>
    if !ok s.slotB then 0 else if !ok s.slotA then 1
    else if toSigned 32 (ofSigned 32 ((s.slotB.seq : Int) - s.slotA.seq)) > 0 then 1 else 0

/-- HUB_FW_SLOTS follows the slots. -/
def showSlots (s : State) : State :=
  ((s.set R.HUB_FW_SLOTS_A s.slotA.state).set R.HUB_FW_SLOTS_B s.slotB.state).set R.HUB_FW_SLOTS_NEXT s.nextSlot

/-- Slot `b` holds record `x`. -/
def putSlot (b : Nat) (x : ImgSlot) (s : State) : State := showSlots (if b = 0 then { s with slotA := x } else { s with slotB := x })

/-- OD_VERSION of the running image; before step 4 runs one, that of the store. -/
def State.odVersion (s : State) : Nat :=
  if s.bootReached 4 then (s.imgSlot (s.get R.HUB_BOOT_SLOT)).odVer else ((s.cfgStore.getLast?).map CfgRec.ver).getD 0x100

/-! ## Configuration store -/

/-- A record of entry `a`.`i` is appended (R396); of one entry and OD_VERSION only the newest is kept. -/
def cfgPut (a i v : Nat) (s : State) : State :=
  let ver := s.odVersion
  { s with cfgStore := (s.cfgStore.filter fun r => !(r.area == a && r.index == i && r.ver == ver)) ++
      [{ area := a, index := i, ver := ver, value := v }] }

/-- The newest record of an entry. -/
def State.cfgNewest (s : State) (a i : Nat) : Option Nat :=
  (s.cfgStore.reverse.find? fun r => r.area == a && r.index == i).map CfgRec.value

/-- A persisting write (R336): both copies are written, or it fails and ALERT.NVM is set. -/
def persist (a i v : Nat) (s : State) : Bool × State :=
  if s.nvmDead then (false, setAlert alertNvm s) else (true, cfgPut a i v s)

/-- A class L value is set and kept in the store. -/
def lifeSet (a i v : Nat) (s : State) : State :=
  let s := s.odSet a i v
  if s.nvmDead then s else cfgPut a i v s

/-- A class L counter of 32 bits advances. -/
def lifeInc (a i : Nat) (s : State) : State := lifeSet a i ((s.odGet a i 0 + 1) % 2 ^ 32) s

/-- OPER_SECONDS is written to the store (R396). -/
def operSave (s : State) : State := if s.nvmDead then s else cfgPut 3 1 (s.odGet 3 1 0) s

/-! ## Erases -/

/-- First sectors of the regions of Table 15.1 that are erased in service. -/
def sectorSlot (b : Nat) : Nat := 512 * b
def sectorLog : Nat := 1344
def sectorSummary (k : Nat) : Nat := 1476 + 4 * k

/-- The erase of a sector has its INTENT entry (R383). -/
def eraseIntent (sector : Nat) (s : State) : State := { s with intents := s.intents ++ [sector] }

/-- The erases that began with `sector` end: CLEAN, or FAILED with its count, ALERT.NVM and record. -/
def eraseEnd (sector n : Nat) (ok : Bool) (s : State) : State :=
  let s := { s with intents := s.intents.filter (· != sector) }.incWrap R.HUB_NVM_STAT_ERASES n
  if ok then s else logAlert alertNvm 0 0xFF 0x0007 (leBytes 2 sector ++ leBytes 2 1) (s.incSat R.HUB_NVM_STAT_BAD)

end Sys2Proof.Machine
end

