-- ==== Sys2Proof/Machine/Clock.lean ====
section
/-!
DEFINITION. FabricTime's output and trackers (spec 12_fabric_time.md): the output's states and steps (R310, R311), entry of a
tracker into a state (R309), and the lateness rule of scheduled actions (R314).
-/

namespace Sys2Proof.Machine

/-- Domain `d`. -/
def State.dom (s : State) (d : Nat) : TimeDom := tget { exch := [], good := 0, updated := false, outSeq := 0, txStamp := [] } s.doms d

/-- The state with domain `d` at `x`. -/
def State.putDom (s : State) (d : Nat) (x : TimeDom) : State := { s with doms := tput d x s.doms }

/-- Codes of FTM_STAT.STATE and of FTM_DOM.STATE. -/
def outFree : Nat := 0
def outTracking : Nat := 1
def outSlewing : Nat := 2
def outHoldover : Nat := 3
def trkOff : Nat := 0
def trkAcquiring : Nat := 1
def trkLocked : Nat := 2
def trkLost : Nat := 3

/-- Domain time minus output of domain `d`, in 2^-32 s. -/
def State.domOffset (s : State) (d : Nat) : Int := toSigned 64 (s.get (R.FTM_DOM_OFFSET d))

/-- A tracker is LOCKED. -/
def State.domLocked (s : State) (d : Nat) : Bool := s.get (R.FTM_DOM_STATE d) == trkLocked

/-- |v| in 2^-32 s is at most `ns` nanoseconds. -/
def withinNs (v : Int) (ns : Nat) : Bool := decide (v.natAbs * 1000000000 ≤ ns * 2 ^ 32)

/-- |v| in 2^-32 s is less than `ns` nanoseconds. -/
def underNs (v : Int) (ns : Nat) : Bool := decide (v.natAbs * 1000000000 < ns * 2 ^ 32)

/-- What lateness L = FabricTime − T makes of a scheduled action at a decision point (R314). -/
inductive Lateness where
  | wait | late | stale
  deriving DecidableEq, Repr

/-- The lateness of instant `t` now. -/
def State.lateness (s : State) (t : Nat) : Lateness :=
  let l := timeDiff s.time64 t
  if l < 0 then .wait else if underNs l 1000000 then .late else .stale

/-- The armed map's activation instant, if one waits for its instant. -/
def State.armedAt (s : State) : Option Nat :=
  match s.slcPlan with
  | some p => if s.get R.SLC_PLAN_STATUS = 4 ∧ !nbit (p.words.getD 0 0) 24 then some (p.words.getD 4 0 + 2 ^ 32 * p.words.getD 5 0) else none
  | none => none

/-- The armed map is rejected as STALE (R241): nothing of it is performed, and its permits are free (R354). -/
def slcStale (s : State) : State :=
  let s := ((s.set R.SLC_PLAN_STATUS 3).set R.SLC_PLAN_REASON 8).setBit R.SLC_ACT_STALE true
  releasePermits (fun h => h % 256 == 9) { s.incSat R.SLC_CNT_REJECTS with slcPlan := none, actDue := false }

/-- The output has moved by `δ` in 2^-32 s against the domains: the offsets of those it does not lead move with it. -/
def shiftOffsets (δ : Int) (s : State) : State :=
  [0, 1].foldl (fun t d =>
    if t.bit (R.FTM_DOM_GM d) || t.get (R.FTM_DOM_STATE d) == trkOff then t
    else t.set (R.FTM_DOM_OFFSET d) (ofSigned 64 (t.domOffset d - δ))) s

/-- The output's counter moves by `δ` at once. -/
def moveOutput (δ : Int) (s : State) : State :=
  let wrap : Int := 2 ^ 64 * unitsPerTick
  shiftOffsets δ { s with ftime := (((s.ftime : Int) + δ * unitsPerTick) % wrap).toNat }

/-- The output steps by `δ`: a forward step across the instant of an armed map is a decision point (R314). -/
def stepOutput (δ : Int) (s : State) : State :=
  let t := moveOutput δ s
  match t.armedAt with
  | none => t
  | some a =>
    if δ ≤ 0 ∨ timeDiff s.time64 a ≥ 0 then t
    else match t.lateness a with
    | .wait => t
    | .late => { t with actDue := true }
    | .stale => slcStale t

/-- The PLL's rate correction (R310) is at most ±200 ppm; the spec states no value, so it is a free value within that bound. -/
def rateFree (s : State) : State :=
  let (v, s) := s.free
  s.set R.FTM_RATE_RATE (ofSigned 32 (((v % 26214401 : Nat) : Int) - 13107200))

/-- The output's state; SYNCED is 1 in TRACKING only and LPE_PILOT mirrors it (R310). Leaving TRACKING raises the TIME alert; entering
TRACKING clears DISAGREE; entering HOLDOVER starts HOLD_S. -/
def outEnter (st : Nat) (s : State) : State :=
  let was := s.get R.FTM_STAT_STATE
  let s := ((s.set R.FTM_STAT_STATE st).setBit R.FTM_STAT_SYNCED (st == outTracking)).setBit R.LPE_PILOT_SYNCED (st == outTracking)
  let s := if was == outTracking && st != outTracking then setAlert alertTime s else s
  let s := if st == outTracking then s.setBit R.FTM_STAT_DISAGREE false else s
  let s := if was == outTracking || was == outSlewing || st == outTracking || st == outSlewing then rateFree s else s
  if st == outHoldover && was != outHoldover then { s.set R.FTM_STAT_HOLD_S 0 with holdFrom := s.cycles } else s

/-- The output begins to follow domain `d` (R311): Δ is that tracker's OFFSET. -/
def follow (d : Nat) (s : State) : State :=
  let δ := s.domOffset d
  let was := s.get R.FTM_STAT_STATE
  if (was == outTracking || was == outSlewing) && s.get R.FTM_STAT_FOLLOWING == d then s
  else if was == outFree then outEnter outTracking ((stepOutput δ (s.set R.FTM_STAT_FOLLOWING d)).setBit R.FTM_STAT_STEPPED true)
  else if withinNs δ 20 then outEnter outTracking (stepOutput δ (s.set R.FTM_STAT_FOLLOWING d))
  else if withinNs δ 1000000 then outEnter outSlewing (s.set R.FTM_STAT_FOLLOWING d)
  else
    let s := outEnter outHoldover s
    if s.bit R.FTM_STAT_DISAGREE then s
    else logEvent 12 d 0x0900 (leBytes 1 d ++ leBytes 8 (ofSigned 64 δ)) (s.setBit R.FTM_STAT_DISAGREE true)

/-- The output chooses its tracker (R311): the primary while LOCKED, unless it still follows the other until PRIMARY_RETURN; else the
other with AUTO_SWITCH; else HOLDOVER. -/
def chooseOutput (s : State) : State :=
  let p := s.get R.FTM_CFG_PRIMARY
  let o := 1 - p
  let st := s.get R.FTM_STAT_STATE
  let onOther := s.awayPrimary && (st == outTracking || st == outSlewing) && s.get R.FTM_STAT_FOLLOWING == o && s.domLocked o
  if s.domLocked p && !onOther then follow p { s with awayPrimary := false }
  else if onOther then s
  else if s.bit R.FTM_CFG_AUTO_SWITCH && s.domLocked o then
    (follow o { s with awayPrimary := true }).setBit R.FTM_STAT_SWITCHED true
  else if st == outFree then s
  else outEnter outHoldover s

/-- Domain `d`'s tracker enters state `st` (Table 12.3); the output chooses again. -/
def trkEnter (d st : Nat) (s : State) : State :=
  let s := s.set (R.FTM_DOM_STATE d) st
  let s := s.putDom d { s.dom d with good := 0 }
  chooseOutput s

/-- A LOCKED tracker is LOST (R309). -/
def trkLose (d : Nat) (s : State) : State :=
  if s.domLocked d && !s.bit (R.FTM_DOM_GM d) then trkEnter d trkLost (s.incSat (R.FTM_DOM_LOSSES d)) else s

/-- Port `p` retrained, changed width or left UP: exchanges in progress over it are disturbed (R308). -/
def timeDisturb (p : Nat) (s : State) : State :=
  [0, 1].foldl (fun s d =>
    if s.get (R.FTM_DOM_PARENT d) = p then
      let x := s.dom d
      s.putDom d { x with exch := x.exch.map fun e => { e with disturbed := true } }
    else s) s

/-- Port `p` has left UP: trackers with it as parent are LOST (Table 12.3). -/
def timePortLost (p : Nat) (s : State) : State :=
  [0, 1].foldl (fun s d =>
    if s.get (R.FTM_DOM_PARENT d) = p ∧ s.get (R.FTM_DOM_STATE d) ≠ trkOff then trkLose d s else s) (timeDisturb p s)

end Sys2Proof.Machine
end

