-- ==== Sys2Proof/Machine/Map.lean ====
section
/-!
DEFINITION. Sluice maps (spec 09_sluice_and_headgates.md): the image of Tables 9.3 and 9.4, the lines it terminates (R233), the
Beneš cores and their routing (R229, R238), and the heater codes of elements (R249).
-/

namespace Sys2Proof.Machine

/-! ## The image -/

/-- Words of a map image. -/
def mapWords : Nat := 272

/-- Bytes of a map image given by its words. -/
def wordsBytes (ws : List Nat) : List Byte := ws.flatMap (leBytes 4)

/-- The map in SLC_STAGE, and the committed map. -/
def State.stagedMap (s : State) : List Nat := (List.range mapWords).map fun i => s.get (R.SLC_STAGE_WORD i)
def State.committedMap (s : State) : List Nat := (List.range mapWords).map fun i => s.get (R.SLC_COMMIT_WORD i)

/-- Entry `k` of a map. -/
def mapEntry (ws : List Nat) (k : Nat) : Nat := nfld (ws.getD (16 + k / 2) 0) (16 * (k % 2)) 16

def entAction (e : Nat) : Nat := e % 4
def entKeep (e : Nat) : Bool := nbit e 2
def entDest (e : Nat) : Nat := nfld e 4 7

def mapId (ws : List Nat) : Nat := ws.getD 1 0
def mapBase (ws : List Nat) : Nat := ws.getD 2 0
def mapEpoch (ws : List Nat) : Nat := ws.getD 3 0
def mapImmediate (ws : List Nat) : Bool := nbit (ws.getD 0 0) 24
def mapActTime (ws : List Nat) : Nat := ws.getD 4 0 + 2 ^ 32 * ws.getD 5 0

/-- The entries of a map. -/
def mapEntries (ws : List Nat) : List Nat := (List.range 512).map (mapEntry ws)

/-- Entries `es`: the ports whose line `m` is expressed to `d`, ascending. -/
def expressTo (es : List Nat) (d m : Nat) : List Nat :=
  (List.range 32).filter fun p => let e := es.getD (16 * p + m) 0; entAction e == 1 && entDest e == d

/-- Two entries of one line express to one port (Table 14.1 case 2). -/
def mapClash (es : List Nat) : Bool :=
  (List.range 16).any fun m => (List.range 32).any fun d => decide (1 < (expressTo es d m).length)

/-- Line `m` is terminated at port `p` (R233). -/
def terminated (es : List Nat) (p m : Nat) : Bool := entAction (es.getD (16 * p + m) 0) == 0 && (expressTo es p m).isEmpty

/-- Lines of port `p` that the committed map terminates, as a mask. -/
def State.termMask (s : State) (p : Nat) : Nat :=
  let es := mapEntries s.committedMap
  bitsNat ((List.range 16).map (terminated es p))

/-- Lines that port `p` transmits from its own modulators. -/
def State.ownLines (s : State) (p : Nat) : Nat :=
  let es := mapEntries s.committedMap
  bitsNat ((List.range 16).map fun m => (expressTo es p m).isEmpty)

/-! ## Element states: `true` is CROSS -/

/-- Committed state of element `j` of plane `m`. -/
def State.elemState (s : State) (m j : Nat) : Bool := s.bit (R.SLC_ELEM_COMMITTED m j)

/-- Output of a 2^lg-port sub-network of stage `s0` and row `r0` that input `i` reaches, with the elements it passes (R229). -/
def corePath (st : Nat → Bool) : Nat → Nat → Nat → Nat → Nat × List Nat
  | 0, _, _, i => (i, [])
  | 1, s0, r0, i =>
    let j := 16 * s0 + r0
    ((if st j then 1 - i else i), [j])
  | lg + 2, s0, r0, i =>
    let a := i / 2
    let first := 16 * s0 + r0 + a
    let lower := (i % 2 == 1) != st first
    let (b, js) := corePath st (lg + 1) (s0 + 1) (if lower then r0 + 2 ^ lg else r0) a
    let last := 16 * (s0 + 2 * (lg + 2) - 2) + r0 + b
    ((2 * b + if lower != st last then 1 else 0), first :: js ++ [last])

/-- Output port that core input `i` reaches, and the core elements on the way. -/
def coreRoute (st : Nat → Bool) (i : Nat) : Nat × List Nat := corePath st 5 0 0 i

/-! ## The looping algorithm (R238) -/

/-- Sides given so far to the inputs and the outputs of a sub-network: `true` is LOWER. -/
structure Sides where
  ins : List (Nat × Bool)
  outs : List (Nat × Bool)

/-- A side, if set. -/
def sideOf (l : List (Nat × Bool)) (i : Nat) : Option Bool := (l.find? fun p => p.1 == i).map Prod.snd

/-- One loop: sides are set until an input comes up that has one. -/
def loopGo (perm inv : List Nat) (lower : Bool) : Nat → Nat → Sides → Sides
  | 0, _, d => d
  | fuel + 1, i, d =>
    let o := perm.getD (i ^^^ 1) 0
    let d : Sides := { ins := (i, lower) :: (i ^^^ 1, !lower) :: d.ins, outs := (o, !lower) :: (o ^^^ 1, lower) :: d.outs }
    let i' := inv.getD (o ^^^ 1) 0
    match sideOf d.ins i' with
    | some _ => d
    | none => loopGo perm inv lower fuel i' d

/-- The loops of a sub-network of `n` inputs, each begun at the lowest element without a side, one on a path of both maps first. -/
def loopAll (perm inv : List Nat) (both : Nat → Bool) (com : Nat → Bool) (n : Nat) : Nat → Sides → Sides
  | 0, d => d
  | fuel + 1, d =>
    let free := (List.range (n / 2)).filter fun a => (sideOf d.ins (2 * a)).isNone
    match (free.find? both).orElse fun _ => free.head? with
    | none => d
    | some a => loopAll perm inv both com n fuel (loopGo perm inv (com a) (n + 1) (2 * a) d)

/-- Inverse of a permutation of 0 to n − 1. -/
def permInv (perm : List Nat) : List Nat := (List.range perm.length).map fun o => perm.idxOf o

/-- The element settings of a sub-network that route `perm`: element and state. `kept` marks the inputs whose path is present in both
maps; `com` is the committed state of each core element. -/
def routeNet (com : Nat → Bool) : Nat → Nat → Nat → List Nat → List Bool → List (Nat × Bool)
  | 0, _, _, _, _ => []
  | 1, s0, r0, perm, _ => [(16 * s0 + r0, perm.getD 0 0 != 0)]
  | lg + 2, s0, r0, perm, kept =>
    let n := 2 ^ (lg + 2)
    let d := loopAll perm (permInv perm) (fun a => kept.getD (2 * a) false || kept.getD (2 * a + 1) false)
      (fun a => com (16 * s0 + r0 + a)) n n { ins := [], outs := [] }
    let low (l : List (Nat × Bool)) (i : Nat) : Bool := (sideOf l i).getD false
    let first := (List.range (n / 2)).map fun a => (16 * s0 + r0 + a, low d.ins (2 * a))
    let last := (List.range (n / 2)).map fun b => (16 * (s0 + 2 * (lg + 2) - 2) + r0 + b, low d.outs (2 * b))
    let pick (side : Bool) (a : Nat) : Nat := if low d.ins (2 * a) == side then 2 * a else 2 * a + 1
    let sub (side : Bool) : List Nat × List Bool :=
      ((List.range (n / 2)).map (fun a => perm.getD (pick side a) 0 / 2), (List.range (n / 2)).map fun a => kept.getD (pick side a) false)
    first ++ last ++ routeNet com (lg + 1) (s0 + 1) r0 (sub false).1 (sub false).2 ++
      routeNet com (lg + 1) (s0 + 1) (r0 + 2 ^ lg) (sub true).1 (sub true).2

/-- The permutation of plane `m` (R238, steps 1 to 3): expressed inputs, then the remaining inputs on the output they reached in the
committed settings where it is free, then the rest in ascending order. -/
def planePerm (es : List Nat) (m : Nat) (com : Nat → Bool) : List Nat :=
  let step1 := (List.range 32).map fun p => let e := es.getD (16 * p + m) 0; if entAction e == 1 then some (entDest e) else none
  let used1 := step1.filterMap id
  let step2 := (List.range 32).foldl (fun (acc : List (Option Nat) × List Nat) p =>
    match step1.getD p none with
    | some d => (acc.1 ++ [some d], acc.2)
    | none =>
      let o := (coreRoute com p).1
      if acc.2.contains o then (acc.1 ++ [none], acc.2) else (acc.1 ++ [some o], o :: acc.2)) ([], used1)
  let rest := (List.range 32).filter fun o => !step2.2.contains o
  (step2.1.foldl (fun (acc : List Nat × List Nat) x => match x with
    | some d => (acc.1 ++ [d], acc.2)
    | none => (acc.1 ++ [acc.2.headD 0], acc.2.drop 1)) ([], rest)).1

/-- ACTION and DEST of entry `k` agree in two maps. -/
def sameRoute (es cs : List Nat) (k : Nat) : Bool :=
  entAction (es.getD k 0) == entAction (cs.getD k 0) && entDest (es.getD k 0) == entDest (cs.getD k 0)

/-- Entry `k` is an EXPRESS path of both maps. -/
def pathOfBoth (es cs : List Nat) (k : Nat) : Bool := entAction (es.getD k 0) == 1 && sameRoute es cs k

/-- Settings of plane `m` for entries `es`, with committed entries `cs` and states `com`: the elements in CROSS. -/
def planeCross (es cs : List Nat) (m : Nat) (com : Nat → Bool) : List Nat :=
  let core := routeNet com 5 0 0 (planePerm es m com) ((List.range 32).map fun p => pathOfBoth es cs (16 * p + m))
  let entry := (List.range 32).map fun p => (144 + p, entAction (es.getD (16 * p + m) 0) != 0)
  let exit := (List.range 32).map fun d => (176 + d, !(expressTo es d m).isEmpty)
  ((core ++ entry ++ exit).filter Prod.snd).map Prod.fst

/-- Key of element `j` of plane `m`. -/
def elemKey (m j : Nat) : Nat := m * 256 + j

/-- Every element of the array. -/
def allElems : List (Nat × Nat) := (List.range 16).flatMap fun m => (List.range 208).map fun j => (m, j)

/-! ## Heater codes -/

/-- Die that holds element `j` of plane `m` (R229, R422): a link photonic die. -/
def elemDie (m j : Nat) : Nat := 56 + if j < 144 then m / 2 else (j - 144) % 32 / 4

/-- Die temperature in 1/256 °C. -/
def State.dieTemp (s : State) (i : Nat) : Int := toSigned 16 (s.get (R.PWR_TEMP_TEMP i))

/-- Heater code of element `j` of plane `m` in a state (R249). -/
def State.elemCode (s : State) (m j : Nat) (cross : Bool) : Nat :=
  let f (k : Nat) : Int := s.small 2 m (elemField j k)
  let c := divRne (f (if cross then 1 else 0) * 16384 + f 2 * (s.dieTemp (elemDie m j) - f 3)) 16384
  (max 0 (min 4095 c)).toNat

/-- Classification of a driven code (R250): 0 BAR, 1 CROSS, 2 INVALID. -/
def State.sillClass (s : State) (m j code : Nat) : Nat :=
  let near (c : Nat) : Bool := decide (code ≤ c + 24 ∧ c ≤ code + 24)
  if near (s.elemCode m j false) then 0 else if near (s.elemCode m j true) then 1 else 2

end Sys2Proof.Machine
end

