-- ==== Sys2Proof/Machine/Wire.lean ====
section
/-!
DEFINITION. What a port puts on its fibre (spec 08_usius_links.md): frames (R202 to R204), link-local bodies (Tables 8.6 and 12.2),
beacons (R223), and the choice of the next frame to send (R205, R217).
-/

namespace Sys2Proof.Machine

/-- Port `p`. -/
def State.port (s : State) (p : Nat) : PortSt := tget PortSt.reset s.ports p

/-- The state with port `p` at `x`. -/
def State.putPort (s : State) (p : Nat) (x : PortSt) : State := { s with ports := tput p x s.ports }

/-- Bytes go onto the fibre of port `p`. -/
def putWire (p : Nat) (bs : List Byte) (s : State) : State := { s with wire := s.wire ++ [(p, bs)] }

/-- Data padded with zeros to a multiple of 8. -/
def pad8 (bs : List Byte) : List Byte := bs ++ List.replicate ((8 - bs.length % 8) % 8) 0

/-- A transaction as bytes (Table 8.4). -/
def xactBytes (x : Xact) : List Byte :=
  let b := x.body
  leBytes 8 (x.op.toNat + 2 ^ 8 * b.attr.toNat + 2 ^ 13 * b.size.toNat + 2 ^ 22 * b.core.toNat + 2 ^ 32 * b.ftag.toNat +
    2 ^ 48 * (b.iseq.toNat % 65536)) ++
  leBytes 8 (b.iseq.toNat / 65536 + 2 ^ 16 * b.addr.toNat) ++ pad8 b.data

/-- The 16-byte frame header (Table 8.3). -/
def headerBytes (len ntx cls hops dst src flow lseq : Nat) : List Byte :=
  leBytes 8 (len + 2 ^ 7 * ntx + 2 ^ 10 * cls + 2 ^ 12 * hops + 2 ^ 16 * dst + 2 ^ 36 * src) ++ leBytes 8 (flow + 2 ^ 16 * lseq)

/-- LEN of a frame with `n` bytes between header and CRC. -/
def frameLen (n : Nat) : Nat := (16 + n + 4 + 7) / 8

/-- A frame around `body`, with its CRC and padding (R202, R204). -/
def sealFrame (ntx cls hops dst src flow lseq : Nat) (body : List Byte) : List Byte :=
  let len := frameLen body.length
  let crc := crc32 (headerBytes len ntx cls 0 dst src flow 0 ++ body)
  padTo (len * 8) (headerBytes len ntx cls hops dst src flow lseq ++ body ++ leBytes 4 crc)

/-- Bytes of a frame of class 0 to 2 with link sequence number `lseq`. -/
def Frame.bytes (f : Frame) (lseq : Nat) : List Byte :=
  sealFrame (f.xs.length - 1) f.cls f.hops f.dst f.src f.flow lseq (f.xs.flatMap xactBytes)

/-- Credits a frame uses (R205). -/
def Frame.credits (f : Frame) : Nat := (frameLen (f.xs.flatMap xactBytes).length * 8 + 63) / 64

/-- Credits of a class (Table 8.5). -/
def classCredits (cls : Nat) : Nat := if cls = 2 then 256 else 4096

/-- Credits of class `cls` that port `x` holds. -/
def PortSt.credit (x : PortSt) (cls : Nat) : Nat :=
  classCredits cls - (tget 0 x.used cls + 65536 - tget 0 x.freedFar cls) % 65536

/-- A link-local frame leaves port `p` (R205: it needs no credit). -/
def sendLocal (p : Nat) (body : List Byte) (s : State) : State :=
  putWire p (sealFrame 0 3 (s.get R.LNK_GLOBAL_HOPS_INIT) (s.get (R.LNK_PEER_PKG p)) (s.get R.LNK_GLOBAL_PKG) 0 0 body) s

/-- A LINK_ACK leaves port `p` (R206). -/
def sendAck (p : Nat) (nak : Bool) (s : State) : State :=
  let x := s.port p
  let cr (c : Nat) : Nat := tget 0 x.freedOwn c
  sendLocal p (leBytes 8 (1 + (if nak then 256 else 0) + 2 ^ 16 * x.rxSeq + 2 ^ 32 * cr 0 + 2 ^ 48 * cr 1) ++ leBytes 8 (cr 2)) s

/-- The effective architecture level (R6, R330). -/
def State.level (s : State) : Nat := s.get R.HUB_LEVEL_STAT_EFFECTIVE

/-- A feature bit is in force (R332). -/
def State.feature (s : State) (b : Nat) : Bool := nbit (s.get (R.HUB_FEATURE_BITS 0) &&& s.get (R.HUB_DRV_FEATURE_BITS 0)) b

/-- LIGHT_REQ of port `p`. -/
def State.lightReq (s : State) (p : Nat) : Bool := s.bit (R.LNK_CFG_LIGHT p) && s.feature 0

/-- A TRAIN body leaves port `p` (Table 8.6). -/
def sendTrain (p linesOk : Nat) (lightOk : Bool) (s : State) : State :=
  sendLocal p (leBytes 8 (2 + 2 ^ 8 * s.level + (if s.lightReq p then 2 ^ 12 else 0) + (if lightOk then 2 ^ 13 else 0) +
      2 ^ 16 * s.get R.LNK_GLOBAL_PKG + 2 ^ 36 * p + 2 ^ 48 * (s.get R.LNK_EPOCH_EPOCH % 65536)) ++
    leBytes 8 (s.get R.LNK_EPOCH_EPOCH / 65536 + 2 ^ 16 * linesOk +
      2 ^ 32 * (s.get (R.HUB_FEATURE_BITS 0) &&& s.get (R.HUB_DRV_FEATURE_BITS 0)))) s

/-- A TIME body leaves port `p` (Table 12.2). -/
def sendTime (p msg d : Nat) (trn : Bool) (hops seqid stamp gm : Nat) (locked : Bool) (s : State) : State :=
  sendLocal p (leBytes 8 (3 + 2 ^ 8 * msg + 2 ^ 10 * d + (if trn then 2 ^ 11 else 0) + 2 ^ 12 * hops + 2 ^ 16 * seqid +
      2 ^ 32 * (stamp % 2 ^ 32)) ++
    leBytes 8 (stamp / 2 ^ 32 + 2 ^ 32 * gm + (if locked then 2 ^ 52 else 0))) s

/-! ## Sending frames -/

/-- A frame leaves port `p` with the next LSEQ and stays in the replay buffer (R206). -/
def sendFrame (p : Nat) (f : Frame) (s : State) : State :=
  let x := s.port p
  let x' := { x with txSeq := (x.txSeq + 1) % 65536, replay := x.replay ++ [(x.txSeq, f)],
                     used := tput f.cls ((tget 0 x.used f.cls + f.credits) % 65536) x.used }
  putWire p (f.bytes x.txSeq) (s.putPort p x')

/-- Every unacknowledged frame of port `p` is sent again, in order (R206); `count` says whether as a replay. -/
def resend (p : Nat) (s : State) : State :=
  let r := (s.port p).replay
  (r.foldl (fun s e => putWire p (e.2.bytes e.1) s) s).incWrap (R.LNK_REPLAY p) r.length

/-- Port `p` drains after its removal from a gang: it takes no new frame (R215). -/
def State.draining (s : State) (p : Nat) : Bool := s.gangDrain.any fun x => x.2.2.contains p

/-- The first frame in transit of class `cls` whose FLOW selects port `p`. -/
def transitHead (p cls : Nat) (s : State) : Option (Nat × Nat × Frame) :=
  s.transit.find? fun t => t.2.2.cls == cls && s.selectPort (t.2.2.dst % 65536) t.2.2.flow == some p

/-- Own transactions that can share a frame with `h`: same class, destination and FLOW, taken in order up to 8 and 512 bytes (R202,
R203); and those that stay. -/
def gatherGo (h : RoutedXact) : List RoutedXact → List Xact → Nat → List Xact × List RoutedXact
  | [], got, _ => (got, [])
  | e :: r, got, n =>
    let m := (xactBytes e.x).length
    if e.cls = h.cls ∧ e.dst = h.dst ∧ e.flow = h.flow then
      if got.length < 8 ∧ frameLen (n + m) ≤ 64 then gatherGo h r (got ++ [e.x]) (n + m)
      else (got, e :: r)
    else
      let (g, rest) := gatherGo h r got n
      (g, e :: rest)

/-- The next own frame of class `cls` for port `p`, and the transactions that stay. -/
def ownHead (p cls : Nat) (s : State) : Option (Frame × List RoutedXact) :=
  match s.fabricOut.find? fun e => e.cls == cls && e.dst != s.pkg && s.selectPort e.dst e.flow == some p with
  | none => none
  | some h =>
    let (xs, rest) := gatherGo h s.fabricOut [] 0
    some ({ cls := cls, dst := h.dst, src := s.get R.LNK_GLOBAL_PKG, flow := h.flow, hops := s.get R.LNK_GLOBAL_HOPS_INIT, xs := xs }, rest)

/-- Credits `n` of class `cls` of port `p`'s receive buffer are free again. -/
def freeCredit (p cls n : Nat) (s : State) : State :=
  let x := s.port p
  s.putPort p { x with freedOwn := tput cls ((tget 0 x.freedOwn cls + n) % 65536) x.freedOwn }

/-- Port `p` sends one frame of class `cls` if one waits for it and it holds the credit: a frame in transit before an own one (log
entry 17). -/
def sendClass (p cls : Nat) (s : State) : Option State :=
  match transitHead p cls s with
  | some t =>
    if t.2.2.credits ≤ (s.port p).credit cls then
      some (freeCredit t.1 cls t.2.1 (sendFrame p t.2.2 { s with transit := s.transit.erase t }))
    else none
  | none =>
    match ownHead p cls s with
    | some (f, rest) => if f.credits ≤ (s.port p).credit cls then some (sendFrame p f { s with fabricOut := rest }) else none
    | none => none

/-- FRAME_TRANSMIT of port `p` (R205): of the classes that can send, responses go first, then fabric control, then requests (log entry 17). -/
def transmit (p : Nat) (s : State) : State :=
  if !s.portUp p || s.draining p then s
  else ((sendClass p 1 s).orElse fun _ => (sendClass p 2 s).orElse fun _ => sendClass p 0 s).getD s

/-- A class 0 frame waits at port `p` for lack of credit (R220). -/
def State.creditStalled (s : State) (p : Nat) : Bool :=
  s.portUp p && !s.draining p && (match transitHead p 0 s with
    | some t => decide ((s.port p).credit 0 < t.2.2.credits)
    | none => match ownHead p 0 s with
      | some (f, _) => decide ((s.port p).credit 0 < f.credits)
      | none => false)

/-! ## Beacons -/

/-- Bits `lo` to `hi − 1` of a number in ascending order. -/
def bitsOf (n lo hi : Nat) : List Bool := (List.range (hi - lo)).map fun i => nbit n (lo + i)

/-- CRC field of a beacon frame: frame bit 120 + i is bit 7 − i of the CRC (R223). -/
def beaconCrc (n : Nat) : Nat :=
  let c := crc8 (bitsOf n 16 120)
  bitsNat ((List.range 8).map fun i => nbit c (7 - i))

/-- The beacon frame that port `p` sends (Table 8.10). -/
def State.beaconOf (s : State) (p : Nat) : Nat :=
  let n := 0xB5C3 + 2 ^ 16 * s.get R.HUB_ARCH_LEVEL + 2 ^ 20 * s.get R.LNK_GLOBAL_PKG + 2 ^ 40 * p + 2 ^ 48 * s.get R.LNK_EPOCH_EPOCH +
    2 ^ 80 * s.ownLines p + (if s.portUp p then 2 ^ 112 else 0)
  n + 2 ^ 120 * beaconCrc n

end Sys2Proof.Machine
end

