-- ==== Sys2Proof/Machine/Links.lean ====
section
/-!
DEFINITION. The Usius ports (spec 08_usius_links.md): port states, training, lane drop, acknowledgement and replay, gangs, the
package identifier, and the discovery beacon.
-/

namespace Sys2Proof.Machine

/-- Codes of Table 8.1. -/
def ptDisabled : Nat := 0
def ptDown : Nat := 1
def ptTraining : Nat := 2
def ptEpochWait : Nat := 3
def ptUp : Nat := 4
def ptOut : Nat := 5

/-- State of port `p`. -/
def State.ptState (s : State) (p : Nat) : Nat := s.get (R.LNK_STAT_STATE p)

/-! ## Entering a state -/

/-- LNK_GANG[g].UP of the gangs that hold port `p` (R215). -/
def gangUp (p : Nat) (s : State) : State :=
  (List.range 16).foldl (fun s g =>
    if nbit (s.get (R.LNK_GANG_PORTS g)) p then s.set (R.LNK_GANG_UP g) (nput (s.get (R.LNK_GANG_UP g)) p (s.portUp p)) else s) s

/-- Frames in transit that have no usable port left are dropped and counted on the port they arrived on (R219). -/
def dropUnrouted (s : State) : State :=
  s.transit.foldl (fun s t =>
    if (s.usablePorts (t.2.2.dst % 65536)).isEmpty then
      (freeCredit t.1 t.2.2.cls t.2.1 { s with transit := s.transit.erase t }).incSat (R.LNK_NOROUTE t.1)
    else s) s

/-- Port `p` loses its replay buffer and its receive buffers (R208). -/
def dropBuffers (p : Nat) (s : State) : State :=
  let s := s.putPort p { s.port p with replay := [], used := [], freedFar := [], freedOwn := [], txSeq := 0, rxSeq := 0, nakRun := 0,
                                       keep := false }
  { s with transit := s.transit.filter fun t => t.1 != p }

/-- Port `p` enters state `st` (Table 8.1). Leaving UP, its gang, its trackers and LNK_STAT follow; out of UP, TRAINING and EPOCH_WAIT
it has no buffers, no lines and no peer. -/
def portEnter (p st : Nat) (s : State) : State :=
  let was := s.ptState p
  let s := s.set (R.LNK_STAT_STATE p) st
  let s := gangUp p s
  let s := if st = ptUp then s else s.set (R.LNK_STAT_FEC p) 0
  let s := if was = ptUp ∧ st ≠ ptUp then timePortLost p s else s
  let s := if was = ptUp ∧ st = ptDown then s.incSat (R.LNK_DOWNS p) else s
  if st = ptDown ∨ st = ptDisabled ∨ st = ptOut then
    let s := ((s.set (R.LNK_STAT_WIDTH p) 0).set (R.LNK_LINES_ACTIVE p) 0).setBit (R.LNK_PEER_VALID p) false
    dropUnrouted (dropBuffers p s)
  else s

/-- Port `p` goes DOWN. -/
def portDown (p : Nat) (s : State) : State := portEnter p ptDown s

/-- Ports that a rule takes DOWN: those that are UP, TRAINING or in EPOCH_WAIT. -/
def portFall (p : Nat) (s : State) : State :=
  let st := s.ptState p
  if st = ptUp ∨ st = ptTraining ∨ st = ptEpochWait then portDown p s else s

/-- Port `p` enters OUT (R360, Table 8.1): its PORT_PRESENT bit clears and ALERT.PORT_OUT is set. -/
def portOut (p : Nat) (s : State) : State :=
  let s := portEnter p ptOut s
  let s := scbRecheck (scbAbortRun (· == unitPort p) s)
  setAlert alertPortOut (s.set R.HUB_PORT_MAP_PORT_PRESENT (nput (s.get R.HUB_PORT_MAP_PORT_PRESENT) p false))

/-! ## Training -/

/-- Training of port `p` begins (Table 8.7): from UP it keeps the replay and receive buffers (R212). -/
def trainBegin (p : Nat) (s : State) : State :=
  let keep := s.ptState p == ptUp || (s.port p).keep
  let s := portEnter p ptTraining s
  (s.putPort p { s.port p with keep := keep, needRise := false, retryWait := false, peer := none }).incSat (R.LNK_TRAIN_START p)

/-- Port `p` may train: its link group and the ring heaters have power (R408), it has a valid table (R297), and no PORT calibration of it
runs (Table 11.1). -/
def State.mayTrain (s : State) (p : Nat) : Bool :=
  s.bit (R.PWR_DOM_EN (15 + p / 8)) && s.bit (R.PWR_DOM_EN 23) && !s.bit (R.SCB_UNIT_MISSING (unitPort p)) &&
    s.scbState (unitPort p) != scbRunning


/-- TRAINING_START (R208, R209, R212): light, where AUTO_RETRAIN lets it start a training of a DOWN port that no DOWN command and no
wait holds; or a retrain of a port that is DOWN, UP or in EPOCH_WAIT. -/
def trainingStart (p : Nat) (cause : TrainCause) (s : State) : State :=
  let st := s.ptState p
  if !s.mayTrain p then s else
  match cause with
  | .light =>
    let x := s.port p
    if st = ptDown ∧ s.bit (R.LNK_CFG_AUTO_RETRAIN p) ∧ !x.needRise ∧ !x.retryWait then trainBegin p s else s
  | .retrain => if st = ptDown ∨ st = ptUp ∨ st = ptEpochWait then trainBegin p s else s

/-- A RETRAIN of port `p` by software or by the package (R212, R214). In TRAINING it starts the training again. -/
def retrain (p : Nat) (s : State) : State :=
  let st := s.ptState p
  if st = ptDisabled ∨ st = ptOut ∨ !s.mayTrain p then s
  else
    let s := s.setBit (R.LNK_STAT_LIGHT_FALLBACK p) false
    let s := if s.bit (R.LNK_CFG_LIGHT p) then s.putPort p { s.port p with noLight := false } else s
    trainBegin p s

/-- Lines that LINES_MAX permits port `p` (R195). -/
def State.linesMax (s : State) (p : Nat) : Nat :=
  let m := s.get (R.LNK_CFG_LINES_MAX p)
  2 ^ (if m = 4 ∨ m = 8 ∨ m = 12 then m else 16) - 1

/-- The lines of the groups of four that lie whole in mask `m` (R195). -/
def wholeGroups (m : Nat) : Nat :=
  (List.range 4).foldl (fun a j => if nfld m (4 * j) 4 = 15 then a + 15 * 2 ^ (4 * j) else a) 0

/-- Number of lines in a mask. -/
def lineCount (m : Nat) : Nat := (bitList m 16).length

/-- A training of port `p` fails (R209): it is counted, and the port waits to train again. -/
def trainFail (p : Nat) (s : State) : State :=
  let s := portDown p (s.incSat (R.LNK_TRAIN_FAILS p))
  let x := s.port p
  let s := s.putPort p { x with retryWait := true, fails := x.fails + 1 }
  if x.fails + 1 ≥ 8 then s.setBit (R.LNK_STAT_TRAIN_FAIL p) true else s

/-- The credits are full, LSEQ and ACKSEQ are 0 (Table 8.7), and frames kept over a retrain are numbered again from 0 (log entry 18). -/
def freshCredits (p : Nat) (s : State) : State :=
  let x := s.port p
  let replay := x.replay.zipIdx.map fun (e, i) => (i % 65536, e.2)
  let used := replay.foldl (fun u e => tput e.2.cls ((tget 0 u e.2.cls + e.2.credits) % 65536) u) []
  let s := s.putPort p { x with txSeq := x.replay.length % 65536, rxSeq := 0, replay := replay, used := used, freedFar := [],
                                freedOwn := [], nakRun := 0 }
  { s with transit := s.transit.map fun t => if t.1 = p then (t.1, 0, t.2.2) else t }

/-- Port `p` is UP: it carries frames, and frames kept over a retrain are sent again (R212). FEC reads 0 in light mode. -/
def portComesUp (p : Nat) (s : State) : State :=
  let s := (portEnter p ptUp s).setBit (R.LNK_STAT_FEC p) (!(s.port p).lightMode)
  let keep := (s.port p).keep
  let s := s.putPort p { s.port p with fails := 0, keep := false }
  let s := ((s.setBit (R.LNK_STAT_TRAIN_FAIL p) false).setBit (R.LNK_STAT_NBR_MISMATCH p) false).setBit (R.LNK_PEER_VALID p) true
  if keep then resend p s else s

/-- A trained port compares the epochs (R210): it goes UP, or waits in EPOCH_WAIT. -/
def epochCheck (p : Nat) (s : State) : State :=
  match (s.port p).peer with
  | none => s
  | some b =>
    let s := s.set (R.LNK_PEER_EPOCH p) b.epoch.toNat
    if b.epoch.toNat = s.get R.LNK_EPOCH_EPOCH then portComesUp p s else portEnter p ptEpochWait s

/-- Both ends' conditions for light mode hold on port `p` (R200, R201). -/
def lightAgreed (p : Nat) (b : TrainBody) (corrected : Bool) (s : State) : Bool :=
  s.lightReq p && b.lightReq && b.lightOk && !corrected && decide (1 ≤ b.level.toNat) && decide (1 ≤ s.level) && !(s.port p).noLight

/-- TRAINING_COMPLETE (R209 to R211, R224). -/
def trainingComplete (p : Nat) (m : TrainMeasure) (s : State) : State :=
  if s.ptState p ≠ ptTraining then s
  else
    let mine := m.linesLocked.toNat &&& s.linesMax p &&& s.termMask p
    let s := sendTrain p mine (!m.corrected && !(s.port p).noLight) s
    match (s.port p).peer with
    | none => s
    | some b =>
      let lines := wholeGroups (mine &&& b.linesOk.toNat)
      if 10000000 < m.delayPs then s
      else if lines = 0 then trainFail p s
      else
        let check := s.bit (R.LNK_CFG_NBR_CHECK p)
        let known := s.bit (R.LNK_NBR_VALID p)
        let same := s.get (R.LNK_NBR_PKG p) == b.pkg.toNat && s.get (R.LNK_NBR_PORT p) == b.port.toNat
        if check && !known then s
        else if check && !same then
          logEvent 6 p 0x0700 (leBytes 1 p ++ leBytes 4 b.pkg.toNat ++ leBytes 1 b.port.toNat ++
            leBytes 4 (s.get (R.LNK_NBR_PKG p)) ++ leBytes 1 (s.get (R.LNK_NBR_PORT p))) (s.setBit (R.LNK_STAT_NBR_MISMATCH p) true)
        else
          let light := lightAgreed p b m.corrected s
          let s := s.setBit (R.LNK_STAT_LIGHT_REFUSED p) (s.bit (R.LNK_CFG_LIGHT p) && !light)
          let s := (s.set (R.LNK_LINES_ACTIVE p) lines).set (R.LNK_STAT_WIDTH p) (lineCount lines)
          let s := s.set (R.LNK_LINES_FAILED p) (s.get (R.LNK_LINES_FAILED p) &&& (0xFFFF ^^^ lines))
          let s := s.set (R.LNK_STAT_LEVEL p) (min s.level b.level.toNat)
          let s := s.set (R.LNK_FEAT p) (s.get (R.HUB_FEATURE_BITS 0) &&& s.get (R.HUB_DRV_FEATURE_BITS 0) &&& b.features.toNat)
          let s := s.set (R.LNK_DELAY p) m.delayPs
          let s := (s.set (R.LNK_PEER_PKG p) b.pkg.toNat).set (R.LNK_PEER_PORT p) b.port.toNat
          let s := s.putPort p { s.port p with lightMode := light }
          epochCheck p (freshCredits p s)

/-- TRAINING_TIMEOUT (R209). -/
def trainingTimeout (p : Nat) (s : State) : State := if s.ptState p = ptTraining then trainFail p s else s

/-- TRAINING_RETRY (R209): the wait is over. -/
def trainingRetry (p : Nat) (s : State) : State :=
  if s.ptState p = ptDown ∧ (s.port p).retryWait ∧ s.mayTrain p then trainBegin p s else s

/-- LOSS_OF_SIGNAL (R208, R212): the port goes DOWN; a DOWN port now waits for light. -/
def lossOfSignal (p : Nat) (s : State) : State :=
  let s := portFall p s
  s.putPort p { s.port p with needRise := false, retryWait := false }

/-- LIGHT_FALLBACK (R201): a link in light mode trains again with FEC. -/
def lightFallback (p : Nat) (s : State) : State :=
  if s.portUp p ∧ !s.bit (R.LNK_STAT_FEC p) then
    let s := s.putPort p { s.port p with noLight := true }
    trainBegin p (s.setBit (R.LNK_STAT_LIGHT_FALLBACK p) true)
  else s

/-- A write of LNK_CFG.EN (R208). -/
def cfgEn (p : Nat) (en : Bool) (s : State) : State :=
  let s := s.setBit (R.LNK_CFG_EN p) en
  let st := s.ptState p
  if st = ptOut then s
  else if !en then (if st = ptDisabled then s else scbRecheck (portEnter p ptDisabled s))
  else if st = ptDisabled then portEnter p ptDown s else s

/-! ## Commands of LNK_CMD -/

/-- LNK_CMD[p]. -/
def lnkCmd (p : Nat) : CmdReg := { status := R.LNK_CMD_STATUS p, ignored := R.LNK_CMD_IGNORED p, busy := [1], refused := none }

/-- RETRAIN (R212): STATUS reads DONE when training starts. -/
def retrainCmd (p : Nat) : State → State := cmdWrite (lnkCmd p) fun s => (retrain p s).set (R.LNK_CMD_STATUS p) 2

/-- DOWN (R212): the port stays DOWN until RETRAIN or a new rise of light. -/
def downCmd (p : Nat) : State → State := cmdWrite (lnkCmd p) fun s =>
  let s := portFall p s
  let s := if s.ptState p = ptDown then s.putPort p { s.port p with needRise := true, retryWait := false } else s
  s.set (R.LNK_CMD_STATUS p) 2

/-! ## TRAIN bodies and lane drop -/

/-- The link of port `p` drops the lines of mask `m` (R213): it runs on at the lower width, or goes DOWN with no group left. -/
def dropLines (p m : Nat) (s : State) : State :=
  let act := s.get (R.LNK_LINES_ACTIVE p)
  let left := wholeGroups (act &&& (0xFFFF ^^^ m))
  if left = act then s
  else if left = 0 then portDown p s
  else
    let s := ((s.set (R.LNK_LINES_ACTIVE p) left).set (R.LNK_STAT_WIDTH p) (lineCount left)).incSat (R.LNK_LANE_DROPS p)
    resend p (timeDisturb p s)

/-- Line `l` of port `p` fails (R213): it is marked and logged, and its group drops on a port that carries it. -/
def lineFail (p l : Nat) (s : State) : State :=
  if nbit (s.get (R.LNK_LINES_FAILED p)) l then s
  else
    let s := s.set (R.LNK_LINES_FAILED p) (nput (s.get (R.LNK_LINES_FAILED p)) l true)
    let s := logEvent 6 p 0x0700 (leBytes 1 p ++ leBytes 1 l) s
    if s.portUp p ∧ nbit (s.get (R.LNK_LINES_ACTIVE p)) l then
      let s := dropLines p (15 * 2 ^ (l / 4 * 4)) s
      if s.portUp p then sendTrain p (s.get (R.LNK_LINES_ACTIVE p)) (!s.bit (R.LNK_STAT_FEC p)) s else s
    else s

/-- LINE_FAILURE (R213): a line of a link that is UP fails. -/
def lineFailure (p l : Nat) (s : State) : State := if s.portUp p then lineFail p l s else s

/-- A TRAIN body arrives (R210, R213): in TRAINING and EPOCH_WAIT its fields are kept for the agreement; on a link that is UP a
LINES_OK without lines of an active group makes this end drop the group too. -/
def trainIn (p : Nat) (b : TrainBody) (s : State) : State :=
  let st := s.ptState p
  if st = ptTraining then s.putPort p { s.port p with peer := some b }
  else if st = ptEpochWait then
    epochCheck p (s.putPort p { s.port p with peer := some b })
  else if st = ptUp then
    dropLines p (0xFFFF ^^^ b.linesOk.toNat) (s.set (R.LNK_PEER_EPOCH p) b.epoch.toNat)
  else s

/-- LNK_EPOCH is set (R210, R244): ports in EPOCH_WAIT compare again. -/
def setEpoch (v : Nat) (s : State) : State :=
  (List.range 32).foldl (fun s p => if s.ptState p = ptEpochWait then epochCheck p s else s)
    (s.set R.LNK_EPOCH_EPOCH v)

/-! ## Acknowledgement (R206) -/

/-- A LINK_ACK arrives: acknowledged frames leave the replay buffer, credits are freed, and a NAK makes the rest leave again. At the
eighth NAK of one LSEQ in a row the port goes DOWN. -/
def ackIn (p : Nat) (b : LinkAckBody) (s : State) : State :=
  if !s.portUp p then s
  else
    let x := s.port p
    let base := (x.replay.head?.map Prod.fst).getD x.txSeq
    let n := (b.ackseq.toNat + 65536 - base) % 65536
    if x.replay.length < n then s
    else
      let x := { x with replay := x.replay.drop n, nakRun := if n = 0 then x.nakRun else 0,
                        freedFar := [(0, b.cr0.toNat), (1, b.cr1.toNat), (2, b.cr2.toNat)] }
      if !b.nak then s.putPort p x
      else
        let run := if x.nakSeq = b.ackseq.toNat then x.nakRun + 1 else 1
        let s := s.putPort p { x with nakSeq := b.ackseq.toNat, nakRun := run }
        if run ≥ 8 then portDown p s else resend p s

/-- LINK_ACK_TIMER (R206): an acknowledgement at least every 100 ns while UP. -/
def ackTimer (p : Nat) (s : State) : State := if s.portUp p then sendAck p false s else s

/-! ## Gangs and the package identifier -/

/-- A write of LNK_GANG[g].PORTS (R215): refused when a port would be in two gangs; a removed port with unacknowledged frames drains. -/
def gangPut (g ports : Nat) (s : State) : State :=
  if (List.range 16).any fun h => h != g && (s.get (R.LNK_GANG_PORTS h) &&& ports) != 0 then s.setBit R.LNK_GLOBAL_GANG_DUP true
  else
    let old := s.gangPorts g
    let was := match s.gangDrain.find? fun x => x.1 == g with
      | some (_, _, l) => l
      | none => []
    let removed := (bitList (s.get (R.LNK_GANG_PORTS g)) 32).filter fun p => !nbit ports p && !(s.port p).replay.isEmpty
    let drain := (was.filter fun p => !nbit ports p) ++ removed
    let s := s.set (R.LNK_GANG_PORTS g) ports
    let s := s.set (R.LNK_GANG_UP g) (bitsNat ((List.range 32).map fun p => nbit ports p && s.portUp p))
    let rest := s.gangDrain.filter fun x => x.1 != g
    { s with gangDrain := if drain.isEmpty then rest else rest ++ [(g, old, drain)] }

/-- GANG_DRAIN_COMPLETE (R215): every frame sent on the removed port is acknowledged; with the gang's last one selection uses its new
set. -/
def gangDrained (p : Nat) (s : State) : State :=
  if !(s.port p).replay.isEmpty then s
  else dropUnrouted { s with gangDrain := (s.gangDrain.map fun x => (x.1, x.2.1, x.2.2.filter (· != p))).filter fun x => !x.2.2.isEmpty }

/-- A write of LNK_GLOBAL.PKG (R221). -/
def pkgPut (v : Nat) (s : State) : State :=
  if (List.range 32).any fun p => let st := s.ptState p; st == ptUp || st == ptEpochWait then s.incSat R.LNK_GLOBAL_PKG_IGNORED
  else s.set R.LNK_GLOBAL_PKG v

/-- A value above 65,535 in the package identifier is case 1 of Table 14.1 (R9). -/
def pkgChecked (v : Nat) (s : State) : State := if 65535 < v then s.undef 1 else pkgPut v s

/-- PKG_WRITE, by the register or by OD 1.0030, which is that register (R337). -/
def pkgWrite (src : CmdSrc) (v : Nat) (s : State) : State :=
  match src with
  | .reg r => gated r 0x704000 (pkgChecked v) s
  | .od p => viaMusyn p 2 1 0x30 (leBytes 4 v) (fun _ s => (.ok, pkgChecked v s)) s

/-! ## The beacon (R222 to R226) -/

/-- LNK_NBR.OFFER: VALID and not AMBIENT. -/
def nbrOffer (p : Nat) (s : State) : State :=
  s.setBit (R.LNK_NBR_OFFER p) (s.bit (R.LNK_NBR_VALID p) && !s.bit (R.LNK_STAT_AMBIENT p))

/-- A beacon frame arrives: its 128 bits, whether the mean power rose by 3 dB or more, and the least depth of an 8-bit stretch in
units of 0.01 %. -/
def beaconIn (p n : Nat) (rise : Bool) (depth : Nat) (s : State) : State :=
  let x := s.port p
  if rise && decide (depth < 150) then
    let s := s.putPort p { x with beacon := none, clearRun := 0 }
    nbrOffer p ((s.setBit (R.LNK_STAT_AMBIENT p) true).incSat (R.LNK_AMBIENT p))
  else if n % 65536 ≠ 0xB5C3 ∨ nfld n 120 8 ≠ beaconCrc n then
    (s.putPort p { x with beacon := none, clearRun := 0 }).incSat (R.LNK_BEACON_BAD p)
  else
    let who := (nfld n 20 20, nfld n 40 7, nfld n 48 32)
    let run := if 200 ≤ depth then x.clearRun + 1 else 0
    let s := (s.putPort p { x with beacon := some who, clearRun := run }).incSat (R.LNK_BEACON_OK p)
    let s := if 2 ≤ run then s.setBit (R.LNK_STAT_AMBIENT p) false else s
    let known := (s.get (R.LNK_NBR_PKG p), s.get (R.LNK_NBR_PORT p), s.get (R.LNK_NBR_EPOCH p))
    let s := if s.bit (R.LNK_NBR_VALID p) && known != who then s.setBit (R.LNK_NBR_VALID p) false else s
    let s := if x.beacon = some who ∧ !s.bit (R.LNK_STAT_AMBIENT p) then
        (((s.set (R.LNK_NBR_PKG p) who.1).set (R.LNK_NBR_PORT p) who.2.1).set (R.LNK_NBR_EPOCH p) who.2.2).setBit (R.LNK_NBR_VALID p) true
      else s
    nbrOffer p s

/-- Light of a laser reaches the transmit feed of port `p` (R31, R195). -/
def State.feedLit (s : State) (p : Nat) : Bool :=
  (List.range 10).any fun j => s.get (R.LAS_STAT_STATE j) == 3 && s.get (R.LAS_STAT_SERVES j) == p / 4

/-- BEACON_SEND (R222): with BEACON_EN = 1 and the transmitter lit. -/
def beaconSend (p : Nat) (s : State) : State :=
  let st := s.ptState p
  if s.bit (R.LNK_CFG_BEACON_EN p) && s.feedLit p && st != ptDisabled && st != ptOut then putWire p (leBytes 16 (s.beaconOf p)) s else s

/-! ## Commands -/

/-- FRAME_TRANSMIT (R205). -/
def execFrameTransmit (p : Port) (s : State) : Out := .next (transmit p.val s)

/-- LINK_ACK (R206). -/
def execLinkAck (p : Port) (b : LinkAckBody) (s : State) : Out := .next (ackIn p.val b s)

/-- LINK_ACK_TIMER (R206). -/
def execLinkAckTimer (p : Port) (s : State) : Out := .next (ackTimer p.val s)

/-- TRAIN (R210). -/
def execTrain (p : Port) (b : TrainBody) (s : State) : Out := .next (trainIn p.val b s)

/-- TRAINING_START (R209). -/
def execTrainingStart (p : Port) (cause : TrainCause) (s : State) : Out := .next (trainingStart p.val cause s)

/-- TRAINING_COMPLETE (R209). -/
def execTrainingComplete (p : Port) (m : TrainMeasure) (s : State) : Out := .next (trainingComplete p.val m s)

/-- TRAINING_TIMEOUT (R209). -/
def execTrainingTimeout (p : Port) (s : State) : Out := .next (trainingTimeout p.val s)

/-- TRAINING_RETRY (R209). -/
def execTrainingRetry (p : Port) (s : State) : Out := .next (trainingRetry p.val s)

/-- RETRAIN (R212). -/
def execRetrain (r : Requester) (p : Port) (s : State) : Out := .next (gated r (0x700004 + 0x100 * p.val) (retrainCmd p.val) s)

/-- DOWN (R212). -/
def execDown (r : Requester) (p : Port) (s : State) : Out := .next (gated r (0x700004 + 0x100 * p.val) (downCmd p.val) s)

/-- LNK_CFG_EN_WRITE (R208). -/
def execLnkCfgEnWrite (r : Requester) (p : Port) (val : BitVec 1) (s : State) : Out :=
  .next (gated r (0x700000 + 0x100 * p.val) (cfgEn p.val (val == 1)) s)

/-- LINE_FAILURE (R213). -/
def execLineFailure (p : Port) (l : Line) (_cause : LineCause) (s : State) : Out := .next (lineFailure p.val l.val s)

/-- LOSS_OF_SIGNAL (R208). -/
def execLossOfSignal (p : Port) (s : State) : Out := .next (lossOfSignal p.val s)

/-- LIGHT_FALLBACK (R201). -/
def execLightFallback (p : Port) (s : State) : Out := .next (lightFallback p.val s)

/-- GANG_WRITE (R215). -/
def execGangWrite (r : Requester) (g : Fin 16) (ports : BitVec 32) (s : State) : Out :=
  .next (gated r (0x704100 + 8 * g.val) (gangPut g.val ports.toNat) s)

/-- GANG_DRAIN_COMPLETE (R215). -/
def execGangDrainComplete (p : Port) (s : State) : Out := .next (gangDrained p.val s)

/-- PKG_WRITE (R221). -/
def execPkgWrite (src : CmdSrc) (val : BitVec 20) (s : State) : Out := attempt (pkgWrite src val.toNat) s

/-- BEACON_FRAME (R224). -/
def execBeaconFrame (p : Port) (bits : BitVec 128) (powerRise3dB : Bool) (minDepth : Nat) (s : State) : Out :=
  .next (beaconIn p.val bits.toNat powerRise3dB minDepth s)

/-- BEACON_SEND (R222). -/
def execBeaconSend (p : Port) (s : State) : Out := .next (beaconSend p.val s)

end Sys2Proof.Machine
end

