-- ==== Sys2Proof/Machine/Sluice.lean ====
section
/-!
DEFINITION. The sluice array and the headgates (spec 09_sluice_and_headgates.md): staging, planning, arming and activating a map,
the lease, failover, and the sill checker.
-/

namespace Sys2Proof.Machine

/-- Codes of SLC_PLAN.STATUS. -/
def slcEmpty : Nat := 0
def slcPlanning : Nat := 1
def slcPlanned : Nat := 2
def slcRejected : Nat := 3
def slcArmed : Nat := 4
def slcActivating : Nat := 5
def slcActivated : Nat := 6

/-- STATUS of SLC_PLAN. -/
def State.slcStatus (s : State) : Nat := s.get R.SLC_PLAN_STATUS

/-- State of headgate `g` (0 A, 1 B): 0 STANDBY, 1 ACTIVE, 2 FAULTY, 3 RESYNCING. -/
def hdgFld (g : Nat) : Fld := if g = 0 then R.HDG_STAT_A_STATE else R.HDG_STAT_B_STATE
def State.hdg (s : State) (g : Nat) : Nat := s.get (hdgFld g)

/-- The active headgate. -/
def State.activeHdg (s : State) : Option Nat := [0, 1].find? fun g => s.hdg g == 1

/-- HDG_CMD. -/
def hdgCmd : CmdReg := { status := R.HDG_CMD_STATUS, ignored := R.HDG_CMD_IGNORED, busy := [1], refused := some 3 }

/-- HDG_CMD.STATUS codes. -/
def hdgDone (s : State) : State := s.set R.HDG_CMD_STATUS 2
def hdgRefused (s : State) : State := s.set R.HDG_CMD_STATUS 3

/-- A new checkpoint is written (R252). -/
def checkpoint (s : State) : State := s.incWrap R.HDG_CKPT_CKPT_SEQ

/-! ## Staging -/

/-- The parts of an access that R326 splits at 4-byte boundaries: word offset, first byte within it, bytes. -/
def splitWords : Nat → Nat → List Byte → List (Nat × Nat × List Byte)
  | 0, _, _ => []
  | fuel + 1, off, bs =>
    if bs.isEmpty then [] else
      let n := min bs.length (4 - off % 4)
      (off / 4 * 4, off % 4, bs.take n) :: splitWords fuel (off + n) (bs.drop n)

/-- A word with bytes `bs` laid over it from byte `i`. -/
def overWord (w i : Nat) (bs : List Byte) : Nat := leNat ((leBytes 4 w).take i ++ bs ++ (leBytes 4 w).drop (i + bs.length))

/-- One part of a write to SLC_STAGE (R237, R257): ignored and counted while PLAN runs. -/
def stagePart (w i : Nat) (bs : List Byte) (s : State) : State :=
  if 0x440 ≤ w then s.incSat R.HUB_ACCESS_STAT_UNMAPPED
  else if s.slcStatus = slcPlanning then s.incSat R.SLC_CNT_STAGE_IGNORED
  else s.set (R.SLC_STAGE_WORD (w / 4)) (overWord (s.get (R.SLC_STAGE_WORD (w / 4))) i bs)

/-- A write to SLC_STAGE at `off`; bytes beyond the window reach no register of it. -/
def stageWrite (r : Requester) (off : Nat) (data : List Byte) (s : State) : State :=
  (splitWords (data.length + 1) off (data.take (2048 - off))).foldl
    (fun s (w, i, bs) => gated r (0x800000 + w) (stagePart w i bs) s) s

/-! ## Planning -/

/-- Check 1 of Table 9.5. -/
def mapFieldsOk (ws es : List Nat) : Bool :=
  let h := ws.getD 0 0
  nfld h 0 8 == 1 && nfld h 8 8 == 16 && nfld h 16 8 == 32 && nfld h 25 7 == 0 && mapId ws != 0 &&
  (List.range 9).all (fun i => ws.getD (6 + i) 0 == 0) &&
  es.all fun e => entAction e != 3 && !nbit e 3 && nfld e 11 5 == 0 && (if entAction e = 1 then decide (entDest e ≤ 31) else entDest e == 0)

/-- Check 2. -/
def mapCrcOk (ws : List Nat) : Bool := crc32c (wordsBytes (ws.take 15 ++ ws.drop 16)) == ws.getD 15 0

/-- Checks 4 and 5, which the activation instant repeats (R243): the reason of the first that fails. -/
def unitChecks (es : List Nat) (s : State) : Option Nat :=
  let pairOut (p : Nat) : Bool := nbit s.pairsOut (p / 4)
  let express := (List.range 512).filter fun k => entAction (es.getD k 0) == 1
  if express.any fun k => pairOut (k / 16) || pairOut (entDest (es.getD k 0)) then some 4
  else if express.any fun k => !nbit (s.get R.HUB_PLANE_MAP_PLANE_IN_SERVICE) (k % 16) then some 5
  else none

/-- Checks 1 to 6 against the committed map `cs`. -/
def planChecks (ws es cs : List Nat) (s : State) : Option Nat :=
  if !mapFieldsOk ws es then some 1
  else if !mapCrcOk ws then some 2
  else if mapBase ws ≠ s.get R.SLC_MAPID_MAP_ID then some 3
  else match unitChecks es s with
  | some r => some r
  | none =>
    if (List.range 512).any fun k => entAction (es.getD k 0) == 1 && entKeep (es.getD k 0) && !sameRoute es cs k then some 6 else none

/-- Changed outputs (R239): outgoing lines whose source differs, as port × 16 + line. -/
def changedOutputs (es cs : List Nat) : List Nat :=
  (List.range 512).filter fun k => expressTo es (k / 16) (k % 16) != expressTo cs (k / 16) (k % 16)

/-- Elements in CROSS of every plane under entries `es`. -/
def allCross (es cs : List Nat) (s : State) : List Nat :=
  (List.range 16).flatMap fun m => (planeCross es cs m (s.elemState m)).map (elemKey m)

/-- An EXPRESS path of both maps has an element that changes state (R239). -/
def collateral (es cs cross : List Nat) (s : State) (k : Nat) : Bool :=
  pathOfBoth es cs k && (coreRoute (s.elemState (k % 16)) (k / 16)).2.any fun j =>
    s.elemState (k % 16) j != cross.contains (elemKey (k % 16) j)

/-- The plan of map `ws` (R238 to R240): collateral entries with the kept ones first. -/
def makePlan (ws es cs : List Nat) (s : State) : SlcPlan :=
  let cross := allCross es cs s
  let coll := (List.range 512).filter (collateral es cs cross s)
  let kept := coll.filter fun k => entKeep (es.getD k 0)
  let coll' := kept ++ coll.filter fun k => !entKeep (es.getD k 0)
  let outs := changedOutputs es cs ++ coll.map fun k => entDest (es.getD k 0) * 16 + k % 16
  { words := ws, cross := cross, changed := (List.range 512).filter fun k => !sameRoute es cs k, coll := coll', shutters := outs.eraseDups }

/-- SLC_PLAN and SLC_COLL report a result. -/
def slcReport (status reason changed : Nat) (coll : List Nat) (s : State) : State :=
  let s := (((s.set R.SLC_PLAN_STATUS status).set R.SLC_PLAN_REASON reason).set R.SLC_PLAN_CHANGED changed).set R.SLC_PLAN_COLL coll.length
  (List.range 256).foldl (fun s i =>
    (s.set (R.SLC_COLL_LO i) (coll.getD (2 * i) 0)).set (R.SLC_COLL_HI i) (coll.getD (2 * i + 1) 0)) s

/-- The map is rejected. -/
def slcReject (reason changed : Nat) (coll : List Nat) (s : State) : State :=
  { (slcReport slcRejected reason changed coll s).incSat R.SLC_CNT_REJECTS with slcPlan := none }

/-- PLAN (R237, R241, R253). -/
def planStart (_path : Nat) (s : State) : CmdRes × State :=
  if s.slcStatus = slcArmed ∨ s.slcStatus = slcActivating then (.refused 0, hdgRefused s)
  else match s.activeHdg with
  | none => (.refused 10, hdgRefused (slcReject 10 0 [] s))
  | some _ => (.ok, { (slcReport slcPlanning 0 0 [] s).set R.HDG_CMD_STATUS 1 with slcPlan := none })

/-- PLAN_COMPLETE (R237 to R240). A map that reaches routing with two sources on one output line is case 2 of Table 14.1. -/
def planComplete (s : State) : State :=
  if s.slcStatus ≠ slcPlanning then s
  else
    let ws := s.stagedMap
    let es := mapEntries ws
    let cs := mapEntries s.committedMap
    let s := hdgDone s
    match planChecks ws es cs s with
    | some r => slcReject r 0 [] s
    | none =>
      if mapClash es then s.undef 2
      else
        let p := makePlan ws es cs s
        if p.coll.any fun k => entKeep (es.getD k 0) then slcReject 7 p.changed.length p.coll s
        else { slcReport slcPlanned 0 p.changed.length p.coll s with slcPlan := some p }

/-! ## Arming and activation -/

/-- State of element `j` of plane `m` under a plan. -/
def SlcPlan.state (p : SlcPlan) (m j : Nat) : Bool := p.cross.contains (elemKey m j)

/-- Planes whose core or edge switches the plan changes (R241). -/
def SlcPlan.planes (p : SlcPlan) (s : State) : List Nat :=
  (List.range 16).filter fun m => (List.range 208).any fun j => p.state m j != s.elemState m j

/-- The state each element is driven to: that of the plan while it activates, else the committed one. -/
def State.driveState (s : State) (m j : Nat) : Bool :=
  match s.slcPlan with
  | some p => if s.slcStatus = slcActivating then p.state m j else s.elemState m j
  | none => s.elemState m j

/-- The active headgate drives every element to the code of its state at the present temperature (R249). -/
def driveAll (s : State) : State :=
  allElems.foldl (fun s (m, j) => s.set (R.SLC_ELEM_CODE m j) (s.elemCode m j (s.driveState m j))) s

/-- Local ports with a changed entry or output (R245): a port without a kept group goes DOWN; on another the darkened lines fail, and
it is issued RETRAIN after relight. -/
def activatePort (es cs : List Nat) (p : Nat) (s : State) : State :=
  let touched (m : Nat) : Bool := !sameRoute es cs (16 * p + m) || expressTo es p m != expressTo cs p m
  let lines := List.range 16
  if !lines.any touched then s
  else
    let kept := bitsNat (lines.map fun m => terminated es p m && terminated cs p m && !touched m)
    if wholeGroups kept = 0 then portFall p s
    else
      let s := (lines.filter touched).foldl (fun s m => lineFailure p m s) s
      { s with relight := if s.relight.contains p then s.relight else s.relight ++ [p] }

/-- Permits of sluice ARM are free again. -/
def releaseArm (s : State) : State := releasePermits (fun h => h % 256 == 9) s

/-- The activation of the armed map starts (R243 to R245), flagged LATE or not. -/
def activationStart (late : Bool) (s : State) : State :=
  match s.slcPlan with
  | none => s
  | some p =>
    let es := mapEntries p.words
    let cs := mapEntries s.committedMap
    match unitChecks es s with
    | some r =>
      releaseArm { ((slcReject r 0 [] s).setBit R.SLC_ACT_REFUSED true) with actDue := false }
    | none =>
      let s := { s.set R.SLC_PLAN_STATUS slcActivating with actDue := false, shuttered := (s.shuttered ++ p.shutters).eraseDups }
      let s := if late then s.setBit R.SLC_ACT_LATE true else s
      let s := s.set R.SLC_ACTTIME_START s.time64
      let s := if mapEpoch p.words ≠ 0 then setEpoch (mapEpoch p.words) s else s
      let s := (List.range 32).foldl (fun s q => activatePort es cs q s) s
      driveAll (checkpoint s)

/-- A decision point of the armed map (R314): it waits, starts late, or is STALE. -/
def armDecide (s : State) : State :=
  match s.slcPlan with
  | none => s
  | some p =>
    match s.lateness (mapActTime p.words) with
    | .wait => s
    | .late => activationStart true s
    | .stale => slcStale s

/-- The armed map starts if a forward step has crossed its instant (R314). -/
def startIfDue (s : State) : State :=
  if s.actDue ∧ s.slcStatus = slcArmed ∧ s.activeHdg.isSome then activationStart true s else s

/-- ARM (R241). -/
def arm (path : Nat) (s : State) : CmdRes × State :=
  match s.slcPlan with
  | none => (.refused 0, hdgRefused s)
  | some p =>
    if s.slcStatus ≠ slcPlanned then (.refused 0, hdgRefused s)
    else if s.activeHdg.isNone then (.refused 10, hdgRefused (s.set R.SLC_PLAN_REASON 10))
    else
      let rs := (p.planes s).map permPlane
      match firstHeld s rs with
      | some (r, h) => (.busy r h, hdgRefused (s.set R.SLC_PLAN_REASON 11))
      | none =>
        let s := checkpoint (grant (holder path 9) rs (hdgDone s))
        let s := (s.set R.SLC_PLAN_STATUS slcArmed).set R.SLC_PLAN_REASON 0
        (.ok, if mapImmediate p.words then activationStart false s else armDecide s)

/-- DISARM (R242). -/
def disarm (_path : Nat) (s : State) : CmdRes × State :=
  if s.slcStatus = slcArmed then
    (.ok, hdgDone (checkpoint (releaseArm { s.set R.SLC_PLAN_STATUS slcPlanned with actDue := false })))
  else if s.slcStatus = slcActivating then (.refused 0, s.set R.HDG_CMD_STATUS 4)
  else (.refused 0, hdgRefused s)

/-- DISCARD (R258). -/
def discard (_path : Nat) (s : State) : CmdRes × State :=
  if s.slcStatus = slcPlanned ∨ s.slcStatus = slcRejected then
    (.ok, hdgDone { slcReport slcEmpty 0 0 [] s with slcPlan := none })
  else (.refused 0, hdgRefused s)

/-- ACTIVATION (R241, R244): the instant of the armed map has come. -/
def activation (s : State) : State :=
  match s.slcPlan with
  | none => s
  | some p =>
    if s.slcStatus ≠ slcArmed ∨ s.activeHdg.isNone then s
    else if s.actDue then activationStart true s
    else if timeDiff s.time64 (mapActTime p.words) < 0 then s
    else activationStart false s

/-- ACTIVATION_COMMIT (R244): map, MAP_ID and element states commit in one cycle. -/
def activationCommit (s : State) : State :=
  match s.slcPlan with
  | none => s
  | some p =>
    if s.slcStatus ≠ slcActivating ∨ s.get R.SLC_MAPID_MAP_ID = mapId p.words then s
    else
      let s := (List.range mapWords).foldl (fun s i => s.set (R.SLC_COMMIT_WORD i) (p.words.getD i 0)) s
      let s := allElems.foldl (fun s (m, j) => s.setBit (R.SLC_ELEM_COMMITTED m j) (p.state m j)) s
      checkpoint ((s.set R.SLC_MAPID_MAP_ID (mapId p.words)).incWrap R.SLC_CNT_ACTIVATIONS)

/-- ACTIVATION_COMPLETE (R244): shutters open, permits are free, and relit ports restart their beacons (R222). -/
def activationComplete (s : State) : State :=
  match s.slcPlan with
  | none => s
  | some p =>
    if s.slcStatus ≠ slcActivating ∨ s.get R.SLC_MAPID_MAP_ID ≠ mapId p.words then s
    else
      let inService (k : Nat) : Bool := nbit (s.get R.HUB_PLANE_MAP_PLANE_IN_SERVICE) (k % 16)
      let lit := p.shutters.filter inService
      let s := { s.set R.SLC_PLAN_STATUS slcActivated with slcPlan := none, shuttered := s.shuttered.filter fun k => !lit.contains k }
      let s := releaseArm s
      (List.range 32).foldl (fun s q => if lit.any fun k => k / 16 == q && nbit (s.ownLines q) (k % 16) then beaconSend q s else s) s

/-- POST_RELIGHT_RETRAIN (R245). -/
def postRelight (p : Nat) (s : State) : State :=
  if s.relight.contains p ∧ s.slcStatus ≠ slcActivating then retrain p { s with relight := s.relight.filter (· != p) } else s

/-! ## Lease and failover -/

/-- Headgate `g` takes the lease (R248). -/
def takeLease (g : Nat) (s : State) : State :=
  (((s.set (hdgFld g) 1).set R.HDG_LEASE_HOLDER (g + 1)).set R.HDG_LEASE_REMAIN_US 10000).setBit R.HDG_STAT_NONE false

/-- The new headgate takes over (R251, R252): it drives every element, and decides about an armed map whose instant has passed. -/
def takeOver (g : Nat) (s : State) : State :=
  let s := driveAll (takeLease g s)
  if s.slcStatus = slcArmed then (match s.slcPlan with
    | some p => if timeDiff s.time64 (mapActTime p.words) < 0 then s else armDecide s
    | none => s) else s

/-- The plan that lived in the failing headgate is lost (R252). -/
def planLost (s : State) : State :=
  if s.slcStatus = slcPlanning ∨ s.slcStatus = slcPlanned then
    let s := if s.slcStatus = slcPlanning then hdgDone s else s
    { ((s.set R.SLC_PLAN_STATUS slcRejected).set R.SLC_PLAN_REASON 9).incSat R.SLC_CNT_REJECTS with slcPlan := none }
  else s

/-- Failover with a cause (R251, R253). Only a sill mismatch has a plane and an element to log; the bytes are free otherwise. -/
def failover (cause : Nat) (s : State) : State :=
  match s.activeHdg with
  | none => s
  | some g =>
    let o := 1 - g
    let s := (s.set (hdgFld g) 2).incWrap R.HDG_FAIL_FAILOVERS
    let s := s.set R.HDG_FAIL_CAUSE cause
    let (v, s) := s.free
    let at1 := if cause = 1 then s.get R.HDG_SILL_PLANE + 256 * s.get R.HDG_SILL_ELEM else v
    let s := logAlert alertHeadgate 8 g 0x0600 (leBytes 1 cause ++ leBytes 2 at1) s
    let s := planLost s
    if s.hdg o = 0 then takeOver o s
    else ((s.set R.HDG_LEASE_HOLDER 0).set R.HDG_LEASE_REMAIN_US 0).setBit R.HDG_STAT_NONE true

/-- SWAP (R254): the standby reproduces the committed settings, so the lease passes. -/
def hdgSwap (path : Nat) (s : State) : CmdRes × State :=
  match s.activeHdg with
  | none => (.refused 0, hdgRefused s)
  | some g =>
    let o := 1 - g
    if s.hdg o ≠ 0 ∨ s.slcStatus = slcPlanning ∨ s.slcStatus = slcActivating then (.refused 0, hdgRefused s)
    else match firstHeld s [permHeadgates] with
    | some (r, h) => (.busy r h, hdgRefused s)
    | none =>
      let s := grant (holder path 7) [permHeadgates] s
      let s := takeLease o ((s.set (hdgFld g) 0).incWrap R.HDG_FAIL_FAILOVERS)
      let s := planLost s
      (.ok, hdgDone (freePermits [permHeadgates] (s.set R.HDG_FAIL_CAUSE 4)))

/-- RESYNC of headgate `g` (R255). -/
def hdgResync (g path : Nat) (s : State) : CmdRes × State :=
  if s.hdg g ≠ 2 then (.refused 0, hdgRefused s)
  else match firstHeld s [permHeadgates] with
  | some (r, h) => (.busy r h, hdgRefused s)
  | none => (.ok, (grant (holder path 8) [permHeadgates] (s.set (hdgFld g) 3)).set R.HDG_CMD_STATUS 1)

/-- RESYNC_COMPLETE (R255): STANDBY, or ACTIVE where no headgate is; FAULTY if its self-test fails. -/
def resyncDone (ok : Bool) (s : State) : State :=
  match [0, 1].find? fun g => s.hdg g == 3 with
  | none => s
  | some g =>
    let s := freePermits [permHeadgates] s
    if !ok then setAlert alertHeadgate ((s.set (hdgFld g) 2).set R.HDG_CMD_STATUS 5)
    else
      let s := hdgDone (s.set (hdgFld g) 0)
      if s.activeHdg.isNone then takeOver g ((s.set R.HDG_FAIL_CAUSE 5).incWrap R.HDG_FAIL_FAILOVERS) else s

/-- LEASE_RENEWAL (R248). -/
def leaseRenew (s : State) : State :=
  if s.activeHdg.isSome then (s.set R.HDG_LEASE_REMAIN_US 10000).incWrap R.HDG_LEASE_RENEWALS else s

/-- HEATER_CODE_UPDATE (R249): only the holder of the lease drives (R248). -/
def heaterUpdate (s : State) : State := if s.activeHdg.isSome then driveAll s else s

/-! ## The sill checker (R250) -/

/-- Planes that the checker compares: those in service, and during an activation before its commit only those it does not change. -/
def State.sillPlanes (s : State) : List Nat :=
  (List.range 16).filter fun m => nbit (s.get R.HUB_PLANE_MAP_PLANE_IN_SERVICE) m && (match s.slcPlan with
    | some p => s.slcStatus != slcActivating || !(p.planes s).contains m
    | none => true)

/-- Input `p` of plane `m` reaches its entry's destination under classification `cls`, over elements none of which is INVALID. -/
def inputOk (cls : Nat → Nat) (e p : Nat) : Bool :=
  let entry := cls (144 + p)
  if entAction e = 0 then entry == 0
  else
    let (o, js) := coreRoute (fun j => cls j == 1) p
    entry == 1 && js.all (fun j => cls j != 2) && cls (176 + o) != 2 &&
      (if entAction e = 1 then o == entDest e && cls (176 + o) == 1 else cls (176 + o) == 0)

/-- The first element of plane `m` that differs from the committed state, if the plane has a mismatch: an input astray, or an exit edge
switch in the wrong state. -/
def planeMismatch (s : State) (es : List Nat) (m : Nat) : Option Nat :=
  let cls (j : Nat) : Nat := s.get (R.SLC_ELEM_SILL m j)
  let exitBad := (List.range 32).any fun d => cls (176 + d) != (if (expressTo es d m).isEmpty then 0 else 1)
  let inBad := (List.range 32).any fun p => !inputOk cls (es.getD (16 * p + m) 0) p
  if exitBad || inBad then
    some (((List.range 208).find? fun j => cls j != (if s.elemState m j then 1 else 0)).getD 0)
  else none

/-- SILL_SCAN (R250): codes read on the bus where they differ from the driven ones, classification of every element of a plane in
service, and failover on a mismatch (R251). -/
def sillScan (readBack : List (Nat × Nat)) (s : State) : State :=
  let s := readBack.foldl (fun s (k, c) => s.set (R.SLC_ELEM_CODE (k / 256) (k % 256)) c) s
  let planes := (List.range 16).filter fun m => nbit (s.get R.HUB_PLANE_MAP_PLANE_IN_SERVICE) m
  let s := planes.foldl (fun s m => (List.range 208).foldl (fun s j =>
    s.set (R.SLC_ELEM_SILL m j) (s.sillClass m j (s.get (R.SLC_ELEM_CODE m j)))) s) s
  let s := s.incWrap R.HDG_SILLSCAN_SCANS
  let es := mapEntries s.committedMap
  match s.sillPlanes.findSome? fun m => (planeMismatch s es m).map fun j => (m, j) with
  | none => s
  | some (m, j) =>
    let s := ((s.set R.HDG_SILL_PLANE m).set R.HDG_SILL_ELEM j).incSat R.HDG_SILL_MISMATCHES
    failover 1 s

/-! ## Planes and link die pairs out of service -/

/-- Plane `m` leaves service (R256): the outputs of the committed culverts on its line are shuttered. -/
def planeOut (m : Nat) (s : State) : State :=
  let es := mapEntries s.committedMap
  let outs := (List.range 32).filterMap fun d => if (expressTo es d m).isEmpty then none else some (d * 16 + m)
  scbRecheck { s.set R.HUB_PLANE_MAP_PLANE_IN_SERVICE (nput (s.get R.HUB_PLANE_MAP_PLANE_IN_SERVICE) m false) with
    shuttered := (s.shuttered ++ outs).eraseDups }

/-- Link die pair `k` is marked out (R360, Table 1.8): its four ports enter OUT, and the planes whose cores sit on it carry no culvert. -/
def pairOut (k : Nat) (s : State) : State :=
  if nbit s.pairsOut k then s
  else
    let s := { s with pairsOut := nput s.pairsOut k true, deadDies := if s.deadDies.contains (8 + k) then s.deadDies else s.deadDies ++ [8 + k] }
    let s := (List.range 4).foldl (fun s i => portOut (4 * k + i) s) s
    planeOut (2 * k + 1) (planeOut (2 * k) s)

/-! ## Commands -/

/-- A command of HDG_CMD from a register write: the entry numbers of SWAP and RESYNC are those of Table 13.8. -/
def hdgWrite (r : Requester) (eff : Nat → State → CmdRes × State) (s : State) : State := viaCmd (.reg r) hdgCmd 0x808000 0 [] eff s

/-- STAGE_WRITE (R237). -/
def execStageWrite (r : Requester) (off : Fin 2048) (data : List Byte) (s : State) : Out := .next (stageWrite r off.val data s)

/-- PLAN (R237). -/
def execPlan (r : Requester) (s : State) : Out := .next (hdgWrite r planStart s)

/-- PLAN_COMPLETE (R238). -/
def execPlanComplete (s : State) : Out := attempt planComplete s

/-- ARM (R241). -/
def execArm (r : Requester) (s : State) : Out := .next (hdgWrite r arm s)

/-- DISARM (R242). -/
def execDisarm (r : Requester) (s : State) : Out := .next (hdgWrite r disarm s)

/-- DISCARD (R258). -/
def execDiscard (r : Requester) (s : State) : Out := .next (hdgWrite r discard s)

/-- ACTIVATION (R244). -/
def execActivation (s : State) : Out := .next (activation s)

/-- ACTIVATION_COMMIT (R244). -/
def execActivationCommit (s : State) : Out := .next (activationCommit s)

/-- ACTIVATION_COMPLETE (R244). -/
def execActivationComplete (s : State) : Out := .next (activationComplete s)

/-- POST_RELIGHT_RETRAIN (R245). -/
def execPostRelightRetrain (p : Port) (s : State) : Out := .next (postRelight p.val s)

/-- SWAP (R254). -/
def execSwap (src : CmdSrc) (s : State) : Out := .next (viaCmd src hdgCmd 0x808000 0x50 (leBytes 1 0) hdgSwap s)

/-- RESYNC (R255): ARG of the register is written with the command. -/
def execResync (src : CmdSrc) (g : Gate) (s : State) : Out :=
  .next (viaCmd src hdgCmd 0x808000 0x51 (leBytes 1 g.val) (fun path s => hdgResync g.val path (match src with
    | .reg _ => s.set R.HDG_CMD_ARG g.val
    | .od _ => s)) s)

/-- RESYNC_COMPLETE (R255). -/
def execResyncComplete (selfTestOk : Bool) (s : State) : Out := .next (resyncDone selfTestOk s)

/-- LEASE_RENEWAL (R248). -/
def execLeaseRenewal (s : State) : Out := .next (leaseRenew s)

/-- LEASE_LAPSE (R251). -/
def execLeaseLapse (s : State) : Out := .next (failover 2 s)

/-- HEADGATE_SELF_FAULT (R251). -/
def execHeadgateSelfFault (s : State) : Out := .next (failover 3 s)

/-- HEATER_CODE_UPDATE (R249). -/
def execHeaterCodeUpdate (s : State) : Out := .next (heaterUpdate s)

/-- SILL_SCAN (R250). -/
def execSillScan (readBack : List (Nat × BitVec 12)) (s : State) : Out :=
  .next (sillScan (readBack.map fun p => (p.1, p.2.toNat)) s)

/-- LINK_DIE_HEARTBEAT_STOP (R360). -/
def execLinkDieHeartbeatStop (k : Pair) (s : State) : Out := .next (pairOut k.val s)

end Sys2Proof.Machine
end

