-- ==== Sys2Proof/Machine/Rings.lean ====
section
/-!
DEFINITION. The ring loops (spec 10_light_and_ring_control.md, R266 to R283): the loop records, the compensator, lock, hold, shutter,
recapture, acquisition and verification, and what a lost ring does to its consumer.
-/

namespace Sys2Proof.Machine

/-! ## Identifiers (R22) -/

/-- Identifier of a ring. -/
def ringId : Ring → Nat
  | .link cls p l => cls.val * 65536 + p.val * 16 + l.val
  | .engIn e bus l => 4 * 65536 + e.val * 64 + bus.val * 16 + l.val
  | .engWeight e row col => 5 * 65536 + e.val * 4096 + row.val * 64 + col.val

/-- Class of a ring, its line, and its consumer: port p is p, engine e is 32 + e. -/
def ringClass (id : Nat) : Nat := id / 65536
def ringLine (id : Nat) : Nat := id % 16
def ringUser (id : Nat) : Nat :=
  let n := id % 65536
  if ringClass id < 4 then n / 16 else if ringClass id = 4 then 32 + n / 64 else 32 + n / 4096

/-- The 16 rings of a chain in line order. -/
def chainRings : Chain → List Nat
  | .link cls p => (List.range 16).map fun l => cls.val * 65536 + p.val * 16 + l
  | .engIn e bus => (List.range 16).map fun l => 4 * 65536 + e.val * 64 + bus.val * 16 + l
  | .engWeight e row bus => (List.range 16).map fun l => 5 * 65536 + e.val * 4096 + row.val * 64 + bus.val * 16 + l

/-- Loop engine that serves a ring (Table 10.6). -/
def ringEngine (id : Nat) : Nat := if ringUser id < 32 then 8 + ringUser id / 8 else (ringUser id - 32) / 2

/-! ## Loop records -/

/-- States of R272. -/
def lpOff : Nat := 0
def lpAcquiring : Nat := 1
def lpLocked : Nat := 2
def lpHold : Nat := 3
def lpShuttered : Nat := 4
def lpRecapture : Nat := 5
def lpLost : Nat := 6

/-- The calibration store's default coefficient set for the class and die of a ring (R271). -/
def defaultCoefs (id : Nat) : Coefs :=
  let die := if ringUser id < 32 then ringUser id / 4 else ringUser id - 32
  let f (k : Nat) : Nat := ofSigned 16 (Config.factory 3 (ringClass id * 64 + die) k)
  { b0 := f 0, b1 := f 1, b2 := f 2, b3 := f 3, a1 := f 4, a2 := f 5, a3 := f 6, shift := f 7 % 4, form := f 8 % 2 }

/-- The default POL of a ring. -/
def defaultPol (id : Nat) : Nat :=
  ofSigned 1 (Config.factory 3 (ringClass id * 64 + (if ringUser id < 32 then ringUser id / 4 else ringUser id - 32)) 9)

/-- A loop's shadow and active coefficient sets, and its POL. -/
def Loop.shadowSet (l : Loop) (id : Nat) : Coefs := l.shadow.getD (defaultCoefs id)
def Loop.activeSet (l : Loop) (id : Nat) : Coefs := l.active.getD (defaultCoefs id)
def Loop.polarity (l : Loop) (id : Nat) : Nat := l.pol.getD (defaultPol id)

/-- HEADROOM of a code (R272). -/
def lowRoom (code : Nat) : Bool := decide (code ≤ 2048 ∨ 65535 - 2048 ≤ code)

/-- A loop as whole-consumer acquisition `k` at boot leaves it: LOCKED and verified at the codes it found. -/
def bootLoop (k id : Nat) : Loop :=
  let code := Config.ringFound k (2 * id) % 65536
  { Loop.reset with st := lpLocked, code := code, acqCode := code, setpoint := Config.ringFound k (2 * id + 1) % 4096,
                    headroom := lowRoom code, v := List.replicate 3 ((code : Int) - 32768) }

/-- A ring's consumer waits to have its rings acquired. -/
def State.ringWanted (s : State) (id : Nat) : Bool :=
  let u := ringUser id
  if u < 32 then s.bootReached 7 && s.bit (R.PWR_DOM_EN (15 + u / 8)) && s.bit (R.PWR_DOM_EN 23) else s.engState (u - 32) == engAcquiring

/-- The record of a ring that the table does not list. -/
def State.loopBase (s : State) (id : Nat) : Loop :=
  match s.ringInit.find? fun x => x.1 == ringUser id with
  | some (_, k) => let l := bootLoop k id; if s.ringHeld.contains (ringUser id) then { l with st := lpHold } else l
  | none => if s.ringWanted id then { Loop.reset with st := lpAcquiring } else Loop.reset

/-- A consumer whose loops are OFF (R272): a port that is OUT, an engine that is OFF or marked out (log entry 22). -/
def State.ringDead (s : State) (id : Nat) : Bool :=
  let u := ringUser id
  if u < 32 then s.ptState u == ptOut else s.engState (u - 32) == engOff || s.engMarked (u - 32)

/-- The loop record of ring `id`. -/
def State.loop (s : State) (id : Nat) : Loop :=
  let l := match s.loops.find? fun x => x.1 == id with
    | some (_, l) => l
    | none => s.loopBase id
  if s.ringDead id then { l with st := lpOff } else l

/-- Every ring of engine `e` is LOCKED and verified. -/
def State.engLocked (s : State) (e : Nat) : Bool :=
  let mine := s.loops.filter fun x => ringUser x.1 == 32 + e
  let whole := (s.ringInit.any fun x => x.1 == 32 + e) && !s.ringHeld.contains (32 + e)
  (whole || mine.length == 4160) && mine.all fun x => x.2.st == lpLocked && !x.2.verify

/-- The state with the record of ring `id` at `l`; PMX_STAT.LOCKED of its engine follows. -/
def State.putLoop (s : State) (id : Nat) (l : Loop) : State :=
  let s := { s with loops := tput id l s.loops }
  let u := ringUser id
  if u < 32 then s else s.setBit (R.PMX_STAT_LOCKED (u - 32)) (s.engLocked (u - 32))

/-- Every ring of consumer `u` is as boot finds it. -/
def acquireUser (u : Nat) (s : State) : State :=
  let s := { s with loops := s.loops.filter fun x => ringUser x.1 != u, ringInit := tput u s.ringAcq s.ringInit,
                    ringHeld := s.ringHeld.filter (· != u), ringAcq := s.ringAcq + 1 }
  if u < 32 then s else s.setBit (R.PMX_STAT_LOCKED (u - 32)) true

/-- Every ring of consumer `u` is forgotten: it must be acquired again. -/
def forgetUser (u : Nat) (s : State) : State :=
  let s := { s with loops := s.loops.filter fun x => ringUser x.1 != u, ringInit := terase u s.ringInit, ringHeld := s.ringHeld.filter (· != u) }
  if u < 32 then s else s.setBit (R.PMX_STAT_LOCKED (u - 32)) false

/-! ## The end of a takeover (R263, R265) -/

/-- Feed `f` has every ring LOCKED: the engines that are not marked out, and the modulator rings of its ports that are not OUT. -/
def State.feedLocked (s : State) (f : Nat) : Bool :=
  ([2 * f, 2 * f + 1].all fun e => s.engMarked e || s.engState e == engOff || s.engLocked e) &&
  ((List.range 4).all fun i => let p := 4 * f + i; s.ptState p == ptOut || ((List.range 16).all fun l => (s.loop (p * 16 + l)).st == lpLocked))

/-- Permits of a planned laser command are free again. -/
def releaseLaser (s : State) : State := releasePermits (fun h => h % 256 == 3) s

/-- The laser that takes over in bank `b`. -/
def Takeover.incoming (t : Takeover) (b : Nat) : Nat := if t.planned = 2 then t.laser else 8 + b

/-- A takeover whose rings are all LOCKED again ends: its outage is recorded and logged (R263), and a planned command is DONE. -/
def takeoverEnd (b : Nat) (s : State) : State :=
  match s.takeovers.find? fun x => x.1 == b with
  | none => s
  | some (_, t) =>
    if t.litAt.isNone || !s.feedLocked t.laser then s
    else
      let us := ((timeDiff s.time64 t.start).toNat * 1000000) / 2 ^ 32
      let s := { s with takeovers := terase b s.takeovers }
      if t.planned ≠ 0 then releaseLaser ((s.set R.LAS_CMD_STATUS 2).incWrap R.LAS_CNT_PLANNED)
      else
        let s := ((s.set R.LAS_TAKEOVER_FAILED t.laser).set R.LAS_TAKEOVER_SPARE (8 + b)).set R.LAS_TAKEOVER_OUTAGE_US (min us 16383)
        logEvent 9 (8 + b) 0x0300 (leBytes 1 t.laser ++ leBytes 1 (8 + b) ++ leBytes 2 (min us 16383)) s

/-- A ring of consumer `u` has locked: its engine returns to service if it was the last (Table 4.9), and a takeover may end. -/
def ringUp (u : Nat) (s : State) : State :=
  let s := if u < 32 then s else
    let e := u - 32
    let held := match s.scbRun with
      | some r => r.engines.contains e
      | none => false
    if (s.engState e = engAcquiring ∨ (s.engState e = engCalibrating ∧ !held)) ∧ s.engLocked e ∧ (s.eng e).act.isSome then
      engineSettle e s
    else s
  takeoverEnd ((if u < 32 then u / 4 else (u - 32) / 2) / 4) s

/-! ## Lost rings (R279) -/

/-- A failed acquisition of ring `id` (R275, R127): the third in a row marks the engine out, or fails the line of the port. -/
def acqFailed (id : Nat) (s : State) : State :=
  let s := s.incSat R.LPE_CNT2_ACQ_FAIL
  let n := tget 0 s.ringFails id + 1
  let s := { s with ringFails := tput id n s.ringFails }
  let s := logEvent 10 (ringEngine id) 0x0400 (leBytes 4 id ++ leBytes 1 3) s
  let u := ringUser id
  if n < 3 then s
  else
    let s := { s with ringFails := terase id s.ringFails }
    if u < 32 then lineFail u (ringLine id) s else markEngineOut (u - 32) 3 s

/-- The consumer of a lost ring is taken out of service. -/
def consumerLoses (id : Nat) (s : State) : State :=
  let u := ringUser id
  if u < 32 then lineFail u (ringLine id) s else engineFault (u - 32) engAcquiring s

/-- Ring `id` is LOST, by WRONG_LINE or otherwise (R279). Found wrong before it was ever verified, it counts as a failed acquisition. -/
def ringLost (id : Nat) (wrong : Bool) (s : State) : State :=
  let l := s.loop id
  let s := s.putLoop id { l with st := lpLost, wrong := l.wrong || wrong, verify := false, overRun := 0, satRun := 0 }
  let s := if wrong then s.incSat R.LPE_CNT_WRONG_LINE else s.incSat R.LPE_CNT_LOST
  let s := logEvent 10 (ringEngine id) 0x0400 (leBytes 4 id ++ leBytes 1 (if wrong then 1 else 2)) s
  let s := consumerLoses id s
  if l.verify && wrong then acqFailed id s else s

/-! ## The compensator (R268, R269) -/

/-- One step: the saturated v of error `e` with histories `x` and `v` in units of 2^-15. -/
def compensate (c : Coefs) (e : Int) (x v : List Int) : Int :=
  let q (n : Nat) : Int := toSigned 16 n
  let third := if c.form = 1 then q c.b3 * x.getD 2 0 + q c.a3 * v.getD 2 0 else 0
  let acc := q c.b0 * (e * 8) + q c.b1 * x.getD 0 0 + q c.b2 * x.getD 1 0 + q c.a1 * v.getD 0 0 + q c.a2 * v.getD 1 0 + third
  max (-32768) (min 32767 (divRne (acc * 2 ^ c.shift) 32768))

/-- The error sample (R267), clamped to ±4,095. -/
def errSample (pol adc refv : Nat) : Int :=
  max (-4095) (min 4095 (if pol = 1 then (adc : Int) - refv else (refv : Int) - adc))

/-- A loop with its new v and code; HEADROOM stays set until the next acquisition. -/
def Loop.moved (l : Loop) (e v : Int) : Loop :=
  let code := (v + 32768).toNat
  { l with code := code, headroom := l.headroom || lowRoom code, x := ((e * 8) :: l.x).take 3, v := (v :: l.v).take 3 }

/-- A shutter closes on a loop that carries light (R274): its code is saved and it is detuned by `steps` towards the nearer end. -/
def Loop.close (l : Loop) (steps : Nat) : Loop :=
  { l with st := lpShuttered, saved := some l.code, shutter := none, overRun := 0, satRun := 0,
           code := if l.code < 32768 then l.code - steps else min 65535 (l.code + steps) }

/-- A loop reaches LOCKED; a shutter request that waits is applied (R274). -/
def Loop.lockIn (l : Loop) : Loop :=
  let l := { l with st := lpLocked, overRun := 0, satRun := 0, lockRun := 0, slew := 0 }
  match l.shutter with
  | some n => l.close n
  | none => l

/-- A sample of a LOCKED loop; `true`: it loses lock (R272). -/
def lockedSample (id : Nat) (l : Loop) (e : Int) (s : State) : Loop × Bool :=
  let c := ringClass id
  let l := l.moved e (compensate (l.activeSet id) e l.x l.v)
  let beyond := decide (s.get (R.LPE_CLASS_LOSS_THR c) < e.natAbs)
  let sat := l.code == 0 || l.code == 65535
  let l := { l with overRun := if beyond then l.overRun + 1 else 0, satRun := if sat then l.satRun + 1 else 0 }
  (l, (beyond && decide (s.get (R.LPE_CLASS_LOSS_N c) ≤ l.overRun)) || (sat && decide (s.get (R.LPE_CLASS_SAT_N8 c) * 8 ≤ l.satRun)))

/-- A sample of a loop in RECAPTURE (R273): the code moves by at most one step every SLEW_DIV samples, towards the compensator's (log entry
23); eight samples below LOSS_THR / 4 in a row lock it. -/
def recaptureSample (id : Nat) (l : Loop) (e : Int) (s : State) : Loop :=
  let c := ringClass id
  let v := compensate (l.activeSet id) e l.x l.v
  let now : Int := (l.code : Int) - 32768
  let may := decide (max 1 (s.get (R.LPE_CLASS_SLEW_DIV c)) ≤ l.slew + 1)
  let v' := if !may || v == now then now else if now < v then now + 1 else now - 1
  let l : Loop := { l.moved e v' with
    slew := if v' = now then l.slew + 1 else 0
    lockRun := if e.natAbs * 4 < s.get (R.LPE_CLASS_LOSS_THR c) then l.lockRun + 1 else 0 }
  if 8 ≤ l.lockRun then l.lockIn else l

/-- LOOP_SAMPLE (R267 to R273): the averaged monitor code, the level that the weight setting should give (class 5), and whether the
line is dark. A pending coefficient set becomes active first; an unstable one is case 3 of Table 14.1. -/
def loopSample (id adc refv : Nat) (dark : Bool) (s : State) : State :=
  let l := s.loop id
  if s.bit (R.LPE_ENG_STOPPED (ringEngine id)) || l.st = lpOff then s
  else
    let e := errSample (l.polarity id) adc (if ringClass id = 5 then refv else l.setpoint)
    let new := l.shadowSet id
    let changed := l.apply && new != l.activeSet id
    let s := if changed && !Config.loopStable id [new.b0, new.b1, new.b2, new.b3, new.a1, new.a2, new.a3, new.shift, new.form]
      then s.undef 3 else s
    let l := { l with err := e, active := if l.apply then l.shadow else l.active, apply := false }
    if (l.st = lpLocked || l.st = lpRecapture) && dark then s.putLoop id { l with st := lpHold, overRun := 0, satRun := 0, lockRun := 0 }
    else if l.st = lpHold && !dark then s.putLoop id { l with st := lpRecapture, slew := 0, lockRun := 0 }
    else if l.st = lpLocked then
      let (l, lost) := lockedSample id l e s
      let s := s.putLoop id l
      if lost then ringLost id false s else s
    else if l.st = lpRecapture then
      let l := recaptureSample id l e s
      let s := s.putLoop id l
      if l.st = lpLocked then ringUp (ringUser id) s else s
    else s.putLoop id l

/-- LOOP_APPLY (R271): the shadow set waits for the next sample. -/
def loopApply (id : Nat) (s : State) : State := if ringExists id then s.putLoop id { s.loop id with apply := true } else s

/-- RECAPTURE_TIMEOUT (R273). -/
def recaptureTimeout (id : Nat) (s : State) : State := if (s.loop id).st = lpRecapture then ringLost id false s else s

/-- SHUTTER_CLOSE (R274): `steps` heater codes are 100 GHz by the calibrated slope. -/
def shutterClose (id steps : Nat) (s : State) : State :=
  let l := s.loop id
  if l.st = lpLocked ∨ l.st = lpRecapture then s.putLoop id (l.close steps)
  else if l.st = lpHold then s.putLoop id { l with st := lpShuttered, saved := some l.code, shutter := none }
  else if l.st = lpAcquiring ∨ l.st = lpLost then s.putLoop id { l with shutter := some steps }
  else s

/-- SHUTTER_OPEN (R274); it ends a request that still waits. -/
def shutterOpen (id : Nat) (s : State) : State :=
  let l := s.loop id
  if l.st = lpShuttered then
    s.putLoop id { l with st := lpRecapture, code := l.saved.getD l.code, saved := none, slew := 0, lockRun := 0 }
  else if l.shutter.isSome then s.putLoop id { l with shutter := none }
  else s

/-! ## The loop records as registers (R283) -/

/-- Word `w` (offset / 4) of the record of ring `id`. -/
def loopRead (id w : Nat) (s : State) : Nat :=
  let l := s.loop id
  let c := l.shadowSet id
  match w with
  | 0 => c.b0 + 65536 * c.b1
  | 1 => c.b2 + 65536 * c.b3
  | 2 => c.a1 + 65536 * c.a2
  | 3 => c.a3 + 2 ^ 16 * c.shift + 2 ^ 18 * c.form + 2 ^ 19 * l.polarity id + (if c != l.activeSet id then 2 ^ 21 else 0)
  | 4 => l.setpoint
  | 5 => l.code + 2 ^ 16 * l.st + (if l.wrong then 2 ^ 19 else 0) + (if l.headroom then 2 ^ 20 else 0)
  | 6 => ofSigned 13 l.err + 2 ^ 16 * l.pilot
  | _ => l.acqCode + 2 ^ 16 * l.reacq

/-- A write of word `w` of the record of ring `id`: its RW fields, and APPLY. -/
def loopWrite (id w v : Nat) (s : State) : State :=
  let l := s.loop id
  let c := l.shadowSet id
  match w with
  | 0 => s.putLoop id { l with shadow := some { c with b0 := nfld v 0 16, b1 := nfld v 16 16 } }
  | 1 => s.putLoop id { l with shadow := some { c with b2 := nfld v 0 16, b3 := nfld v 16 16 } }
  | 2 => s.putLoop id { l with shadow := some { c with a1 := nfld v 0 16, a2 := nfld v 16 16 } }
  | 3 => s.putLoop id { l with shadow := some { c with a3 := nfld v 0 16, shift := nfld v 16 2, form := nfld v 18 1 }
                               pol := some (nfld v 19 1), apply := l.apply || nbit v 20 }
  | 4 => s.putLoop id { l with setpoint := nfld v 0 12 }
  | _ => s

/-! ## Acquisition (R275) -/

/-- Line identified at a parked resonance: the tone of the greatest depth if that is at least 0.2 % and four times the next. -/
def identified (tones : List Nat) : Option Nat :=
  let best := tones.foldl max 0
  let k := tones.idxOf best
  let next := ((tones.zipIdx.filter fun t => t.2 != k).map Prod.fst).foldl max 0
  if 2000 ≤ best ∧ 4 * next ≤ best ∧ k < 16 then some k else none

/-- Distance of two codes. -/
def codeDist (a b : Nat) : Nat := (a - b) + (b - a)

/-- The resonances of a ring that are parked on: the up to four nearest `pred`. -/
def parked (pred : Nat) (found : List Resonance) : List Resonance :=
  (List.range 4).foldl (fun acc _ =>
    let rest := found.filter fun r => !acc.contains r
    match rest with
    | [] => acc
    | r :: rs => acc ++ [rs.foldl (fun b x => if codeDist x.code.toNat pred < codeDist b.code.toNat pred then x else b) r]) []

/-- Line of a resonance at `code` inferred from its place between the identified resonances around it, one line per 200 GHz of heater shift
(log entry 24). -/
def inferred (ids : List (Nat × Nat)) (perLine code : Nat) : Option Nat :=
  let below := (ids.filter fun i => i.1 < code).foldl (fun b i => match b with
    | some (j : Nat × Nat) => if j.1 < i.1 then some i else b
    | none => some i) none
  let above := (ids.filter fun i => code < i.1).foldl (fun b i => match b with
    | some (j : Nat × Nat) => if i.1 < j.1 then some i else b
    | none => some i) none
  match below, above with
  | some (c1, l1), some (_, l2) =>
    if perLine = 0 then none
    else
      let n := (2 * (code - c1) + perLine) / (2 * perLine)
      if l1 ≤ l2 then (if l1 + n ≤ 15 then some (l1 + n) else none) else (if n ≤ l1 then some (l1 - n) else none)
  | _, _ => none

/-- The resonance assigned to the ring of line `r`: of those identified or inferred as line `r`, the one nearest mid-range. -/
def assigned (r : Nat) (sw : RingSweep) : Option Resonance :=
  let near := parked sw.pred.toNat sw.found
  let ids := near.filterMap fun x => (identified x.tones).map fun l => (x.code.toNat, l)
  let lineOf (x : Resonance) : Option Nat :=
    match (if near.contains x then identified x.tones else none) with
    | some l => some l
    | none => inferred ids sw.codesPerLine x.code.toNat
  match sw.found.filter fun x => lineOf x == some r with
  | [] => none
  | x :: xs => some (xs.foldl (fun b y => if codeDist y.code.toNat 32768 < codeDist b.code.toNat 32768 then y else b) x)

/-- Two rings of the chain with one resonance pattern are assigned in reverse line order (log entry 24). -/
def reversed (sws : List RingSweep) (codes : List (Option Resonance)) : Bool :=
  let pat (i : Nat) : List (BitVec 16) := ((sws[i]?.map (·.found)).getD []).map (·.code)
  let pred (i : Nat) : Nat := (sws[i]?.map (·.pred.toNat)).getD 0
  (List.range 16).any fun a => (List.range 16).any fun b =>
    match codes.getD a none, codes.getD b none with
    | some x, some y => decide (a < b) && pat a == pat b &&
        (if pred a < pred b then decide (y.code.toNat ≤ x.code.toNat) else if pred b < pred a then decide (x.code.toNat ≤ y.code.toNat) else x.code == y.code)
    | _, _ => false

/-- Ring `id` starts its compensator on its assigned resonance: LOCKED at half depth, with the default set (R271), not yet verified. -/
def lockOn (id : Nat) (x : Resonance) (s : State) : State :=
  let l := s.loop id
  let code := x.code.toNat
  let l := { l with code := code, acqCode := code, setpoint := x.halfDepth.toNat, shadow := none, active := none, apply := false,
                    headroom := lowRoom code, x := [], v := List.replicate 3 ((code : Int) - 32768), toneLow := false, verify := true }
  s.putLoop id l.lockIn

/-- ACQUIRE_CHAIN (R275): the rings of a chain that are not locked are swept, identified, assigned and locked. A ring without a candidate,
or all of them if the order is reversed, counts as a failed acquisition. -/
def acquireChain (ch : Chain) (sws : List RingSweep) (s : State) : State :=
  let rings := (chainRings ch).zipIdx
  let todo := rings.filter fun (id, _) => let st := (s.loop id).st; st == lpAcquiring || st == lpLost
  if s.bit (R.LPE_ENG_STOPPED (ringEngine ((chainRings ch).headD 0))) then s
  else
    let codes := (List.range 16).map fun r => (sws[r]?.bind (assigned r ·))
    let bad := reversed sws (todo.foldl (fun c x => c.set x.2 (codes.getD x.2 none)) (List.replicate 16 none))
    todo.foldl (fun s (id, r) =>
      let l := s.loop id
      let s := if l.st = lpLost then s.putLoop id { l with st := lpAcquiring, reacq := min 255 (l.reacq + 1) } else s
      match codes.getD r none with
      | some x => if bad then acqFailed id s else lockOn id x s
      | none => acqFailed id s) s

/-- ACQUISITION_COMPLETE (R275, R277, R279): the chain's verification ends. Verified rings clear WRONG_LINE and their count of failures; a
failed verification counts as a failed acquisition. -/
def acquisitionComplete (ch : Chain) (ok : Bool) (s : State) : State :=
  let rings := (chainRings ch).filter fun id => (s.loop id).verify
  let s := rings.foldl (fun s id =>
    let l := s.loop id
    if ok then { s.putLoop id { l with verify := false, wrong := false } with ringFails := terase id s.ringFails }
    else acqFailed id (s.putLoop id { l with st := lpAcquiring, verify := false })) s
  if ok then ringUp (ringUser ((chainRings ch).headD 0)) s else s

/-! ## Verification (R278, R280) -/

/-- The light of a ring comes from another package: receive rings, and mux rings of expressed lines. -/
def State.farLight (s : State) (id : Nat) : Bool :=
  let c := ringClass id
  c == 1 || c == 2 || (c == 3 && !nbit (s.ownLines (ringUser id)) (ringLine id))

/-- A ring is LOCKED and its engine does not calibrate. -/
def State.maybeScored (s : State) (id : Nat) : Bool :=
  (s.loop id).st == lpLocked && !(32 ≤ ringUser id && s.engState (ringUser id - 32) == engCalibrating)

/-- The laser feed of a ring: a port's transmit feed, or an engine's bus. -/
def ringFeed (id : Nat) : Nat :=
  if ringClass id < 4 then ringUser id else 32 + (ringUser id - 32) * 4 + id % 64 / 16

/-- What the end of slot `l` finds for ring `id` with tone depth `d` (R278). -/
def slotRing (l : Nat) (quiet : Bool) (id d : Nat) (s : State) : State :=
  let x := s.loop id
  if ringLine id = l then
    let low := decide (d < 1000)
    let s := s.putLoop id { x with pilot := min d 65535, toneLow := low }
    if low && x.toneLow && !quiet then ringLost id true s else s
  else if 2000 ≤ d ∧ !quiet then ringLost id true s else s

/-- Feeds with a pilot fault in slot `l`: more than half of their scored rings of that line have a tone below 0.1 %. -/
def faultFeeds (l : Nat) (rings : List (Nat × Nat)) (s : State) : List Nat :=
  let own := rings.filter fun r => ringLine r.1 == l && !s.farLight r.1
  ((own.map fun r => ringFeed r.1).eraseDups).filter fun f =>
    let mine := own.filter fun r => ringFeed r.1 == f
    decide (mine.length < 2 * (mine.countP fun r => decide (r.2 < 1000)))

/-- Laser whose light a feed carries. -/
def feedLaser (f : Nat) : Nat := if f < 32 then f / 4 else (f - 32) / 8

/-- VERIFICATION_SLOT of line `l` (R261, R278, R280): the scored rings are judged; a pilot fault silences the slot. -/
def verificationSlot (l : Nat) (depths : List (Nat × Nat)) (s : State) : State :=
  let may := depths.filter fun r => s.maybeScored r.1
  let synced := s.bit R.FTM_STAT_SYNCED
  let skipped := may.filter fun r => s.farLight r.1 && !synced
  let rings := may.filter fun r => !s.farLight r.1 || synced
  let s := s.incSat R.LPE_CNT2_VERIFY_SKIP skipped.length
  let bad := faultFeeds l rings s
  let s := if bad.isEmpty then s else
    bad.foldl (fun s f => logEvent 9 (feedLaser f) 0x0300 (leBytes 1 (feedLaser f) ++ leBytes 1 0xF ++ leBytes 2 0) s)
      (s.incSat R.LPE_CNT2_PILOT_FAULT)
  let s := rings.foldl (fun s r => slotRing l (!bad.isEmpty) r.1 r.2 s) s
  let s := if l = 15 then s.incWrap R.LPE_PILOT_CYCLES else s
  if s.verifyLeft = 0 then s
  else
    let s : State := { s with verifyLeft := s.verifyLeft - 1 }
    if s.verifyLeft = 0 then s.set R.LPE_VERIFY_STATUS 2 else s

/-! ## Loop engines -/

/-- LOOP_ENGINE_STOP (R266): the consumers are marked out until package reset; for a port, every line fails. -/
def loopEngineStop (n : Nat) (s : State) : State :=
  let s := scbAbortRun (fun u => if n < 8 then u == unitEng (2 * n) || u == unitEng (2 * n + 1) else u < 32 && u / 8 == n - 8)
    (s.setBit (R.LPE_ENG_STOPPED n) true)
  if n < 8 then markEngineOut (2 * n + 1) 6 (markEngineOut (2 * n) 6 s)
  else (List.range 8).foldl (fun s i => (List.range 16).foldl (fun s l => lineFail (8 * (n - 8) + i) l s) s) s

/-! ## Commands -/

/-- VERIFICATION_SLOT (R278). -/
def execVerificationSlot (l : Line) (depths : List (Ring × Nat)) (s : State) : Out :=
  .next (verificationSlot l.val (depths.map fun d => (ringId d.1, d.2)) s)

/-- LOOP_SAMPLE (R268). -/
def execLoopSample (r : Ring) (adc refv : BitVec 12) (dark : Bool) (s : State) : Out :=
  attempt (loopSample (ringId r) adc.toNat refv.toNat dark) s

/-- LOOP_APPLY (R271). -/
def execLoopApply (req : Requester) (r : Ring) (s : State) : Out :=
  .next (gated req (0x100000C + 32 * ringId r) (loopApply (ringId r)) s)

/-- RECAPTURE_TIMEOUT (R273). -/
def execRecaptureTimeout (r : Ring) (s : State) : Out := .next (recaptureTimeout (ringId r) s)

/-- SHUTTER_CLOSE (R274). -/
def execShutterClose (p : Port) (l : Line) (steps : BitVec 16) (s : State) : Out :=
  .next (shutterClose (3 * 65536 + p.val * 16 + l.val) steps.toNat s)

/-- SHUTTER_OPEN (R274). -/
def execShutterOpen (p : Port) (l : Line) (s : State) : Out := .next (shutterOpen (3 * 65536 + p.val * 16 + l.val) s)

/-- ACQUIRE_CHAIN (R275). -/
def execAcquireChain (ch : Chain) (sweep : List RingSweep) (s : State) : Out := attempt (acquireChain ch sweep) s

/-- ACQUISITION_COMPLETE (R277). -/
def execAcquisitionComplete (ch : Chain) (ok : Bool) (s : State) : Out := attempt (acquisitionComplete ch ok) s

/-- LOOP_ENGINE_STOP (R266). -/
def execLoopEngineStop (n : LoopEng) (s : State) : Out := attempt (loopEngineStop n.val) s

end Sys2Proof.Machine
end

