-- ==== Sys2Proof/Machine/Lasers.lean ====
section
/-!
DEFINITION. The comb lasers (spec 10_light_and_ring_control.md, R259 to R265, R281, R282): laser states, spare takeover and its end, the
laser commands, and the switching of a bank (R408).
-/

namespace Sys2Proof.Machine

/-- States of Table 10.2. -/
def lasOff : Nat := 0
def lasWarm : Nat := 1
def lasLighting : Nat := 2
def lasLit : Nat := 3
def lasFailed : Nat := 4

/-- State of laser `j`. -/
def State.las (s : State) (j : Nat) : Nat := s.get (R.LAS_STAT_STATE j)

/-- Bank of a laser die: 0 A, 1 B. -/
def lasBank (j : Nat) : Nat := if j < 8 then j / 4 else j - 8

/-- Laser `j` enters state `st` and carries the feeds of laser `f` (15: none). HUB_LASER_MAP follows; the power drawn is at most 14 W lit and
3 W warm (R259), and the spec states no value of it. -/
def lasEnter (j st f : Nat) (s : State) : State :=
  let s := ((s.set (R.LAS_STAT_STATE j) st).setBit (R.LAS_STAT_GRID_LOCK j) (st == lasLit)).set (R.LAS_STAT_SERVES j) f
  let s := s.set R.HUB_LASER_MAP_LASER_LIT (nput (s.get R.HUB_LASER_MAP_LASER_LIT) j (st == lasLit))
  let s := if st = lasFailed then s.set R.HUB_LASER_MAP_LASER_FAILED (nput (s.get R.HUB_LASER_MAP_LASER_FAILED) j true) else s
  if st = lasOff ∨ st = lasFailed then s.set (R.LAS_STAT_PWR j) 0
  else
    let (v, s) := s.free
    s.set (R.LAS_STAT_PWR j) (v % (if st = lasWarm then 301 else 1401))

/-! ## Feeds -/

/-- A ring whose feed goes dark: it holds its code (R272); an acquisition not yet verified is aborted (R264). -/
def Loop.dark (l : Loop) : Loop :=
  if l.verify then { l with st := lpAcquiring, verify := false }
  else if l.st = lpLocked ∨ l.st = lpRecapture then { l with st := lpHold, overRun := 0, satRun := 0, lockRun := 0 } else l

/-- The rings of engine `e` hold. -/
def holdEngine (e : Nat) (s : State) : State :=
  let u := 32 + e
  let s := { s with loops := s.loops.map fun (x : Nat × Loop) => if ringUser x.1 = u then (x.1, x.2.dark) else x,
                    ringHeld := if s.ringHeld.contains u then s.ringHeld else s.ringHeld ++ [u] }
  s.setBit (R.PMX_STAT_LOCKED e) (s.engLocked e)

/-- The rings of port `p` that its own laser feeds hold: its modulator rings, and the mux rings of lines it transmits itself. -/
def holdPort (p : Nat) (s : State) : State :=
  (List.range 16).foldl (fun s l =>
    let s := s.putLoop (p * 16 + l) (s.loop (p * 16 + l)).dark
    let m := 3 * 65536 + p * 16 + l
    if nbit (s.ownLines p) l then s.putLoop m (s.loop m).dark else s) s

/-- The 12 feeds of laser `f` go dark (Table 10.4). -/
def feedDark (f : Nat) (s : State) : State :=
  let s := (List.range 4).foldl (fun s i => holdPort (4 * f + i) (portFall (4 * f + i) s)) s
  [2 * f, 2 * f + 1].foldl (fun s e => holdEngine e (engineFault e engAcquiring s)) s

/-- The 12 feeds of laser `f` stay dark until package reset (R39, R264): their engines are marked out. -/
def feedGone (f : Nat) (s : State) : State :=
  let s := feedDark f s
  markEngineOut (2 * f + 1) 4 (markEngineOut (2 * f) 4 s)

/-! ## Failure and takeover (R262 to R264) -/

/-- A laser die starts to take over the feeds of laser `f` of bank `b`; `planned` as LAS_CMD, 0 for a failure. -/
def takeoverStart (b f planned : Nat) (s : State) : State :=
  let t : Takeover := { laser := f, planned := planned, start := s.time64, litAt := none }
  lasEnter (t.incoming b) lasLighting 15 { feedDark f s with takeovers := tput b t s.takeovers }

/-- A takeover of bank `b` ends without light: a planned command reads FAILED, and its permits are free. -/
def takeoverDrop (b : Nat) (s : State) : State :=
  match s.takeovers.find? fun x => x.1 == b with
  | none => s
  | some (_, t) =>
    let s := { s with takeovers := terase b s.takeovers }
    if t.planned = 0 then s else releaseLaser (s.set R.LAS_CMD_STATUS 4)

/-- The spare of bank `b` is under test: LIGHTING, and no takeover runs there. -/
def State.spareTesting (s : State) (b : Nat) : Bool :=
  s.las (8 + b) == lasLighting && s.get R.LAS_CMD_STATUS == 1 && !(s.takeovers.any fun x => x.1 == b) && !(s.lasTarget.any fun x => x.1 == 8 + b)

/-- LASER_FAILURE (R262, R264, R39). -/
def laserFail (j : Nat) (s : State) : State :=
  let st := s.las j
  if st = lasOff ∨ st = lasFailed then s
  else
    let b := lasBank j
    let t := s.takeovers.find? fun x => x.1 == b
    let serves := s.get (R.LAS_STAT_SERVES j)
    let feed : Option Nat :=
      if st = lasLit ∧ serves ≠ 15 then some serves
      else match t with
        | some (_, t) => if t.incoming b = j then some t.laser else none
        | none => (s.lasTarget.find? fun x => x.1 == j).map Prod.snd
    let test := s.spareTesting b && j == 8 + b
    let s := { lasEnter j lasFailed 15 s with lasTarget := terase j s.lasTarget }
    let s := scbRecheck (scbAbortRun (fun u => u == unitLaser j || (match feed with
      | some f => u < 32 && u / 4 == f || (u == unitEng (2 * f) || u == unitEng (2 * f + 1))
      | none => false)) s)
    let s := logAlert alertLaser 9 j 0x0300 (leBytes 1 j ++ leBytes 1 (8 + b) ++ leBytes 2 0) s
    let s := if test then releasePermits (fun h => h % 256 == 4) (s.set R.LAS_CMD_STATUS 4) else s
    match feed with
    | none => s
    | some f =>
      let s := match t with
        | some (_, t) => if t.laser = f then takeoverDrop b s else s
        | none => s
      if j < 8 ∧ s.las (8 + b) = lasWarm then takeoverStart b f 0 (s.incWrap R.LAS_CNT_TAKEOVERS)
      else feedGone f s

/-- SELECTOR_TIMEOUT (R264): the takeover is abandoned, the incoming laser returns to WARM, and the feeds stay dark (log entry 25). -/
def selectorTimeout (b : Nat) (s : State) : State :=
  match s.takeovers.find? fun x => x.1 == b with
  | none => s
  | some (_, t) =>
    if t.litAt.isSome then s else feedGone t.laser (takeoverDrop b (lasEnter (t.incoming b) lasWarm 15 s))

/-- SPARE_LIT (R262): light returns on the 12 feeds. -/
def spareLit (b : Nat) (s : State) : State :=
  match s.takeovers.find? fun x => x.1 == b with
  | none => s
  | some (_, t) =>
    if t.litAt.isSome then s
    else
      let s := lasEnter (t.incoming b) lasLit t.laser { s with takeovers := tput b { t with litAt := some s.time64 } s.takeovers }
      takeoverEnd b s

/-! ## Commands (R265, R282) -/

/-- LAS_CMD and LPE_VERIFY. -/
def lasCmd : CmdReg := { status := R.LAS_CMD_STATUS, ignored := R.LAS_CMD_IGNORED, busy := [1], refused := some 3 }
def verifyCmd : CmdReg := { status := R.LPE_VERIFY_STATUS, ignored := R.LPE_VERIFY_IGNORED, busy := [1], refused := some 3 }

/-- LAS_CMD reads REFUSED. -/
def lasRefused (s : State) : State := s.set R.LAS_CMD_STATUS 3

/-- Permits of a swap of laser `j` (Table 10.5), ascending. -/
def swapPermits (j : Nat) : List Nat :=
  (List.range 4).map (fun i => permPort (4 * j + i)) ++ [permEng (2 * j), permEng (2 * j + 1), permLaser j, permLaser (8 + lasBank j)]

/-- A laser command claims its permits and starts (R353). -/
def lasStart (path op : Nat) (rs : List Nat) (eff : State → State) (s : State) : CmdRes × State :=
  match firstHeld s rs with
  | some (r, h) => (.busy r h, lasRefused s)
  | none => (.ok, eff ((grant (holder path op) rs s).set R.LAS_CMD_STATUS 1))

/-- SWAP_TO_SPARE (Table 10.5). -/
def swapToSpare (j path : Nat) (s : State) : CmdRes × State :=
  let b := lasBank j
  if 8 ≤ j ∨ s.las (8 + b) ≠ lasWarm ∨ s.las j ≠ lasLit ∨ s.get (R.LAS_STAT_SERVES j) ≠ j then (.refused 0, lasRefused s)
  else lasStart path 3 (swapPermits j) (fun s => takeoverStart b j 1 (lasEnter j lasWarm 15 s)) s

/-- RETURN (Table 10.5). -/
def laserReturn (j path : Nat) (s : State) : CmdRes × State :=
  let b := lasBank j
  if 8 ≤ j ∨ s.las j ≠ lasWarm ∨ s.las (8 + b) ≠ lasLit ∨ s.get (R.LAS_STAT_SERVES (8 + b)) ≠ j then (.refused 0, lasRefused s)
  else lasStart path 3 (swapPermits j) (fun s => takeoverStart b j 2 (lasEnter (8 + b) lasWarm 15 s)) s

/-- SPARE_TEST (Table 10.5): a spare that is not WARM is refused (log entry 25). -/
def spareTest (j path : Nat) (s : State) : CmdRes × State :=
  if j < 8 ∨ s.las j ≠ lasWarm then (.refused 0, lasRefused s)
  else lasStart path 4 [permLaser j] (lasEnter j lasLighting 15) s

/-- SPARE_TEST_COMPLETE: WARM again, or FAILED. -/
def spareTestEnd (b : Nat) (pass : Bool) (s : State) : State :=
  if !s.spareTesting b then s
  else if pass then releasePermits (fun h => h % 256 == 4) ((lasEnter (8 + b) lasWarm 15 s).set R.LAS_CMD_STATUS 2)
  else laserFail (8 + b) (s.incWrap R.LAS_CNT_TEST_FAILS)

/-- VERIFY_LASER (R261, R282): refused on a laser that is not LIT. -/
def verifyLaser (j _path : Nat) (s : State) : CmdRes × State :=
  if s.las j ≠ lasLit then (.refused 0, s.set R.LPE_VERIFY_STATUS 3)
  else (.ok, { s.set R.LPE_VERIFY_STATUS 1 with verifyLeft := 16 })

/-- A laser command: a register write also writes ARG. -/
def lasVia (src : CmdSrc) (cmd j : Nat) (eff : Nat → State → CmdRes × State) (s : State) : State :=
  viaCmd src lasCmd 0x880040 0x30 (leBytes 2 (cmd + 16 * j)) (fun path s => eff path (match src with
    | .reg _ => s.set R.LAS_CMD_ARG j
    | .od _ => s)) s

/-! ## Bank power (R408, R259) -/

/-- PD19 or PD20 goes off: every laser of bank `b` goes OFF, not FAILED; no takeover starts; a takeover or test in progress ends. -/
def bankOff (b : Nat) (s : State) : State :=
  let test := s.spareTesting b
  let dies := (List.range 4).map (4 * b + ·) ++ [8 + b]
  let feedOf (j : Nat) : Option Nat :=
    if s.get (R.LAS_STAT_SERVES j) ≠ 15 then some (s.get (R.LAS_STAT_SERVES j))
    else match s.takeovers.find? fun x => x.1 == b with
      | some (_, t) => if t.incoming b = j then some t.laser else none
      | none => (s.lasTarget.find? fun x => x.1 == j).map Prod.snd
  let s := dies.foldl (fun s' j =>
    if s.las j = lasOff ∨ s.las j = lasFailed then s'
    else
      let s' := match feedOf j with
        | some f => { feedDark f s' with lasTarget := tput j f s'.lasTarget }
        | none => s'
      lasEnter j lasOff 15 s') (takeoverDrop b s)
  let s := scbRecheck (scbAbortRun (fun u => dies.any fun j => u == unitLaser j || (match feedOf j with
    | some f => u < 32 && u / 4 == f || (u == unitEng (2 * f) || u == unitEng (2 * f + 1))
    | none => false)) s)
  if test then releasePermits (fun h => h % 256 == 4) (s.set R.LAS_CMD_STATUS 4) else s

/-- PD19 or PD20 goes on: the lasers that served feeds come up, the others go WARM. -/
def bankOn (b : Nat) (s : State) : State :=
  ((List.range 4).map (4 * b + ·) ++ [8 + b]).foldl (fun s j =>
    if s.las j ≠ lasOff then s
    else if s.lasTarget.any fun x => x.1 == j then lasEnter j lasLighting 15 s
    else lasEnter j lasWarm 15 s) s

/-- LASER_BRING_UP_COMPLETE (R408): the laser is lit on its feeds. -/
def bringUpDone (j : Nat) (s : State) : State :=
  match s.lasTarget.find? fun x => x.1 == j with
  | some (_, f) => if s.las j = lasLighting then lasEnter j lasLit f { s with lasTarget := terase j s.lasTarget } else s
  | none => s

/-- LASER_FAILURE (R262). -/
def execLaserFailure (j : Laser) (s : State) : Out := attempt (laserFail j.val) s

/-- SELECTOR_TIMEOUT (R264). -/
def execSelectorTimeout (b : Bank) (s : State) : Out := attempt (selectorTimeout b.val) s

/-- SPARE_LIT (R262). -/
def execSpareLit (b : Bank) (s : State) : Out := .next (spareLit b.val s)

/-- SWAP_TO_SPARE (R265). -/
def execSwapToSpare (src : CmdSrc) (j : Laser) (s : State) : Out := attempt (lasVia src 1 j.val (swapToSpare j.val)) s

/-- RETURN (R265). -/
def execLaserReturn (src : CmdSrc) (j : Laser) (s : State) : Out := attempt (lasVia src 2 j.val (laserReturn j.val)) s

/-- SPARE_TEST (R265). -/
def execSpareTest (src : CmdSrc) (j : Laser) (s : State) : Out := .next (lasVia src 3 j.val (spareTest j.val) s)

/-- VERIFY_LASER (R282). -/
def execVerifyLaser (src : CmdSrc) (j : Laser) (s : State) : Out :=
  .next (viaCmd src verifyCmd 0x890200 0x31 (leBytes 1 j.val) (fun path s => verifyLaser j.val path (match src with
    | .reg _ => s.set R.LPE_VERIFY_ARG j.val
    | .od _ => s)) s)

/-- SPARE_TEST_COMPLETE (R265). -/
def execSpareTestComplete (b : Bank) (pass : Bool) (s : State) : Out := attempt (spareTestEnd b.val pass) s

/-- LASER_BRING_UP_COMPLETE (R408). -/
def execLaserBringUpComplete (j : Laser) (s : State) : Out := .next (bringUpDone j.val s)

end Sys2Proof.Machine
end

