-- ==== Sys2Proof/Machine/RegRead.lean ====
section
/-!
DEFINITION. What a register of PF BAR0 reads (spec 13_host_and_musyn.md, R323, R326, R328; 00_scope.md, R15): the value of a 32-bit
word, without the effect of the read. WO and CMD fields read 0. FTM_TIME, FTM_TRACE, the loop records and the crash-summary window
are computed.
-/

namespace Sys2Proof.Machine

/-- Value that a read shows of a field (R15). -/
def State.shown (s : State) (f : Fld) : Nat :=
  match f.acc with
  | .wo => 0
  | .cmd => 0
  | _ => s.get f

/-- The value of a register with fields `fs`. -/
def State.fieldsVal (s : State) (fs : List Fld) : Nat := fs.foldl (fun v f => v + s.shown f * 2 ^ f.lo) 0

/-- The byte at offset `o` of crash-summary slot `k` in NVM. -/
def State.sumByte (s : State) (k o : Nat) : Byte := tget 0 s.sumNvm (k * 262144 + o)

/-- A 32-bit half of a 64-bit value: the high one when `hi` is 1. -/
def half32 (v hi : Nat) : Nat := v / 2 ^ (32 * hi) % 2 ^ 32

/-- HUB_SUMWIN (R373): word at byte `o` of the window. -/
def State.sumWin (s : State) (o : Nat) : Nat :=
  leNat ((List.range 4).map fun i => s.sumByte (s.get R.HUB_SUMCUR_SLOT) (s.get R.HUB_SUMCUR_PAGE * 4096 + o + i))

/-- The word at address `a`, a multiple of 4, of PF BAR0, or of the registers that function n has for itself at n × 2^28. Unmapped
and reserved registers read 0 (R328). -/
def State.wordAt (s : State) (a : Nat) : Nat :=
  if 0x2000 ≤ a ∧ a < 0x3000 then s.sumWin (a - 0x2000)
  else if a / 8 * 8 = 0x900000 then half32 s.time64 (a / 4 % 2)
  else if a = 0x900020 then s.trace
  else if 0x1000000 ≤ a ∧ a < 0x1C00000 then
    let id := (a - 0x1000000) / 32
    if ringExists id then loopRead id (a % 32 / 4) s % 2 ^ 32 else 0
  else match regAt a with
    | none => 0
    | some (base, _, fs) => half32 (s.fieldsVal fs) ((a - base) / 4)

/-- Bytes of `n` words from address `a` on. -/
def State.wordsAt (s : State) (a n : Nat) : List Byte := (List.range n).flatMap fun i => leBytes 4 (s.wordAt (a + 4 * i))

end Sys2Proof.Machine
end

