-- ==== Sys2Proof/Machine/Capture.lean ====
section
/-!
DEFINITION. The crash dump (spec 14_faults_reset_recovery.md, R369 to R374): the segment of each bay in the dump region, its header, and
the summary for NVM. Where the spec states a part and not its layout, the parts follow one another in the order given (log entry
29).
-/

namespace Sys2Proof.Machine

/-- Stack address of the dump region (R370), and its size. -/
def dumpBase : Nat := 0xBFC000000
def dumpSize : Nat := 0x4000000

/-- Home key of offset `x` in the segment of bay `n`. -/
def dumpKey (n x : Nat) : Nat := n * (48 * gib) + dumpBase + x

/-- Local address of offset 0 of bay `n`'s segment (R370), with `bays` in service and `b` GiB bay-local. -/
def dumpSeg (bays : List Nat) (b n : Nat) : Nat :=
  let k := bays.length
  let j := bays.idxOf n
  if b = 0 then k * (48 * gib) - k * dumpSize + j * 4096
  else k * (48 - b) * gib + (j + 1) * (b * gib) - dumpSize

/-- Bytes that differ from 0, with their places from `k` on. -/
def nzBytes (k : Nat) (bs : List Byte) : List (Nat × Byte) := (listTab 0 bs).map fun p => (k + p.1, p.2)

/-- A hart runs a context: it is below M mode, or waits (log entry 29). -/
def Hart.hasContext (h : Hart) : Bool := h.priv != .m || h.wait != .none

/-- STATE of a hart record (Table 14.8). -/
def Hart.stateCode (h : Hart) : Nat :=
  match h.wait with
  | .none => if h.hasContext then 1 else 0
  | .peg _ _ _ _ => 2
  | .raise _ _ _ => 2
  | .commit _ _ => 3
  | .gld _ _ _ _ _ => 4
  | .vgld _ _ _ _ _ _ => 4
  | .gamo _ _ _ _ => 4
  | .pmx _ _ => 5
  | .launch _ => 5
  | .tracker _ => 6

/-- A hart record (Table 14.8), but for its zero tail. -/
def hartRecord (c : Nat) (s : State) : List Byte :=
  let h := s.hart c
  let std := [h.mstatus, h.csrVal 0x342, h.csrVal 0x341, h.csrVal 0x343, h.csrVal 0x304, h.mip, h.csrVal 0x180, h.csrVal 3, h.csrVal csrVl,
    h.csrVal csrVtype, h.csrVal 0x141, h.csrVal 0x142, h.csrVal 0x143, h.csrVal 0x302, h.csrVal 0x303, h.csrVal 0x305]
  let hen := [0x7C0, 0x7C1, 0x7C2, 0x7C3, 0x800, 0xCC0, 0xCC1, 0xCC2, 0xCC3, 0xCC4, 0xCC5].map fun n => (henCsr s.pkg c h n).getD 0
  padTo 0x110 ((List.range 32).flatMap (fun r => leBytes 8 (h.rn (BitVec.ofNat 5 r))) ++ leBytes 8 h.pc.toNat ++ leBytes 1 h.stateCode ++
    leBytes 1 h.priv.code) ++ std.flatMap (leBytes 8) ++ (hen ++ [s.wordAt (0x501000 + 4 * c)]).flatMap (leBytes 8)

/-- Tenants that were present on bay `n` (SUSPECTS, Table 14.7). -/
def suspects (n : Nat) (s : State) : Nat :=
  let ctx := s.harts.filterMap fun (c, h) => if c / 128 = n ∧ h.hasContext then some h.tenant else none
  let tasks := s.queues.filterMap fun (k, w) =>
    if s.get (R.DSP_Q_HOME (k / 256) (k % 256)) = n ∧ (w.held.isSome ∨ w.tasks.any fun x => x.st != .final) then some (k / 256) else none
  let tiles := ((s.eng (2 * n)).queue ++ (s.eng (2 * n + 1)).queue ++ s.fallback n).map Tile.tenant
  bitsNat ((List.range 16).map (ctx ++ tasks ++ tiles).contains)

/-- Section 3 of a segment: an engine's PMX block and the descriptors of its queue. -/
def engineSection (e : Nat) (s : State) : List Byte :=
  s.wordsAt (0x400000 + 0x100 * e) 64 ++ padTo 4096 ((s.eng e).queue.flatMap Tile.desc)

/-- Sections 0 to 4 of bay `n`'s segment as (offset, bytes) (Table 14.6). -/
def baySections (n : Nat) (s : State) : List (Nat × List Byte) :=
  ((List.range 128).map fun i => (0x1000 + 2048 * i, hartRecord (128 * n + i) s)) ++
  [(0x41000, s.wordsAt (0x610000 + 0x8000 * n) 8192)] ++
  ((List.range 4096).filterMap fun k =>
    if s.get (R.DSP_Q_HOME (k / 256) (k % 256)) = n then some (0x49000 + 64 * k, s.wordsAt (0x420000 + 0x4000 * (k / 256) + 0x40 * (k % 256)) 16)
    else none) ++
  [(0x89000, engineSection (2 * n) s ++ engineSection (2 * n + 1) s), (0x91000, (((s.fallback n).take 1024).flatMap Tile.desc).take 0x10000)]

/-- The fetched DMA tasks of the dispatcher slice of bay `n`. -/
def dmaFetched (n : Nat) (s : State) : List Task :=
  (s.queues.flatMap fun (k, w) =>
    if s.get (R.DSP_Q_HOME (k / 256) (k % 256)) = n ∧ s.get (R.DSP_Q_TYPE (k / 256) (k % 256)) = 1 then w.tasks.filter fun x => x.st != .final
    else []).take 512

/-- Section 5: records of 128 bytes whose layout the spec does not state: each is a free value. -/
def dmaSection : List Task → State → List Byte × State
  | [], s => ([], s)
  | _ :: r, s =>
    let (v, s) := s.free
    let (rest, s) := dmaSection r s
    (leBytes 128 v ++ rest, s)

/-- Section 6, the package section. -/
def packageSection (s : State) : List Byte :=
  s.wordsAt 0x600000 256 ++ s.wordsAt 0x601000 2048 ++ s.wordsAt 0x600500 16 ++ s.wordsAt 0x600540 16 ++ s.wordsAt 0x300 1 ++ s.wordsAt 0x200 5 ++
    s.wordsAt 0x740 18 ++ ((List.range 32).flatMap fun p => s.wordsAt (0x700008 + 0x100 * p) 1) ++
    ((List.range 32).flatMap fun p => s.wordsAt (0x70000C + 0x100 * p) 1)

/-- Section 7: the first 256 KiB of each core store of bay `n`, as (offset, byte) of the bytes that differ from 0. -/
def storeSection (n : Nat) (s : State) : List (Nat × Byte) :=
  s.mem.filterMap fun (k, b) =>
    let a := k - 0x9000000000
    if inCoreStore k && a / 0x8000000 == n && a % 0x100000 < 0x40000 then
      some (0x2000000 + a % 0x8000000 / 0x100000 * 0x40000 + a % 0x100000, b)
    else none

/-- MISSING (Table 14.7): a section with an uncorrectable error is marked, and not read. -/
def missing (n : Nat) (s : State) : Nat :=
  bitsNat [false, (List.range 8192).any fun i => s.bit (R.PEG_VAL_POISON (8192 * n + i)), false, false, false, false, false,
    s.badWords.any fun w => inCoreStore (8 * w) && (8 * w - 0x9000000000) / 0x8000000 == n && (8 * w - 0x9000000000) % 0x100000 < 0x40000]

/-- The header of bay `n`'s segment (Table 14.7). -/
def segHeader (n : Nat) (lead : Bool) (all : Nat) (s : State) : List Byte :=
  let b := leBytes 8 0x3148534152435848 ++
    leBytes 8 (s.get R.HUB_DUMP_SEQ + 2 ^ 16 * s.get R.HUB_RESET_STAT_KIND + 2 ^ 18 * s.get R.HUB_RESET_STAT_CAUSE + 2 ^ 21 * n + if lead then 2 ^ 24 else 0) ++
    leBytes 8 (s.get R.HUB_RESET_TIME_TRIGGER) ++ leBytes 8 (suspects n s + if lead then 2 ^ 16 * all else 0) ++
    leBytes 8 (missing n s) ++ leBytes 20 0
  b ++ leBytes 4 (crc32c b)

/-- A segment is written: the region is cleared, and its bytes stored. -/
def writeSegment (n : Nat) (cells : List (Nat × Byte)) (s : State) : State :=
  let lo := dumpKey n 0
  let s : State := { s with
    mem := s.mem.filter fun p => decide (p.1 < lo ∨ lo + dumpSize ≤ p.1)
    poison := s.poison.filter fun b => decide (b * 64 < lo ∨ lo + dumpSize ≤ b * 64) }
  cells.foldl (fun t p => t.setByte (lo + p.1) p.2) s

/-- The bytes of bay `n`'s segment. -/
def segCells (n : Nat) (lead : Bool) (all : Nat) (dma : List Byte) (s : State) : List (Nat × Byte) :=
  let m := missing n s
  let secs := (0, segHeader n lead all s) :: (baySections n s).filter (fun p => !(nbit m 1 && p.1 == 0x41000)) ++ [(0xB1000, dma)] ++
    if lead then [(0xC1000, packageSection s)] else []
  secs.flatMap (fun p => nzBytes p.1 p.2) ++ if nbit m 7 then [] else storeSection n s

/-- The NVM summary (R373). Bytes 8 to 15 of a core's entry hold mcause, STATE and tenant in a layout that the spec does not state. -/
def summaryCells (lead all : Nat) (s : State) : List (Nat × Byte) × State :=
  let (cores, s') := (List.range 1024).foldl (fun (p : List Byte × State) c =>
    let (v, t) := p.2.free
    (p.1 ++ leBytes 8 (s.hart c).pc.toNat ++ leBytes 8 v, t)) ([], s)
  let queues := (List.range 4096).flatMap fun k =>
    let t := k / 256
    let q := k % 256
    leBytes 2 (s.get (R.DSP_Q_HEAD t q)) ++ leBytes 2 (s.get (R.DSP_Q_TAIL t q)) ++ leBytes 2 (s.get (R.DSP_Q_RETIRE t q)) ++
      leBytes 2 (s.get (R.DSP_Q_ERR t q))
  let engs := (List.range 16).flatMap fun e => s.wordsAt (0x400004 + 0x100 * e) 1 ++ s.wordsAt (0x400030 + 0x100 * e) 1
  (nzBytes 0 (padTo 4096 (segHeader lead true all s) ++ cores ++ queues ++ engs ++ packageSection s), s')

/-- The segments of `bays` are written, the first of them the lead. -/
def writeSegments (all : Nat) (snap : State) : List Nat → Bool → State → State
  | [], _, s => s
  | n :: r, lead, s =>
    let (dma, s) := dmaSection (dmaFetched n snap) s
    writeSegments all snap r false (writeSegment n (segCells n lead all dma snap) s)

/-- A capture begins: HUB_DUMP.SEQ and SUMSLOT are its own from now on (log entry 29), and its summary is not written. -/
def captureBegin (s : State) : State :=
  let slot := (s.dumpSlot + 1) % 16
  let seq := (s.dumpSeq + 1) % 65536
  ({ s with dumpSeq := seq, dumpSlot := slot, sumWait := none }.set R.HUB_DUMP_SEQ seq |>.set R.HUB_DUMP_SUMSLOT slot).set R.HUB_RESET_STAT_SUMMARY 0

/-- Bay `n` was dead when the compute reset in progress was triggered: `deadDies` then lists its compute die as 120 + n. -/
def State.deadBefore (s : State) (n : Nat) : Bool := s.deadDies.contains (120 + n)

/-- The capture in progress ends (R369): the segments of the in-service bays but for `absent`, HUB_DUMP, and the summary, which waits to
be written after the erase of its slot. -/
def capture (absent : Nat) (s : State) : State :=
  let bays := (List.range 8).filter fun n =>
    s.bayIn n && s.hbmBays.contains n && !nbit absent n && !s.deadDies.contains n && !s.deadBefore n && !s.deadDies.contains (100 + n)
  let mask := bitsNat ((List.range 8).map bays.contains)
  let slot := s.dumpSlot
  let s := (s.set R.HUB_DUMP_BAYS mask).setBit R.HUB_DUMP_VALID (mask != 0)
  let s := eraseIntent (sectorSummary slot) (s.setBit R.HUB_RESET_STAT_DUMP (mask != 0))
  let all := (List.range 8).foldl (fun a n => if s.bayIn n then a ||| suspects n s else a) 0
  let snap := s
  let (cells, s) := summaryCells (bays.headD 0) all s
  let s := writeSegments all snap bays true s
  { s with sumWait := some (slot, cells), dumpBays := mask }

/-- Cells of a slot of the summary region. -/
def sumPut (slot : Nat) (cells : List (Nat × Byte)) (s : State) : State :=
  let lo := slot * 262144
  { s with sumNvm := cells.foldl (fun t p => tput (lo + p.1) p.2 t) (s.sumNvm.filter fun p => p.1 / 262144 != slot) }

end Sys2Proof.Machine
end

