-- ==== Sys2Proof/Machine/Scribe.lean ====
section
/-!
DEFINITION. Scribe (spec 11_scribe_calibration.md, R284 to R301): requests, the run of a calibration, the checks of Table 11.4, the
acceptance and storage of results, and the temperature rebuild of an engine's set.
-/

namespace Sys2Proof.Machine

/-- SCB_CMD. -/
def scbCmd : CmdReg := { status := R.SCB_CMD_STATUS, ignored := R.SCB_CMD_IGNORED, busy := [1], refused := some 3 }

/-- SCB_CMD reads REFUSED with a reason. -/
def scbRefuse (reason : Nat) (s : State) : State := (s.set R.SCB_CMD_STATUS 3).set R.SCB_CMD_REASON reason

/-! ## Requests (R287, R288) -/

/-- The arguments of CALIBRATE: SCB_ARG and SCB_START_AT. -/
def scbReqOf (arg startAt : Nat) (s : State) : ScbReq :=
  let u := nfld arg 0 7
  { unit := u, force := nbit arg 7, timed := nbit arg 8, startAt := startAt,
    timeoutMs := let t := nfld arg 16 16; if t = 0 then 100 else t, res := scbPermits u s, base := 0 }

/-- SCB_ARG as a word. -/
def State.scbArg (s : State) : Nat :=
  s.get R.SCB_ARG_UNIT + 2 ^ 7 * s.get R.SCB_ARG_FORCE + 2 ^ 8 * s.get R.SCB_ARG_TIMED + 2 ^ 16 * s.get R.SCB_ARG_TIMEOUT_MS

/-- CALIBRATE (R287): the request is queued, or refused with the reason of the first case that holds. -/
def scbCalibrate (path arg startAt : Nat) (s : State) : CmdRes × State :=
  let r := scbReqOf arg startAt s
  let refuse (n : Nat) (s : State) : CmdRes × State := (.refused n, scbRefuse n s)
  if 73 < r.unit then refuse 5 s
  else if s.scbState r.unit ≠ scbIdle then
    (match firstHeld s r.res with
      | some (x, h) => .busy x h
      | none => .refused 1, scbRefuse 1 s)
  else if !scbAvail r.unit s then refuse 7 s
  else if r.unit < 32 ∧ s.termMask r.unit ≠ 0xFFFF then refuse 4 s
  else if 16 ≤ s.scbQueue.length then refuse 2 s
  else match firstHeld s r.res with
  | some (x, h) => (.busy x h, scbRefuse 1 s)
  | none =>
    let l := if r.timed then s.lateness r.startAt else .wait
    if l = .stale then refuse 3 s
    else
      let s := if l = .late then s.setBit R.SCB_STAT_LATE true else s
      let s := scbPutQueue (s.scbQueue ++ [r]) (grant (holder path 2) r.res s)
      (.ok, (s.set (R.SCB_UNIT_STATE r.unit) scbQueued).set R.SCB_CMD_STATUS 2)

/-- ABORT of unit `u` (R290). -/
def scbAbortCmd (u : Nat) (s : State) : CmdRes × State :=
  match s.scbQueue.find? fun r => r.unit == u with
  | some r =>
    (.ok, (scbEnd r scbAborted 0 (scbPutQueue (s.scbQueue.filter fun x => x.unit != u) s)).set R.SCB_CMD_STATUS 2)
  | none =>
    match s.scbRun with
    | none => (.refused 6, scbRefuse 6 s)
    | some r =>
      if r.unit ≠ u then (.refused 6, scbRefuse 6 s)
      else if s.scbState u = scbRunning then (.refused 0, s.set R.SCB_CMD_STATUS 4)
      else (.ok, (scbEnd r scbAborted 0 (scbStop s)).set R.SCB_CMD_STATUS 2)

/-! ## The run (R288, R289) -/

/-- A request is eligible. -/
def ScbReq.eligible (r : ScbReq) (s : State) : Bool := !r.timed || decide (0 ≤ timeDiff s.time64 r.startAt)

/-- Engine `e` is interrupted by a calibration: CALIBRATING; with FORCE its tiles fall back, even with STRICT (Table 11.5). -/
def calEngine (force : Bool) (e : Nat) (s : State) : State :=
  let s := if force then dropTiles e true s else s
  engEnter e engCalibrating s

/-- A calibration starts RUNNING (Tables 11.1, 11.5): its unit is interrupted. A LASER calibration without REF ends NO_REF. -/
def scbBegin (r : ScbReq) (s : State) : State :=
  let r := { r with base := fbSvcSum r s }
  let u := r.unit
  let s := ({ s with scbRun := some r }.set (R.SCB_UNIT_STATE u) scbRunning).setBit (R.SCB_UNIT_FORCED u) r.force
  if u < 32 then portFall u s
  else if u < 48 then calEngine r.force (u - 32) s
  else if u < 58 then
    if s.get R.SCB_STAT_REF_OK = 0 then
      let s := scbEnd r scbNoRef 1 ((scbStop s).incWrap (R.SCB_UNIT_FAILS u))
      logAlert alertCalReject 11 u 0x0500 (scbBytes r scbNoRef 1 0 s) (s.incSat R.SCB_CNT_REJECTS)
    else
      let f := s.get (R.LAS_STAT_SERVES (u - 48))
      if f = 15 then s
      else
        let s := (List.range 4).foldl (fun s i => holdPort (4 * f + i) (portFall (4 * f + i) s)) s
        r.engines.foldl (fun s e => holdEngine e (if s.engServing e then calEngine r.force e s else s)) s
  else planeOut (u - 58) s

/-- CALIBRATION_TAKEN (R288, R289): the first eligible request, when none is taken. -/
def calibrationTaken (s : State) : State :=
  if s.scbRun.isSome then s
  else match s.scbQueue.find? (·.eligible s) with
  | none => s
  | some r =>
    let s := scbPutQueue (s.scbQueue.erase r) s
    let s := ({ s with scbRun := some r }.setBit R.SCB_STAT_RUN_VALID true).set R.SCB_STAT_RUN_UNIT r.unit
    if r.force then scbBegin r s
    else
      let s := r.engines.foldl (fun s e => let g := s.eng e; s.putEng e { g with drain := some (g.queue.map (·.id)) }) s
      (s.set (R.SCB_UNIT_STATE r.unit) scbDraining).setBit (R.SCB_UNIT_FORCED r.unit) false

/-- Port `p` is ready for a calibration in DRAIN (Table 11.5). -/
def State.portDrained (s : State) (p : Nat) : Bool :=
  s.ptState p != ptUp || ((List.range 16).all (fun g => !nbit (s.get (R.LNK_GANG_PORTS g)) p) && (s.port p).replay.isEmpty)

/-- Engine `e` is ready: every tile queued when DRAINING began has completed. -/
def State.engDrained (s : State) (e : Nat) : Bool :=
  match (s.eng e).drain with
  | some ids => ids.isEmpty
  | none => true

/-- The unit of a DRAINING request is ready (Table 11.5). -/
def ScbReq.ready (r : ScbReq) (s : State) : Bool :=
  if r.unit < 32 then s.portDrained r.unit
  else if r.unit < 58 then
    r.engines.all s.engDrained && (r.res.filter (· < 32)).all s.portDrained
  else
    let es := mapEntries s.committedMap
    (List.range 32).all fun p => entAction (es.getD (16 * p + (r.unit - 58)) 0) != 1

/-- DRAIN_READY (R289). -/
def drainReady (s : State) : State :=
  match s.scbRun with
  | none => s
  | some r => if s.scbState r.unit = scbDraining ∧ r.ready s then scbBegin r s else s

/-- DRAIN_TIMEOUT (R289): the unit carries on as if no request had been made. -/
def drainTimeout (s : State) : State :=
  match s.scbRun with
  | none => s
  | some r => if s.scbState r.unit = scbDraining ∧ !r.ready s then scbEnd r scbTimeout 0 (scbStop s) else s

/-! ## Checks (Table 11.4) -/

/-- What a check found: its number, the result on failure, and the first value that fails it. -/
structure CalCheck where
  num : Nat
  result : Nat
  bad : Option Int
  deriving DecidableEq, Repr

/-- The first value of a list outside `[lo, hi]`. -/
def outside (lo hi : Int) (vs : List Int) : Option Int := vs.find? fun v => decide (v < lo) || decide (hi < v)

/-- A measured value by index, or the value in force. -/
def measured (l : List (Nat × Int)) (d : Nat → Int) (i : Nat) : Int :=
  match l.find? fun x => x.1 == i with
  | some (_, v) => v
  | none => d i

/-- Elements that fail check 6, by the distance of their codes or their extinction. -/
def elemBad (elems : List (Nat × Nat × Nat × Nat)) : Option Int :=
  (elems.find? fun (_, bar, cross, ext) => codeDist cross bar < 400 || ext < 200).map fun (_, bar, cross, ext) =>
    if codeDist cross bar < 400 then (codeDist cross bar : Int) else (ext : Int)

/-- Checks of a LASER result for laser `j`. -/
def checkLaser (j : Nat) (ref : Bool) (r1 r2 : Int) (s : State) : List CalCheck :=
  [⟨1, scbNoRef, if ref then none else some (s.get R.SCB_STAT_REF_PWR)⟩,
   ⟨2, scbDisagree, outside (-800000) 800000 [r1 - r2]⟩,
   ⟨3, scbRejected, (outside (-2400000) 2400000 [r1 + r2 - 2 * s.small 0 j 0]).map fun _ => divRne (r1 + r2) 2⟩]

/-- Checks of a PORT result for port `p`. -/
def checkPort (p : Nat) (main pre post : List Int) (eye : List Nat) (elems : List (Nat × Nat × Nat × Nat)) (trim : Int) : List CalCheck :=
  let d := trim - Config.factory 1 p 0
  [⟨4, scbRejected, (outside 40 1000000 main).orElse fun _ => outside (-16) 16 (pre ++ post)⟩,
   ⟨5, scbRejected, outside 12 1000000 (eye.map Int.ofNat)⟩,
   ⟨6, scbRejected, elemBad elems⟩,
   ⟨7, scbRejected, (outside (-50) 50 [d]).map fun _ => trim⟩]

/-- The value of field `f` of engine `e` in force at `t` (R298). -/
def State.calAt (s : State) (e : Nat) (t : Int) (f : Nat) : Int := interpolate s.calPts (s.calMaskOf e) e t f

/-- Checks of an ENGINE result for engine `e`. Check 9 compares with the valid points; with none there is nothing to compare. -/
def checkEngine (e : Nat) (full sparse beta gamma seeds : List (Nat × Int)) (moved : Nat) (t : Int) (s : State) : List CalCheck :=
  let f := measured full fun i => s.calAt e t (calFull (i / 16) (i % 16))
  let sp := measured sparse fun i => s.calAt e t (calSparse (i / 8) (i % 8))
  let fulls := List.range 65536
  let sparses := List.range 16384
  let self := ((fulls.filter fun i => i / 16 % 16 == i % 16).map f) ++ ((sparses.filter fun i => i / 8 % 8 == i % 8).map sp)
  let other := ((fulls.filter fun i => i / 16 % 16 != i % 16).map f) ++ ((sparses.filter fun i => i / 8 % 8 != i % 8).map sp)
  let moves := (full.map fun x => x.2 - s.calAt e t (calFull (x.1 / 16) (x.1 % 16))) ++
    (sparse.map fun x => x.2 - s.calAt e t (calSparse (x.1 / 8) (x.1 % 8)))
  let rows := List.range 384
  [⟨8, scbRejected, (outside 12288 16384 self).orElse fun _ => outside (-2048) 2048 other⟩,
   ⟨9, scbRejected, if s.calMaskOf e = 0 then none else outside (-256) 256 moves⟩,
   ⟨10, scbRejected, (outside (-2048) 2048 (rows.map (measured beta fun i => s.calAt e t (calBeta (i / 6) (i % 6))))).orElse fun _ =>
      outside 14336 18432 (rows.map (measured gamma fun i => s.calAt e t (calGamma (i / 6) (i % 6))))⟩,
   ⟨11, scbRejected, outside 0 512 ((List.range 6).map (measured seeds fun i => s.calAt e t (calSeed i)))⟩,
   ⟨12, scbTempMoved, outside 0 256 [(moved : Int)]⟩]

/-- Checks of a PLANE result for plane `m`. -/
def checkPlane (m : Nat) (elems : List (Nat × Nat × Nat × Nat)) (s : State) : List CalCheck :=
  let far (c d : Nat) : Option Int := if 200 < codeDist c d then some (c : Int) else none
  [⟨6, scbRejected, elemBad elems⟩,
   ⟨13, scbRejected, elems.findSome? fun (j, bar, cross, _) =>
      (far bar (s.elemCode m j false)).orElse fun _ => far cross (s.elemCode m j true)⟩]

/-- The checks of a result for unit `u`; `none`: the result is not of the unit's kind. -/
def scbChecks (u : Nat) (m : CalMeasure) (s : State) : Option (List CalCheck) :=
  match m with
  | .port main pre post _ _ _ eye elems trim => if u < 32 then some (checkPort u main pre post eye elems trim) else none
  | .engine full sparse _ beta gamma seeds moved t =>
    if 32 ≤ u ∧ u < 48 then some (checkEngine (u - 32) full sparse beta gamma seeds moved t s) else none
  | .laser ref r1 r2 _ _ => if 48 ≤ u ∧ u < 58 then some (checkLaser (u - 48) ref r1 r2 s) else none
  | .plane elems _ => if 58 ≤ u then some (checkPlane (u - 58) elems s) else none

/-! ## Acceptance (R299, R300) -/

/-- A field of a point takes a value. -/
def putPoint (e i f : Nat) (v : Int) (pts : List (Nat × Int)) : List (Nat × Int) := tput ((e * 5 + i) * calFields + f) v pts

/-- Every field of a point (Table 11.8). -/
def calAllFields : List Nat :=
  List.range 774 ++ (List.range 4160).map (1000 + ·) ++ (List.range 192).map (6000 + ·) ++ (List.range 12288).map (7000 + ·) ++
    (List.range 65536).map (20000 + ·) ++ (List.range 16384).map (90000 + ·)

/-- The measured fields of an ENGINE result by field number. -/
def calMeasured (full sparse other beta gamma seeds : List (Nat × Int)) : List (Nat × Int) :=
  other ++ (beta.map fun x => (calBeta (x.1 / 6) (x.1 % 6), x.2)) ++ (gamma.map fun x => (calGamma (x.1 / 6) (x.1 % 6), x.2)) ++
    (seeds.map fun x => (calSeed x.1, x.2)) ++ (full.map fun x => (calFull (x.1 / 16) (x.1 % 16), x.2)) ++
    (sparse.map fun x => (calSparse (x.1 / 8) (x.1 % 8), x.2))

/-- An accepted ENGINE result at `t` (R299): Δ is added to the valid points that bracket `t`; a bracketing point that is invalid receives
the values themselves and becomes valid. -/
def acceptEngine (e : Nat) (xs : List (Nat × Int)) (t : Int) (s : State) : State :=
  let mask := s.calMaskOf e
  let pair (m : Nat) : List Nat := match bracket m t with
    | some (a, b) => if a = b then [a] else [a, b]
    | none => []
  let old := pair mask
  let fresh := (pair 31).filter fun i => !nbit mask i
  let at0 := s.calAt e t
  let pts := old.foldl (fun pts i => xs.foldl (fun pts x => putPoint e i x.1 (pointField s.calPts e i x.1 + (x.2 - at0 x.1)) pts) pts) s.calPts
  let pts := fresh.foldl (fun pts i => calAllFields.foldl (fun pts f => putPoint e i f (measured xs at0 f) pts) pts) pts
  { s with calPts := pts, calMask := tput e (fresh.foldl (fun m i => nput m i true) mask) s.calMask }

/-- The element entries of a result take effect. -/
def acceptElems (elems : List (Nat × Nat × Nat × Nat)) (tref : Nat → Nat → Int) (s : State) : State :=
  elems.foldl (fun s (k, bar, cross, _) =>
    let m := k / 256
    let j := k % 256
    ((s.setSmall 2 m (elemField j 0) bar).setSmall 2 m (elemField j 1) cross).setSmall 2 m (elemField j 3) (tref m j)) s

/-- Values of a list into the fields of a small table from `f` on. -/
def putSmalls (k u f : Nat) (vs : List Int) (s : State) : State :=
  vs.zipIdx.foldl (fun s x => s.setSmall k u (f + x.2) x.1) s

/-- An accepted result is in force (R300). -/
def scbAccept (u : Nat) (m : CalMeasure) (s : State) : State :=
  match m with
  | .port main pre post bias thr pred _ elems trim =>
    let s := putSmalls 1 u 0 (trim :: main ++ pre ++ post) s
    let s := putSmalls 1 u 64 (bias.map Int.ofNat) s
    let s := putSmalls 1 u 80 (thr.map Int.ofNat) s
    let s := pred.foldl (fun s x => s.setSmall 1 u (128 + x.1) x.2) s
    acceptElems elems (fun m j => s.dieTemp (elemDie m j)) s
  | .engine full sparse other beta gamma seeds _ t =>
    let e := u - 32
    let s := acceptEngine e (calMeasured full sparse other beta gamma seeds) t s
    let s := swapShadow e (s.putEng e { s.eng e with shadow := some (s.buildSet e (s.dieTemp (24 + e))) })
    s.setBit (R.PMX_STAT_CAL_VALID e) true
  | .laser _ r1 r2 pwr t => putSmalls 0 (u - 48) 0 [divRne (r1 + r2) 2, r1, r2, pwr, t] s
  | .plane elems tref => acceptElems (elems.map fun x => ((u - 58) * 256 + x.1, x.2)) (fun _ _ => tref) s

/-- Temperature of the unit's die at a calibration, in 1/256 °C (R301). -/
def scbTemp (u : Nat) (m : CalMeasure) (s : State) : Int :=
  match m with
  | .port .. => s.dieTemp (56 + u / 4)
  | .engine _ _ _ _ _ _ _ t => t
  | .laser _ _ _ _ t => t
  | .plane _ t => t

/-- A key of the small tables belongs to the table of unit `u`; the edge switches of a port lie in its port table (Table 11.7). -/
def smallOfUnit (u key : Nat) : Bool :=
  let k := key / 65536 / 128
  let n := key / 65536 % 128
  let j := key % 65536 / 4
  if u < 32 then (k == 1 && n == u) || (k == 2 && (j == 144 + u || j == 176 + u))
  else if 48 ≤ u && u < 58 then k == 0 && n == u - 48
  else 58 ≤ u && k == 2 && n == u - 58 && j < 144

/-- The table of unit `u` is written to NVM with COUNT, LAST and TCAL (R300). -/
def scbStore (u : Nat) (s : State) : State :=
  let keep {α : Type} (p : Nat → Bool) (old new : List (Nat × α)) : List (Nat × α) :=
    (new.filter fun x => p x.1).foldl (fun t x => tput x.1 x.2 t) (old.filter fun x => !p x.1)
  let s : State := if 32 ≤ u ∧ u < 48 then
      { s with nvmPts := keep (fun k => k / calFields / 5 == u - 32) s.nvmPts s.calPts
               nvmMask := tput (u - 32) (s.calMaskOf (u - 32)) s.nvmMask }
    else { s with nvmSmall := keep (smallOfUnit u) s.nvmSmall s.calSmall }
  { s with nvmInfo := tput u (s.get (R.SCB_UNIT_COUNT u), s.get (R.SCB_UNIT_LAST u), s.get (R.SCB_UNIT_TCAL u)) s.nvmInfo }

/-- The unit returns to service after its calibration (R300, Tables 11.1, 11.3): a port waits for its training, the rings of a laser's feeds
for their recapture. -/
def scbReturn (u : Nat) (s : State) : State :=
  if u < 32 then s
  else if u < 48 then
    let e := u - 32
    if s.engState e ≠ engCalibrating then s
    else if s.bit (R.PMX_STAT_LOCKED e) && (s.eng e).act.isSome then engineSettle e s else engEnter e engAcquiring s
  else if u < 58 then s
  else
    let m := u - 58
    if s.bit (R.SCB_UNIT_MISSING u) || nbit s.pairsOut (m / 2) then s
    else
      let s := s.set R.HUB_PLANE_MAP_PLANE_IN_SERVICE (nput (s.get R.HUB_PLANE_MAP_PLANE_IN_SERVICE) m true)
      let s := if s.activeHdg.isSome then driveAll s else s
      { s with shuttered := s.shuttered.filter fun k => k % 16 != m }

/-- The result is accepted: it is in force, counted, and written to NVM if that succeeds (R300, R301). -/
def scbAccepted (r : ScbReq) (m : CalMeasure) (stored : Bool) (s : State) : State :=
  let u := r.unit
  let s := scbAccept u m s
  let s := ((s.incWrap (R.SCB_UNIT_COUNT u)).set (R.SCB_UNIT_LAST u) s.time64).set (R.SCB_UNIT_TCAL u) (ofSigned 16 (scbTemp u m s))
  let s := (s.setBit (R.SCB_UNIT_MISSING u) false).setBit (R.SCB_UNIT_NOT_STORED u) (!stored)
  let s := if 32 ≤ u ∧ u < 48 then s.set (R.SCB_UNIT_POINTS u) (s.calMaskOf (u - 32)) else s
  let s := scbEnd r scbOk 0 (scbStop (if stored then scbStore u s else s))
  if !stored then logAlert alertNvm 11 u 0x0500 (scbBytes r scbOk 0 0 s) s
  else if r.force then scbLog r scbOk 0 0 s else s

/-- A check has failed (R292): every old value stays, FAILS and REJECTS count, and the Logbook records it. -/
def scbFailed (r : ScbReq) (c : CalCheck) (v : Int) (s : State) : State :=
  let s := (s.incWrap (R.SCB_UNIT_FAILS r.unit)).incSat R.SCB_CNT_REJECTS
  logAlert alertCalReject 11 r.unit 0x0500 (scbBytes r c.result c.num v s) (scbEnd r c.result c.num (scbStop s))

/-- CALIBRATION_COMPLETE (R292, R299, R300). -/
def calibrationComplete (m : CalMeasure) (stored : Bool) (s : State) : State :=
  match s.scbRun with
  | none => s
  | some r =>
    if s.scbState r.unit ≠ scbRunning then s
    else match scbChecks r.unit m s with
    | none => s
    | some cs =>
      let s := match cs.findSome? fun c => c.bad.map fun v => (c, v) with
        | some (c, v) => scbFailed r c v s
        | none => scbAccepted r m stored s
      scbReturn r.unit s

/-- SHADOW_REBUILD (R298): the set is rebuilt into the shadow tables once the temperature has moved by 0.5 °C since the last rebuild. -/
def shadowRebuild (e : Nat) (t : Int) (s : State) : State :=
  let g := s.eng e
  match g.shadow.orElse fun _ => g.act with
  | none => s
  | some c => if 128 ≤ (t - c.temp256).natAbs then s.putEng e { g with shadow := some (s.buildSet e t) } else s

/-! ## Commands -/

/-- CALIBRATE (R287): by register the arguments stand in SCB_ARG and SCB_START_AT. -/
def execCalibrate (src : CmdSrc) (a : CalArg) (s : State) : Out :=
  attempt (viaCmd src scbCmd 0x8C0000 0x20 (leBytes 8 a.arg.toNat ++ leBytes 8 a.startAt.toNat) fun path s => match src with
    | .reg _ => scbCalibrate path s.scbArg (s.get R.SCB_START_AT_START_AT) s
    | .od _ => scbCalibrate path a.arg.toNat a.startAt.toNat s) s

/-- ABORT (R290): by register the unit stands in SCB_ARG. -/
def execAbort (src : CmdSrc) (unit : Byte) (s : State) : Out :=
  .next (viaCmd src scbCmd 0x8C0000 0x21 (leBytes 1 unit.toNat) (fun _ s => scbAbortCmd (match src with
    | .reg _ => s.get R.SCB_ARG_UNIT
    | .od _ => unit.toNat) s) s)

/-- CALIBRATION_TAKEN (R289). -/
def execCalibrationTaken (s : State) : Out := attempt calibrationTaken s

/-- DRAIN_READY (R289). -/
def execDrainReady (s : State) : Out := attempt drainReady s

/-- DRAIN_TIMEOUT (R289). -/
def execDrainTimeout (s : State) : Out := .next (drainTimeout s)

/-- CALIBRATION_COMPLETE (R292). -/
def execCalibrationComplete (m : CalMeasure) (stored : Bool) (s : State) : Out := attempt (calibrationComplete m stored) s

/-- SHADOW_REBUILD (R298). -/
def execShadowRebuild (e : Sys2Proof.Eng) (temp256 : Int) (s : State) : Out := .next (shadowRebuild e.val temp256 s)

end Sys2Proof.Machine
end

