-- ==== Sys2Proof/Machine/Service.lean ====
section
/-!
DEFINITION. Engines taken out of service and back (R123, R126, R127, R119), and the engine self-test (R355).
-/

namespace Sys2Proof.Machine

/-- The engine's rows and its self-test share the register of PMX_CTL[e]. -/
def pmxCtlAddr (e : Nat) : Nat := 0x400000 + 0x100 * e

/-- A write of KW_EN and KW_DUTY (R123); the weir takes them at its next window boundary. -/
def keepWarm (e en duty : Nat) (s : State) : State := (s.set (R.PMX_CTL_KW_EN e) en).set (R.PMX_CTL_KW_DUTY e) duty

/-- The driver die of engine `e` stops (R127, R360). -/
def driverStop (e : Nat) (s : State) : State :=
  markEngineOut e 2 { s with deadDies := if s.deadDies.contains (24 + e) then s.deadDies else s.deadDies ++ [24 + e] }

/-- The die-to-die link of engine `e` is lost (Table 4.7): an engine fault, and the engine is OUT. -/
def ucieLost (e : Nat) (s : State) : State := engineFault e engOut s

/-! ## Self-test (R355) -/

/-- The result of a self-test as OD 2.0050 + e holds it. -/
def selftestCode : SelftestResult → Nat
  | .pass => 1
  | .fail row => 2 + 256 * row.toNat
  | .aborted => 3

/-- The self-test of engine `e` ends: its result is written and its permit is free. -/
def selftestClear (e code : Nat) (s : State) : State :=
  freePermits [permEng e] ((s.putEng e { s.eng e with selftest := none }).odSet 2 (0x50 + e) code)

/-- ENGINE_SELFTEST: the permit is claimed, and the engine goes out of service as SVC_OUT would take it. -/
def selftestStart (e path : Nat) (s : State) : CmdRes × State :=
  if 15 < e then (.code 4, s)
  else match firstHeld s [permEng e] with
  | some (r, h) => (.busy r h, s)
  | none =>
    let s := grant (holder path 6) [permEng e] s
    let s := s.putEng e { s.eng e with selftest := some path }
    (.ok, if (s.eng e).running then routeQueued e s else if s.engServing e then engEnter e engOut (routeQueued e s) else s)

/-- SELFTEST_COMPLETE: once no tile runs. On PASS the engine returns to its state before the test; on FAIL it stays OUT under SVC_OUT, and the
result is logged under a code that the spec does not state. -/
def selftestEnd (e : Nat) (res : SelftestResult) (s : State) : State :=
  if (s.eng e).selftest.isNone || (s.eng e).running then s
  else
    let s := selftestClear e (selftestCode res) s
    match res with
    | .fail _ =>
      let (c, s) := s.free
      logEvent 2 e (c % 65536) (leBytes 4 (selftestCode res)) (s.setBit (R.PMX_CTL_SVC_OUT e) true)
    | _ => if s.bit (R.PMX_CTL_SVC_OUT e) then s else engineReturn e s

/-! ## Commands -/

/-- SVC_OUT_WRITE (R126). -/
def execSvcOutWrite (r : Requester) (e : Sys2Proof.Eng) (val : BitVec 1) (s : State) : Out :=
  attempt (gated r (pmxCtlAddr e.val) (svcOut e.val (val == 1))) s

/-- KEEP_WARM_WRITE (R123). -/
def execKeepWarmWrite (r : Requester) (e : Sys2Proof.Eng) (en : BitVec 1) (duty : BitVec 3) (s : State) : Out :=
  .next (gated r (pmxCtlAddr e.val) (keepWarm e.val en.toNat duty.toNat) s)

/-- DRIVER_HEARTBEAT_STOP (R127). -/
def execDriverHeartbeatStop (e : Sys2Proof.Eng) (s : State) : Out := attempt (driverStop e.val) s

/-- UCIE_LINK_LOST (R119). -/
def execUcieLinkLost (e : Sys2Proof.Eng) (s : State) : Out := attempt (ucieLost e.val) s

/-- UCIE_RETRAIN_TIMEOUT (R119). -/
def execUcieRetrainTimeout (e : Sys2Proof.Eng) (s : State) : Out := attempt (markEngineOut e.val 1) s

/-- ENGINE_SELFTEST (R355). -/
def execEngineSelftest (p : MusynPath) (e : Byte) (s : State) : Out :=
  attempt (viaMusyn p 3 4 0x40 (leBytes 1 e.toNat) (selftestStart e.toNat)) s

/-- SELFTEST_COMPLETE (R355). -/
def execSelftestComplete (e : Sys2Proof.Eng) (res : SelftestResult) (s : State) : Out := attempt (selftestEnd e.val res) s

end Sys2Proof.Machine
end

