-- ==== Sys2Proof/Machine/Reset.lean ====
section
/-!
DEFINITION. Resets (spec 14_faults_reset_recovery.md, R361 to R368, R374 to R381; spec 13_host_and_musyn.md, R321; spec
16_power_thermal_interfaces.md, R407): triggers, what a compute reset clears, the fabric edge and the die reset of a package
reset, notices, the fabric control rings, and the resets of PCIe functions.
-/

namespace Sys2Proof.Machine

/-! ## Fabric control (R376 to R378) -/

/-- A fabric control transaction leaves for package `d`: class 2, CORE, FTAG, ISEQ, ADDR and ATTR zero (R377). -/
def sendControl (d op : Nat) (data : List Byte) (s : State) : State :=
  sendXact d (flowOf 0 0 d) (mkXact op 0 data.length 0 0 0 0 data) s

/-- A notice to the fabric manager (R376): with HUB_FM valid and naming another package. One without a usable route counts in TX_LOST. -/
def sendNotice (op : Nat) (data : List Byte) (s : State) : State :=
  let d := s.get R.HUB_FM_PKG
  if !s.bit R.HUB_FM_VALID || d == s.get R.LNK_GLOBAL_PKG then s
  else if (s.usablePorts d).isEmpty then s.incSat R.HUB_FCRX_STAT_TX_LOST
  else sendControl d op data s

/-- The 64 bytes of a receive ring record (R378). -/
def fcrxRecord (src op : Nat) (data : List Byte) (s : State) : List Byte :=
  leBytes 8 (op + 2 ^ 8 * (data.length % 64) + 2 ^ 16 * src) ++ leBytes 8 s.trace ++ leBytes 16 0 ++ padTo 32 data

/-- A fabric control transaction for this package arrives (R377, R378). -/
def fabricControl (src op : Nat) (data : List Byte) (s : State) : State :=
  if op < 0x20 ∨ 0x2F < op then s
  else if 0x22 < op then s.incSat R.HUB_FCRX_STAT_BAD
  else
    let t := s.get R.HUB_FCRX_STAT_TAIL
    if (t + 1) % 16 = s.get R.HUB_FCRX_HEAD_HEAD then s.incSat R.HUB_FCRX_STAT_DROPPED
    else
      let ws := leWords (fcrxRecord src op data s) 16
      let s := (List.range 16).foldl (fun s i => s.set (R.HUB_FCRX_BUF_WORD (16 * t + i)) (ws.getD i 0)) s
      let s := s.set R.HUB_FCRX_STAT_TAIL (t + 1)
      if s.bit R.HUB_FCRX_CFG_EN && !s.resetting then signalPeg 0 (s.get R.HUB_FCRX_CFG_PEG) s else s

/-- A write of HUB_FCRX_CFG with EN = `en` (R378): EN = 1 checks PEG against T0's allocation. -/
def fcrxPut (peg : Nat) (en : Bool) (s : State) : State :=
  if 65535 < peg then s.undef 1 else
  let bad := en && !pegOwned s 0 peg
  ((s.set R.HUB_FCRX_CFG_PEG peg).setBit R.HUB_FCRX_CFG_EN (en && !bad)).setBit R.HUB_FCRX_CFG_REFUSED bad

/-- HUB_FCTX_CMD. -/
def fctxCmd : CmdReg := { status := R.HUB_FCTX_CMD_STATUS, ignored := R.HUB_FCTX_CMD_IGNORED, busy := [1], refused := some 3 }

/-- SEND (R377): before boot step 9 has completed it is case 8 of Table 14.1. A message to this package goes to its own ring. -/
def fctxSend (s : State) : State :=
  let d := s.get R.HUB_FCTX_ARG_DST
  let n := s.get R.HUB_FCTX_ARG_SIZE
  let op := s.get R.HUB_FCTX_ARG_OP
  let refuse (why : Nat) : State := (s.set R.HUB_FCTX_CMD_STATUS 3).set R.HUB_FCTX_CMD_REASON why
  if !s.bootReached 10 then s.undef 8
  else if op ≠ 0x22 ∨ n = 0 ∨ 32 < n then refuse 2
  else
    let data := ((List.range 8).flatMap fun i => leBytes 4 (s.get (R.HUB_FCTX_DATA_WORD i))).take n
    let ok := s.set R.HUB_FCTX_CMD_STATUS 2
    if d = s.get R.LNK_GLOBAL_PKG then fabricControl d op data ok
    else if (s.usablePorts d).isEmpty then refuse 1
    else sendControl d op data ok

/-! ## Triggers -/

/-- HUB_RESET_STAT.CAUSE of a command (R381). -/
def resetCause : CmdSrc → Nat
  | .reg (.fn _) => 1
  | .reg (.hart _) => 5
  | .od (.mbx _ _) => 2
  | .od (.can _) => 3

/-- A reset of KIND `kind` is triggered (R362, R368, R376): its record, OPER_SECONDS, and RESET_NOTICE. `cap`: it captures. -/
def resetTrigger (kind cause : Nat) (cap : Bool) (s : State) : State :=
  let s := if cap then captureBegin s else s
  let s := (((s.set R.HUB_RESET_STAT_KIND kind).set R.HUB_RESET_STAT_CAUSE cause).set R.HUB_RESET_STAT_PHASE (if cap then 1 else 2)).set
    R.HUB_RESET_TIME_TRIGGER s.time64
  let s := operSave (logEvent 13 0xFF 0x0008 (leBytes 1 kind ++ leBytes 1 cause ++ leBytes 2 s.dumpSeq) s)
  sendNotice 0x20 (leBytes 1 kind ++ leBytes 1 cause ++ leBytes 2 s.dumpSeq ++ leBytes 4 0 ++ leBytes 8 s.time64) s

/-! ## Compute reset -/

/-- HUB_CRESET_CMD: BUSY, and OVERDUE while the reset goes on (R16). -/
def cresetCmd : CmdReg := { status := R.HUB_CRESET_CMD_STATUS, ignored := R.HUB_CRESET_CMD_IGNORED, busy := [1, 3], refused := none }

/-- COMPUTE_RESET (R362, R363): the dispatchers, engines and harts stop, and running ENGINE calibrations and self-tests end. A compute die
that has failed is reset with the others. While the package is not READY no compute die is in service, and nothing starts. -/
def computeTrigger (cause : Nat) (s : State) : State :=
  let s := s.set R.HUB_CRESET_CMD_STATUS 1
  let s := lifeInc 3 3 (s.incWrap R.HUB_RESET_CNT_CRESETS)
  let s := resetTrigger 1 cause true s
  let s := { s with deadDies := s.deadDies.map fun d => if d < 8 then 120 + d else d }
  let s := scbAbortRun (fun u => 32 ≤ u && u < 48) s
  (List.range 16).foldl (fun s e => if (s.eng e).selftest.isSome then selftestClear e 3 s else s) s

/-- COMPUTE_RESET as a command. -/
def computeReset (cause _path : Nat) (s : State) : CmdRes × State :=
  if s.get R.HUB_BOOT_STATE ≠ 1 ∨ s.packageResetting ∨ !s.powered ∨ s.tripped then (.refused 0, s) else (.ok, computeTrigger cause s)

/-- Destination package of the request that hart `h` waits for, with its request number. -/
def Hart.blocked (h : Hart) : List (Nat × Nat) :=
  match h.wait with
  | .gld req a _ _ _ => [(req, nfld a 48 16)]
  | .vgld req a _ _ _ _ => [(req, nfld a 48 16)]
  | .gamo req a _ _ => [(req, nfld a 48 16)]
  | _ => []

/-- Requests of the package's harts that a compute reset discards (R364). -/
def discarded (s : State) : List (Nat × Nat × Nat) :=
  s.harts.flatMap fun (c, h) => ((h.track ++ h.lost).map fun e => (c, e.seq, e.dst)) ++ h.blocked.map fun p => (c, p.1, p.2)

/-- Registers that a compute reset sets to their reset values (R128, R140, R165, R193, R194, R335), by address and lowest bit. -/
def computeCleared (a lo : Nat) : Bool :=
  let b := a % 0x10000000
  (decide (0x400000 ≤ a ∧ a < 0x401000) && decide (8 ≤ a % 0x100)) || decide (0x401030 ≤ a ∧ a < 0x401050) ||
  (decide (0x420000 ≤ a ∧ a < 0x460000) && (decide (0x14 ≤ a % 0x40) || (a % 0x40 == 0 && lo == 0))) ||
  a == 0x500014 || decide (0x500300 ≤ a ∧ a < 0x502000) || decide (0x600500 ≤ a ∧ a < 0x600580) ||
  decide (0x610000 ≤ a ∧ a < 0x650000) || (decide (0x600 ≤ b ∧ b < 0x640) && (lo == 20 || lo == 22 || lo == 23))

/-- Engine `e` after the reset of its digital state: it waits for the end of the reset in ACQUIRING, unless it is OFF, marked out, or
held by a calibration that runs on. Its rings and calibration sets stay. -/
def engineClear (e : Nat) (s : State) : State :=
  let st := s.engState e
  let g := s.eng e
  let held : Bool := match s.scbRun with
    | some r => r.engines.contains e
    | none => false
  let s := weirCold e ((s.putEng e { Eng.reset with act := g.act, shadow := g.shadow, drain := g.drain.map fun _ => [] }).set (R.PMX_STAT_QDEPTH e) 0)
  if st = engOff ∨ s.engMarked e ∨ (st = engCalibrating ∧ held = true) then s else engEnter e engAcquiring s

/-- The compute dies and the digital state of the engines are reset (R363, Table 14.4). -/
def computeClear (s : State) : State :=
  let s : State := { s with
    regs := s.regs.filter fun p => !computeCleared (p.1 / 64) (p.1 % 64)
    mem := s.mem.filter fun p => !inCoreStore p.1
    badWords := s.badWords.filter fun w => !inCoreStore (8 * w)
    stale := discarded s
    harts := []
    wprot := []
    upHeld := []
    timedWait := []
    queues := []
    fbq := []
    deadDies := s.deadDies.filter fun d => d < 120 }
  (List.range 16).foldl (fun s e => engineClear e s) s

/-- CORES of bay `n` in force after a release of its compute die (R138). -/
def coresInForce (n : Nat) (s : State) : State :=
  s.set (R.DSP_FBSTAT_ACTIVE n) (if s.bayIn n then min 32 (max 1 (s.get (R.DSP_FBCFG_CORES n))) else 0)

/-- COMPUTE_RESET_DONE (R362): the engines are IDLE with the weir cold, where their rings are locked; READY_NOTICE is sent. A compute die
that failed during the reset extends it (R39). -/
def computeDone (s : State) : State :=
  if !s.computeResetting || s.get R.HUB_RESET_STAT_PHASE == 1 || ((List.range 8).any fun n => s.bayIn n && s.deadDies.contains n) then s
  else
    let s := { (s.set R.HUB_RESET_STAT_PHASE 4).set R.HUB_CRESET_CMD_STATUS 2 with doneAt := s.time64 }
    let s := (List.range 8).foldl (fun s n => coresInForce n s) s
    let s := (List.range 16).foldl (fun s e =>
      if s.engState e = engAcquiring ∧ s.bit (R.PMX_STAT_LOCKED e) ∧ (s.eng e).act.isSome ∧ s.bayIn (e / 2) then engineSettle e s else s) s
    sendNotice 0x21 (leBytes 1 1 ++ leBytes 1 (s.get R.HUB_LEVEL_STAT_EFFECTIVE) ++ leBytes 2 s.dumpSeq ++
      leBytes 4 (s.get R.LNK_EPOCH_EPOCH) ++ leBytes 8 s.time64) s

/-- COMPUTE_RESET_OVERDUE (R366). -/
def computeOverdue (s : State) : State :=
  if s.computeResetting && s.get R.HUB_CRESET_CMD_STATUS == 1 then s.set R.HUB_CRESET_CMD_STATUS 3 else s

/-! ## Package reset -/

/-- HUB_PRESET_CMD. -/
def presetCmd : CmdReg := { status := R.HUB_PRESET_CMD_STATUS, ignored := R.HUB_PRESET_CMD_IGNORED, busy := [1], refused := none }

/-- A package reset is triggered (R367, R368). The dump of a compute reset that has reached RESETTING is kept. -/
def packageTrigger (cause : Nat) (s : State) : State :=
  if !s.powered || s.tripped || s.packageResetting then s
  else
    let keep := s.computeResetting && s.get R.HUB_RESET_STAT_PHASE != 1
    let s := lifeInc 3 2 (s.set R.HUB_PRESET_CMD_STATUS 1)
    { resetTrigger 2 cause (!keep) s with presetBusy := true }

/-- PACKAGE_RESET as a command. A tripped package does not take it (R415). -/
def packageReset (cause _path : Nat) (s : State) : CmdRes × State :=
  if s.powered && !s.tripped then (.ok, packageTrigger cause s) else (.refused 0, s)

/-- The fabric edge of a package reset (Table 14.5): lasers dark, every port DOWN, element drives released. -/
def fabricEdge (s : State) : State :=
  let s := (List.range 10).foldl (fun s j => if s.las j = lasFailed then s else lasEnter j lasOff 15 s) s
  let s := (List.range 32).foldl (fun s p => portFall p s) s
  { s with regs := s.regs.filter (fun p => !(decide (0x804000 * 64 ≤ p.1 ∧ p.1 < 0x808000 * 64) && p.1 % 64 == 0)), takeovers := [], lasTarget := [] }

/-- OD values that outlive a package reset: those in the configuration store (classes P, N and L). -/
def odLasting (k : Nat) : Bool :=
  let a := k / 65536
  let i := k % 65536
  a == 1 || (a == 3 && (i < 0x10 || 0x100 ≤ i)) || k == 2 * 65536 + 0x101

/-- The node number and the state of the CAN controller as it starts at a package reset or restarts (R344, R346). -/
def canStart (s : State) : State :=
  let n := s.odGet 1 1 0
  let node := if n = 0 then s.can.strap else n
  let on := s.feature 1 && node != 0 && s.refclk
  (s.set R.HUB_CAN_STAT_NODE node).set R.HUB_CAN_STAT_STATE (if on then 1 else 0)

/-- Slot `b` after a package reset: EMPTY where a staging was in progress (R394). -/
def State.slotKept (s : State) (b : Nat) : ImgSlot :=
  match s.fw with
  | some f => if f.slot = b then { s.imgSlot b with state := 0 } else s.imgSlot b
  | none => s.imgSlot b

/-- Every die but the always-on island is reset (R361): registers and state return to their reset values. What NVM, the always-on island
and the outside hold stays: among it the cause and summary of this reset, so that they can be read (log entry 29), the dump segments
(R371), and what has been sent. -/
def dieReset (s : State) : State :=
  let inDump (k : Nat) : Bool := inHbm k && decide (dumpBase ≤ k % (48 * gib))
  let t : State := { State.reset with
    mem := s.mem.filter fun p => inDump p.1
    poison := s.poison.filter fun b => inDump (b * 64)
    freeCnt := s.freeCnt
    trip := s.trip
    msix := s.msix
    aer := s.aer
    drs := s.drs
    wire := s.wire
    logBuf := s.logBuf
    logRecs := s.logRecs
    logSeq := s.logSeq
    od := s.od.filter fun p => odLasting p.1
    can := { State.reset.can with strap := s.can.strap }
    tileNo := s.tileNo
    nvmPts := s.nvmPts
    nvmMask := s.nvmMask
    nvmSmall := s.nvmSmall
    nvmInfo := s.nvmInfo
    ringAcq := s.ringAcq
    refclk := s.refclk
    perst := s.perst
    powered := s.powered
    tripped := s.tripped
    slotA := s.slotKept 0
    slotB := s.slotKept 1
    bootFirst := s.bootFirst
    ledger := s.ledger
    mountFails := s.mountFails
    cfgStore := s.cfgStore
    intents := s.intents
    sumNvm := s.sumNvm
    dumpSeq := s.dumpSeq
    dumpBays := s.dumpBays
    dumpSlot := s.dumpSlot
    pending := s.pending }
  let t := [R.HUB_RESET_STAT_KIND, R.HUB_RESET_STAT_CAUSE, R.HUB_RESET_STAT_DUMP, R.HUB_RESET_STAT_SUMMARY].foldl (fun t f => t.set f (s.get f)) t
  canStart (t.set R.LOG_STAT_PENDING s.logBuf.length)

/-- A package reset whose capture has ended and whose summary is written resets the dies (R374, Table 14.5). -/
def tryDieReset (s : State) : State :=
  if s.packageResetting && s.get R.HUB_RESET_STAT_PHASE == 2 && !s.presetBusy && s.sumWait.isNone then dieReset s else s

/-- CAPTURE_COMPLETE (R369): the dump is written; the compute dies are reset, or the package reset reaches the fabric edge. -/
def captureComplete (absent : Nat) (s : State) : State :=
  if s.computeResetting && s.get R.HUB_RESET_STAT_PHASE == 1 then computeClear ((capture absent s).set R.HUB_RESET_STAT_PHASE 2)
  else if s.packageResetting && s.presetBusy then
    let s := if s.get R.HUB_RESET_STAT_PHASE = 1 then (capture absent s).set R.HUB_RESET_STAT_PHASE 2 else s
    tryDieReset { fabricEdge s with presetBusy := false }
  else s

/-- SUMMARY_WRITTEN (R373, R374): `ok` false if an erase of the slot failed. -/
def summaryWritten (ok : Bool) (s : State) : State :=
  match s.sumWait with
  | none => s
  | some (slot, cells) =>
    let good := ok && !s.nvmDead
    let s := eraseEnd (sectorSummary slot) 4 good { s with sumWait := none }
    let s := if good then (sumPut slot cells s).set R.HUB_RESET_STAT_SUMMARY 1 else s
    tryDieReset s

/-! ## PCIe resets (R321) -/

/-- The configuration space, MSI-X state, mailbox and peg watches of function `f` are reset. -/
def fnReset (f : Nat) (s : State) : State :=
  let b := 0x10000000 * f
  let s := (((s.resetRegs (b + 0x600) (b + 0x640)).resetRegs (b + 0x1000) (b + 0x1300)).resetRegs (b + 0x8000) (b + 0x9004))
  { s with fnCfg := terase f s.fnCfg, latches := terase f s.latches }

/-- SR-IOV is disabled. -/
def noVfs (s : State) : State := { s with vfEnable := false, numVfs := 0 }

/-- Every function is reset, and the link is down. -/
def hotReset (s : State) : State := noVfs ((List.range 17).foldl (fun s f => fnReset f s) { s with pcieLink := none })

/-- PERST# is asserted: the host's functions are reset with the package. -/
def perstAssert (s : State) : State := packageTrigger 4 { hotReset s with perst := true }

/-! ## Power-on (R407) -/

/-- The input rises: PD0 powers up and samples NODE_ID. What was not in NVM is lost; the summary slot being written is left invalid. A
brown-out that went before is counted and logged; a brown-out has no die and no temperature to log, so those bytes are free. -/
def powerOn (node : Nat) (perst : Bool) (s : State) : State :=
  if s.powered then s
  else
    let brown := s.brownOut
    let lost := match s.sumWait with
      | some (slot, _) => s.sumNvm.filter fun p => p.1 / 262144 != slot
      | none => s.sumNvm
    let kept := (s.cfgStore.map fun r => (r.area, r.index)).eraseDups.filterMap fun k => (s.cfgNewest k.1 k.2).map fun v => (k.1 * 65536 + k.2, v)
    let s : State := { s with od := kept.foldl (fun t x => tput x.1 x.2 t) [], mem := [], poison := [], logBuf := [], sumNvm := lost, sumWait := none, dumpBays := 0,
                              powered := true, tripped := false, perst := perst, can := { s.can with strap := node } }
    let s := dieReset s
    let s := ((s.set R.HUB_RESET_STAT_CAUSE 0).set R.HUB_RESET_STAT_KIND 2).setBit R.HUB_RESET_STAT_DUMP false
    let s := lifeInc 3 0 { s with logSeq := s.logRecs.length }
    if brown then
      let (v, s) := (lifeInc 3 0x101 s).free
      logEvent 14 0xFF 0x0A00 (leBytes 1 3 ++ leBytes 4 v) s
    else s

/-! ## Commands -/

/-- PERST_ASSERT (R321). -/
def execPerstAssert (s : State) : Out := .next (perstAssert s)

/-- HOT_RESET (R321). -/
def execHotReset (s : State) : Out := .next (hotReset s)

/-- FLR_PF0 (R321): explicit permit claims through PF0 are released. -/
def execFlrPf0 (s : State) : Out := .next (releasePermits (· == holder 1 1) (noVfs (fnReset 0 s)))

/-- FLR_VF (R321). -/
def execFlrVf (n : Fin 16) (s : State) : Out := .next (fnReset (n.val + 1) s)

/-- COMPUTE_RESET (R362). -/
def execComputeReset (src : CmdSrc) (s : State) : Out :=
  .next (viaCmd src cresetCmd 0x700 1 (leBytes 1 1) (computeReset (resetCause src)) s)

/-- CAPTURE_COMPLETE (R369). -/
def execCaptureComplete (absent : BitVec 8) (s : State) : Out := .next (captureComplete absent.toNat s)

/-- COMPUTE_RESET_DONE (R362). -/
def execComputeResetDone (s : State) : Out := .next (computeDone s)

/-- COMPUTE_RESET_OVERDUE (R366). -/
def execComputeResetOverdue (s : State) : Out := .next (computeOverdue s)

/-- PACKAGE_RESET (R368). -/
def execPackageReset (src : CmdSrc) (s : State) : Out :=
  .next (viaCmd src presetCmd 0x704 0 (leBytes 1 1) (packageReset (resetCause src)) s)

/-- SUMMARY_WRITTEN (R374). -/
def execSummaryWritten (ok : Bool) (s : State) : Out := .next (summaryWritten ok s)

/-- SEND (R377). -/
def execSend (r : Requester) (s : State) : Out := attempt (gated r 0x828 (cmdWrite fctxCmd fctxSend)) s

/-- FABRIC_CONTROL_ARRIVAL (R378). -/
def execFabricControlArrival (env : Envelope) (op : Byte) (data : List Byte) (s : State) : Out :=
  attempt (fun s => if s.packageResetting then s else fabricControl env.src.toNat op.toNat data s) s

/-- FCRX_ENABLE (R378). -/
def execFcrxEnable (r : Requester) (peg : BitVec 20) (s : State) : Out := attempt (gated r 0x830 (fcrxPut peg.toNat true)) s

/-- POWER_ON (R407). -/
def execPowerOn (nodeId : BitVec 7) (perstAsserted : Bool) (s : State) : Out := .next (powerOn nodeId.toNat perstAsserted s)

end Sys2Proof.Machine
end

