-- ==== Sys2Proof/Machine/Dict.lean ====
section
/-!
DEFINITION. The object dictionary (spec 13_host_and_musyn.md, R336 to R341, Table 13.8; 15_boot_update_logbook.md, R387, R403; 16_power_
thermal_interfaces.md, R423): the entries, their values, and what a write of a setting does.
-/

namespace Sys2Proof.Machine

/-- Access codes of an entry as DESCRIBE returns them. -/
inductive OdAcc where
  | ro | rw | rwp | wo | cmd
  deriving DecidableEq, Repr

/-- An entry: type code (0 U8, 1 U16, 2 U32, 3 U64, 4 I16, 5 I32, 6 Q16.16, 7 TIME64, 8 STR32, 9 BLOB), access, class code where it has
one, size in bytes, default where one is stated, and unit in ASCII; `none`: the spec states no such bytes. -/
structure OdEnt where
  ty : Nat
  acc : OdAcc
  cls : Option Nat
  size : Nat
  dflt : Option Nat
  unit : Option (List Nat)
  deriving DecidableEq, Repr

/-- Sizes of the types. -/
def odSize (ty : Nat) : Nat := [1, 2, 4, 8, 2, 4, 4, 8, 32].getD ty 0

/-- Units. -/
def unitMs : List Nat := [0x6D, 0x73]
def unitGib : List Nat := [0x47, 0x69, 0x42]
def unitCount : List Nat := [0x63, 0x6F, 0x75, 0x6E, 0x74]
def unitS : List Nat := [0x73]
def unitFrames : List Nat := [0x66, 0x72, 0x61, 0x6D, 0x65, 0x73]

/-- A read-only entry of class `c`. -/
def odRo (ty c : Nat) (d : Option Nat) (u : List Nat := []) : OdEnt :=
  { ty := ty, acc := .ro, cls := some c, size := odSize ty, dflt := d, unit := some u }

/-- A setting: RWP, or RW of class V. -/
def odSetting (ty c d : Nat) (u : List Nat := []) : OdEnt :=
  { ty := ty, acc := if c = 0 then .rw else .rwp, cls := some c, size := odSize ty, dflt := some d, unit := some u }

/-- A BLOB that is read. -/
def odBlob (c size : Nat) : OdEnt := { ty := 9, acc := .ro, cls := some c, size := size, dflt := none, unit := some [] }

/-- A command entry; `size` is that of its argument. -/
def odCmd (ty size : Nat) : OdEnt := { ty := ty, acc := .cmd, cls := none, size := size, dflt := none, unit := some [] }

/-- "Poellan" and "HX100" as numbers, first character lowest. -/
def strVendor : Nat := 0x6E616C6C656F50
def strPart : Nat := 0x3030315848

/-- The entries of area 0 (Table 13.8). -/
def odArea0 : List (Nat × OdEnt) :=
  [(0, odRo 8 3 (some strVendor)), (1, odRo 8 3 (some strPart)), (2, odRo 0 3 (some 0xA1)), (3, odRo 0 3 (some 1)), (4, odRo 8 3 none),
   (5, odRo 2 0 none), (6, odRo 2 0 none), (7, odRo 2 3 (some 3)), (8, odRo 1 3 (some 0x100))]

/-- The settings of area 1. -/
def odArea1 : List (Nat × OdEnt) :=
  [(1, odSetting 0 1 0), (3, odSetting 1 1 1000 unitMs), (0x10, odSetting 0 1 0), (0x20, odSetting 0 2 0), (0x21, odSetting 0 2 0 unitGib),
   (0x30, odSetting 2 0 0), (0x31, odSetting 2 0 0), (0x40, odSetting 2 1 0xFFE), (0x50, odSetting 1 0 0)]

/-- The entries of area 2. -/
def odArea2 : List (Nat × OdEnt) :=
  ([0, 1, 2, 3, 4, 5, 0x10].map fun i => (i, odRo 2 0 none)) ++ [(0x20, odBlob 0 320), (0x30, odRo 2 0 none)] ++
    ((List.range 16).map fun e => (0x50 + e, odRo 2 0 (some 0))) ++ [(0x100, odRo 3 0 none), (0x101, odRo 2 4 (some 0xFFFFFFFF))] ++
    ((List.range 24).map fun d => (0x110 + d, odRo 2 0 none)) ++
    ((List.range 100).map fun i => (0x140 + i, { odRo 4 0 none with unit := none }))

/-- The counters of area 3. -/
def odArea3 : List (Nat × OdEnt) :=
  [(0, odRo 2 4 none unitCount), (1, odRo 2 4 none unitS), (2, odRo 2 4 none unitCount), (3, odRo 2 4 none unitCount),
   (0x10, odRo 2 0 (some 0) unitFrames), (0x11, odRo 2 0 (some 0) unitFrames), (0x12, odRo 2 0 (some 0) unitCount),
   (0x13, odRo 1 0 (some 0) unitCount), (0x14, odRo 1 0 (some 0) unitCount), (0x15, odRo 1 0 (some 0) unitCount),
   (0x20, odRo 2 0 (some 0) unitCount), (0x100, odRo 2 4 none unitCount), (0x101, odRo 2 4 none unitCount), (0x102, odRo 2 4 none unitCount)]

/-- The commands of area 4 (Tables 13.8, 15.9). -/
def odArea4 : List (Nat × OdEnt) :=
  [(0, odCmd 0 1), (1, odCmd 0 1), (0x10, odCmd 9 10), (0x11, odCmd 9 11), (0x20, odCmd 9 16), (0x21, odCmd 0 1), (0x30, odCmd 1 2),
   (0x31, odCmd 0 1), (0x40, odCmd 0 1), (0x50, odCmd 0 1), (0x51, odCmd 0 1), (0x60, odCmd 0 1), (0x70, odCmd 9 12), (0x71, odCmd 2 4),
   (0x72, odCmd 9 240), (0x73, odCmd 0 1), (0x74, odCmd 0 1), (0x75, odCmd 1 2), (0x76, odCmd 0 1), (0x80, odCmd 0 1), (0xF0, odCmd 9 8),
   (0xF1, odCmd 9 12)]

/-- The entries of areas 5 and 6; the size of LOG_RECORDS follows HEAD. -/
def odArea5 : List (Nat × OdEnt) := (List.range 74).map fun u => (u, odBlob 4 32)
def odArea6 : List (Nat × OdEnt) :=
  [(0, odRo 2 0 none), (1, odRo 2 0 none), (2, odRo 2 0 none), (0x10, odBlob 4 0), (0x20, odBlob 4 4096)]

/-- The entries of an area in index order. -/
def odArea : Nat → List (Nat × OdEnt)
  | 0 => odArea0
  | 1 => odArea1
  | 2 => odArea2
  | 3 => odArea3
  | 4 => odArea4
  | 5 => odArea5
  | 6 => odArea6
  | _ => []

/-- Entry `a`.`i`. -/
def odEntry (a i : Nat) : Option OdEnt := ((odArea a).find? fun x => x.1 == i).map Prod.snd

/-- The first entry after `a`.`i` (R341). -/
def odNext (a i : Nat) : Option (Nat × Nat) :=
  ((List.range 7).flatMap fun b => (odArea b).filterMap fun x => if a < b ∨ a = b ∧ i < x.1 then some (b, x.1) else none).head?

/-! ## Values -/

/-- HEAD of the Logbook. -/
def State.logHead (s : State) : Nat := s.get R.LOG_HEAD_HEAD

/-- Complement of a mask of `w` bits. -/
def inv (w n : Nat) : Nat := 2 ^ w - 1 - n % 2 ^ w

/-- The 10 bytes of a set of unit masks, true or complemented. -/
def maskBytes (f : Nat → Nat → Nat) (m : UnitMasks) : List Byte :=
  leBytes 1 (f 8 m.bay) ++ leBytes 1 (f 8 m.pair) ++ leBytes 2 (f 16 m.eng) ++ leBytes 4 (f 32 m.port) ++ leBytes 2 (f 16 m.laser)

/-- The 64 bytes of a ledger record (Table 15.4). -/
def ledgerBytes (r : LedgerRec) : List Byte :=
  let b := leBytes 4 r.seq ++ leBytes 4 r.cycles ++ leBytes 1 r.attempt ++ leBytes 1 r.mode ++ leBytes 2 0xFFFF ++
    maskBytes (fun _ n => n) r.out ++ leBytes 2 0xFFFF
  b ++ leBytes 4 (crc32c b) ++ leBytes 1 ([0xFF, 0x0A, 0x0B].getD r.slot 0xFF) ++ leBytes 1 (if r.halt = 0 then 0xFF else r.halt) ++
    leBytes 6 r.steps ++ maskBytes inv r.failed ++ leBytes 2 0xFFFF ++ maskBytes inv r.retry ++ List.replicate 6 0xFF

/-- OD 6.0020: the last 64 records, newest first; a slot of the ring not yet written reads as erased. -/
def State.ledgerBlob (s : State) : List Byte :=
  let b := (s.ledger.take 64).flatMap ledgerBytes
  b ++ List.replicate (4096 - b.length) 0xFF

/-- The image whose firmware runs: from boot step 4 on, the slot of HUB_BOOT. -/
def State.running (s : State) : Bool := s.bootReached 4

/-- Value of a setting of area 1 (R337): three mirror registers. -/
def State.setting (s : State) (i : Nat) : Nat :=
  if i = 0x30 then s.get R.LNK_GLOBAL_PKG
  else if i = 0x31 then s.get R.LNK_EPOCH_EPOCH
  else if i = 0x50 then s.get R.DSP_REPRO_TENANT_MASK
  else s.odGet 1 i (((odEntry 1 i).bind OdEnt.dflt).getD 0)

/-- Value of entry `a`.`i` as bytes, but for LOG_RECORDS. -/
def odValue (a i : Nat) (e : OdEnt) (s : State) : List Byte :=
  let other := 1 - s.get R.HUB_BOOT_SLOT
  let n : Nat :=
    if a = 0 then
      if i = 4 then Config.serial
      else if i = 5 then (if s.running then (s.imgSlot (s.get R.HUB_BOOT_SLOT)).version else 0)
      else if i = 6 then (let x := s.imgSlot other; if x.state = 1 ∨ x.state = 2 then x.version else 0)
      else if i = 8 ∧ s.running then s.odVersion else e.dflt.getD 0
    else if a = 1 then s.setting i
    else if a = 2 then
      if i = 0 then s.wordAt 0x100
      else if i ≤ 5 then s.wordAt (0x200 + 4 * (i - 1))
      else if i = 0x10 then s.wordAt 0x300
      else if i = 0x30 then s.wordAt 0x308
      else if 0x140 ≤ i then s.get (R.PWR_TEMP_TEMP (i - 0x140))
      else if 0x110 ≤ i then s.wordAt (0x980200 + 4 * (i - 0x110))
      else s.odGet 2 i (e.dflt.getD 0)
    else if a = 3 then s.odGet 3 i 0
    else if a = 6 then s.wordAt (0x940000 + 4 * i) else 0
  if a = 2 ∧ i = 0x20 then s.wordsAt 0x400 80
  else if a = 2 ∧ i = 0x100 then s.wordsAt 0x980300 2
  else if a = 5 then s.wordsAt (0x8C0100 + 0x20 * i) 8
  else if a = 6 ∧ i = 0x20 then s.ledgerBlob
  else leBytes e.size n

/-- TOTAL: size of the value of an entry. -/
def odTotal (a i : Nat) (e : OdEnt) (s : State) : Nat := if a = 6 ∧ i = 0x10 then s.logHead * 64 else e.size

/-- Record `i` of the Logbook as NVM shows it: zeros at or beyond HEAD. -/
def State.logRecord (s : State) (i : Nat) : List Byte :=
  if i < s.logHead then (match s.logRecs[i]? with
    | some r => logBytes r
    | none => List.replicate 64 0) else List.replicate 64 0

/-- `len` bytes of entry `a`.`i` from byte `off` on. -/
def odRead (a i : Nat) (e : OdEnt) (off len : Nat) (s : State) : List Byte :=
  if a = 6 ∧ i = 0x10 then (List.range (len / 64)).flatMap fun k => s.logRecord (off / 64 + k)
  else ((odValue a i e s).drop off).take len

/-! ## Settings -/

/-- The settings that persist (RWP). -/
def rwpIndices : List Nat := (odArea1.filter fun x => x.2.acc == .rwp).map Prod.fst

/-- A setting takes the value `v` in force; ALERT_EN is also HUB_ALERT_EN (R334, R337). -/
def settingForce (i v : Nat) (s : State) : State :=
  let s := s.odSet 1 i v
  if i = 0x40 then s.set R.HUB_ALERT_EN_EN v else s

/-- A write of setting `i` (R336): a mirror follows its register's rules, a persisting one reaches both copies first. Its status. -/
def settingWrite (i v : Nat) (s : State) : Nat × State :=
  if i = 0x30 then (0, pkgChecked v s)
  else if i = 0x31 then (0, setEpoch v s)
  else if i = 0x50 then (0, s.set R.DSP_REPRO_TENANT_MASK v)
  else if i = 1 ∧ 127 < v then (4, s)
  else if i = 0x40 ∧ 0xFFF < v then (0, s.undef 1)
  else
    let (ok, s) := persist 1 i v s
    if ok then (0, settingForce i v s) else (7, s)

end Sys2Proof.Machine
end

