-- ==== Sys2Proof/Machine/Boot.lean ====
section
/-!
DEFINITION. The boot (spec 15_boot_update_logbook.md, R384 to R393, R397; 14_faults_reset_recovery.md, R368, Table 14.5; 11_scribe_
calibration.md, R297; 01_package_architecture.md, R26 to R30, R40). A boot runs its steps in one command; what the dies do at each step
is the BootEnv of the command. It stops at a step that hangs, that fails, or that waits for LINK_REFCLK.
-/

namespace Sys2Proof.Machine

/-! ## The record of this boot (R387) -/

/-- The ledger record of this boot is programmed further. -/
def ledgerPut (f : LedgerRec → LedgerRec) (s : State) : State :=
  match s.ledger with
  | [] => s
  | r :: rest => { s with ledger := f r :: rest }

/-- Step outcomes. -/
def stStarted : Nat := 0xE
def stOk : Nat := 0xC
def stUnitsOut : Nat := 0xA
def stAlt : Nat := 0x6
def stFailed : Nat := 0x2

/-- Nibble of step `k` in a STEPS value. -/
def stepNib (w k : Nat) : Nat := nfld w (4 * (k - 1)) 4

/-- Step `k` has outcome `v` (Table 15.4): HUB_BOOT_STEPS, and, once it is programmed at step 2, the ledger record. -/
def stepMark (k v : Nat) (s : State) : State :=
  let put (w : Nat) : Nat := w - stepNib w k * 16 ^ (k - 1) + v * 16 ^ (k - 1)
  let s := s.set R.HUB_BOOT_STEPS_STEPS (put (s.get R.HUB_BOOT_STEPS_STEPS))
  if 3 ≤ k ∨ k = 2 ∧ v = stOk then ledgerPut (fun r => { r with steps := put r.steps }) s else s

/-- Masks without those of another set, together with them, and common to both. -/
def UnitMasks.zip (f : Nat → Nat → Nat) (a b : UnitMasks) : UnitMasks :=
  { bay := f a.bay b.bay, pair := f a.pair b.pair, eng := f a.eng b.eng, port := f a.port b.port, laser := f a.laser b.laser }

/-- `a` without the bits of `b`. -/
def without (a b : Nat) : Nat := a - (a &&& b)

/-- No unit. -/
def UnitMasks.none : UnitMasks := { bay := 0, pair := 0, eng := 0, port := 0, laser := 0 }

/-- Kinds of unit as LEDGER_RETRY numbers them: the mask of one unit. -/
def UnitMasks.one (kind i : Nat) : UnitMasks :=
  { bay := if kind = 0 then 2 ^ i else 0, pair := if kind = 1 then 2 ^ i else 0, eng := if kind = 2 then 2 ^ i else 0,
    port := if kind = 3 then 2 ^ i else 0, laser := if kind = 4 then 2 ^ i else 0 }

/-- The units kept out of this boot (R386): those kept out of the last or failed at the same step in both of the two last, but for a retry. A
bay or an engine fails at step 10 or at an earlier one. -/
def keptOut (l : List LedgerRec) : UnitMasks :=
  match l with
  | [] => UnitMasks.none
  | p :: r =>
    let twice := match r with
      | [] => UnitMasks.none
      | q :: _ => UnitMasks.zip without (UnitMasks.zip (· &&& ·) p.failed q.failed) (UnitMasks.zip (· ^^^ ·) p.failed10 q.failed10)
    UnitMasks.zip without (UnitMasks.zip (· ||| ·) p.out twice) p.retry

/-- The masks kept out and failed so far in this boot. -/
def State.bootOut (s : State) : UnitMasks := ((s.ledger.head?).map LedgerRec.out).getD UnitMasks.none
def State.bootFailed (s : State) : UnitMasks := ((s.ledger.head?).map LedgerRec.failed).getD UnitMasks.none

/-- Unit `i` of a kind is out at step `k`, failed or kept out (Table 15.8; R386). -/
def unitOut (k kind i : Nat) (kept : Bool) (s : State) : State :=
  let b := leBytes 1 k ++ leBytes 1 kind ++ leBytes 1 i ++ leBytes 1 (if kept then 2 else 1)
  if kept then logAlert alertBootSkip 0 0xFF 0x0003 b s
  else
    let m := UnitMasks.one kind i
    ledgerPut (fun r => { r with
      failed := UnitMasks.zip (· ||| ·) r.failed m
      failed10 := if k = 10 then UnitMasks.zip (· ||| ·) r.failed10 m else r.failed10 }) (logEvent 0 0xFF 0x0003 b s)

/-- Units of a kind that are kept out, and then those of the rest that fail, are out at step `k`. -/
def unitsOut (k kind n kept failed : Nat) (s : State) : State :=
  (List.range n).foldl (fun s i =>
    if nbit kept i then unitOut k kind i true s else if nbit failed i then unitOut k kind i false s else s) s

/-- The outcome of a per-unit step. -/
def perUnit (out : Nat) : Nat := if out = 0 then stOk else stUnitsOut

/-! ## Halts and failed steps -/

/-- The boot halts (R388): before step 4 the boot ROM brings up PF0 and its DRS. -/
def bootHalt (code : Nat) (s : State) : State :=
  let k := s.get R.HUB_BOOT_STEP
  let s := (s.set R.HUB_BOOT_STATE 2).set R.HUB_BOOT_HALT code
  let s := logEvent 0 0xFF 0x0002 (leBytes 1 code ++ leBytes 1 k) s
  let s := if code = 1 then s else ledgerPut (fun r => { r with halt := code }) s
  if k < 4 then { s with drs := s.drs + 1 } else s

/-- Slot `b` is a candidate of step 3 (R392). -/
def State.candidate (s : State) (b : Nat) : Bool := let x := s.imgSlot b; x.state == 1 || x.state == 2

/-- Slot `b` is set to ABANDONED. -/
def abandon (b : Nat) (s : State) : State := putSlot b { s.imgSlot b with state := 3 } s

/-- Required step `k` from 3 on has failed (R386, R393): the first time the boot starts again with BOOT_RESTART; when the record before
this one shows the step failed too, its slot is abandoned if both booted it, and the package takes the other slot or halts. -/
def requiredFailed (k halt : Nat) (s : State) : State :=
  let s := stepMark k stFailed s
  match s.ledger with
  | r :: p :: _ =>
    let n := stepNib p.steps k
    if n = stFailed ∨ n = stStarted then
      let b := s.get R.HUB_BOOT_SLOT
      let s := if 4 ≤ k ∧ r.slot = p.slot then abandon b s else s
      if k = 4 ∧ s.candidate (1 - b) then stepMark k stAlt s else bootHalt halt s
    else s
  | _ => s

/-- A mount fails (R385): on two consecutive boots the package halts. -/
def mountFailed (s : State) : State :=
  let s := { stepMark 2 stFailed s with mountFails := s.mountFails + 1 }
  if 2 ≤ s.mountFails then bootHalt 1 s else s

/-! ## Steps 1 to 4 -/

/-- Step `k` begins. -/
def stepBegin (k : Nat) (s : State) : State := stepMark k stStarted (s.set R.HUB_BOOT_STEP k)

/-- Records are numbered from 0 (R399). -/
def logRenumber (l : List LogRec) : List LogRec := (List.range l.length).zipWith (fun i r => { r with seq := i }) l

/-- Step 2: the NVM is mounted and the journal repaired (R384): every sector with an INTENT entry is erased again. An interrupted clear of the
Logbook is completed (R400). -/
def bootMount (s : State) : State :=
  let n := s.intents.length
  let s := if s.intents.contains sectorLog then { s with logRecs := [], logBuf := logRenumber s.logBuf, logSeq := s.logBuf.length } else s
  let s := { (s.incSat R.HUB_NVM_STAT_REPAIRED n).incWrap R.HUB_NVM_STAT_ERASES n with intents := [], mountFails := 0 }
  let s := showSlots (s.set R.LOG_HEAD_HEAD s.logRecs.length)
  if s.logRecs.length = logCapacity then logFull 0 s else s

/-- The ledger record of this boot is programmed (R387). -/
def ledgerNew (s : State) : State :=
  let r : LedgerRec :=
    { seq := (((s.ledger.head?).map LedgerRec.seq).getD 0 + 1) % 2 ^ 32, cycles := s.odGet 3 0 0, attempt := s.get R.HUB_BOOT_ATTEMPT,
      mode := s.get R.HUB_BOOT_MODE, out := keptOut s.ledger, slot := 0, halt := 0,
      steps := 0xF00000000000 + s.get R.HUB_BOOT_STEPS_STEPS, failed := UnitMasks.none, failed10 := UnitMasks.none,
      retry := UnitMasks.none }
  { s with ledger := (r :: s.ledger).take 32768 }

/-- Step 2. -/
def bootStep2 (b : BootEnv) (s : State) : Bool × State :=
  if b.nvmFail || s.nvmDead then (false, mountFailed s)
  else
    let s := stepMark 2 stOk (ledgerNew (bootMount s))
    if s.get R.HUB_BOOT_MODE = 3 then (false, bootHalt 7 s) else (true, s)

/-- The slots that step 3 tries, in order (R389, R392). A first choice by BOOT_MODE ignores ABANDONED. -/
def State.slotOrder (s : State) : List Nat :=
  let m := s.get R.HUB_BOOT_MODE
  let forced : Option Nat := if m = 1 then some 0 else if m = 2 then some 1 else none
  let first := s.nextSlot
  [first, 1 - first].filter fun b => s.candidate b || (forced == some b && (s.imgSlot b).state == 3)

/-- Slot `b` does not authenticate (R393). -/
def authFailed (b : Nat) (s : State) : State :=
  logEvent 0 0xFF 0x0004 (leBytes 1 b ++ leBytes 4 (s.imgSlot b).version) (abandon b s)

/-- Slot `b` authenticates and runs. -/
def slotRuns (b : Nat) (s : State) : State := ledgerPut (fun r => { r with slot := b + 1 }) (s.set R.HUB_BOOT_SLOT b)

/-- Step 3. -/
def bootStep3 (b : BootEnv) (s : State) : Bool × State :=
  let fails (k : Nat) : Bool := if k = 0 then b.authFailA else b.authFailB
  let order := s.slotOrder
  let s := showSlots { s with bootFirst := none }
  match order with
  | [] => (false, bootHalt 2 (stepMark 3 stFailed s))
  | x :: r =>
    if !fails x then (true, stepMark 3 stOk (slotRuns x s))
    else match r with
      | [] => (false, bootHalt 2 (stepMark 3 stFailed (authFailed x s)))
      | y :: _ =>
        let s := authFailed x s
        if fails y then (false, bootHalt 2 (stepMark 3 stFailed (authFailed y s)))
        else (true, stepMark 3 stAlt (slotRuns y s))

/-! ### The configuration store at step 4 (R396, R397) -/

/-- The newest record of setting `i` written at an OD_VERSION no higher than `ver`. -/
def State.cfgUpTo (s : State) (i ver : Nat) : Option Nat :=
  (s.cfgStore.reverse.find? fun r => r.area == 1 && r.index == i && decide (r.ver ≤ ver)).map CfgRec.value

/-- The settings after a mount: the case of HUB_BOOT.CFG, and the value of each persisted setting where it is not the default. -/
def cfgMount (s : State) : Nat × List (Nat × Option Nat) :=
  let ver := s.odVersion
  let newest (i : Nat) : Option Nat := s.cfgNewest 1 i
  match s.cfgStore.getLast? with
  | none => (0, rwpIndices.map fun i => (i, none))
  | some r =>
    let old := r.ver
    if old = ver then (0, rwpIndices.map fun i => (i, newest i))
    else if ver < old then (3, rwpIndices.map fun i => (i, s.cfgUpTo i ver))
    else if newest 0x10 = some 1 ∨ old < (s.imgSlot (s.get R.HUB_BOOT_SLOT)).migrateFrom then
      (2, rwpIndices.map fun i => (i, if i = 1 ∨ i = 0x10 then newest i else none))
    else (1, rwpIndices.map fun i => (i, (newest i).bind (Config.migrate old ver i)))

/-- The settings are in force; after a migration they are written as new records at the image's version, and it is logged. -/
def cfgApply (s : State) : State :=
  let (case, vals) := cfgMount s
  let ver := s.odVersion
  let old := ((s.cfgStore.getLast?).map CfgRec.ver).getD ver
  let s := vals.foldl (fun (s : State) (x : Nat × Option Nat) =>
    let v := x.2.getD (((odEntry 1 x.1).bind OdEnt.dflt).getD 0)
    let s := if case = 0 ∨ s.nvmDead then s else cfgPut 1 x.1 v s
    settingForce x.1 v s) s
  let s := s.set R.HUB_BOOT_CFG case
  if case = 0 then s
  else
    let kept := (vals.filter fun x => x.2.isSome).length
    logEvent 0 0xFF 0x0005 (leBytes 1 case ++ leBytes 2 old ++ leBytes 2 ver ++ leBytes 2 kept ++ leBytes 2 (vals.length - kept)) s

/-- Step 4: the hub firmware runs, the settings are in force, DRS is sent. -/
def bootStep4 (b : BootEnv) (s : State) : Bool × State :=
  if b.hubFail then (false, requiredFailed 4 3 s)
  else
    let s := cfgApply s
    (true, stepMark 4 stOk { s with drs := s.drs + 1 })

/-! ## Step 5: bays and HBM -/

/-- The stacks of `bays` make up the HBM range (R28, R143): HUB_DUMP names their segments, and MEM_HBMCFG the range. -/
def hbmConfig (bays : List Nat) (s : State) : State :=
  let bl := min 48 (s.setting 0x21)
  let k := bays.length
  let s := { s with hbmBays := bays }
  let s := ((s.set R.MEM_HBMCFG_BL_GIB bl).set R.MEM_HBMCFG_K k).set R.MEM_HBMCFG_TOTAL_GIB (48 * k)
  let held := bitsNat ((List.range 8).map fun n => nbit s.dumpBays n && bays.contains n)
  let s := ((s.set R.HUB_DUMP_SEQ s.dumpSeq).set R.HUB_DUMP_BAYS held).set R.HUB_DUMP_SUMSLOT s.dumpSlot
  let s := s.setBit R.HUB_DUMP_VALID (held != 0)
  (List.range 8).foldl (fun s n => s.set (R.HUB_DUMP_SEG_ADDR n) (if bays.contains n then dumpSeg bays bl n else 0)) s

/-- The dump segments of stacks that are not in service are not kept (R371). -/
def dumpKept (bays : List Nat) (s : State) : State :=
  let gone (k : Nat) : Bool := inHbm k && !bays.contains (k / (48 * gib))
  { s with mem := s.mem.filter fun p => !gone p.1, poison := s.poison.filter fun b => !gone (b * 64) }

/-- The compute power domain of a retired bay is off (R30). -/
def bayPower (n : Nat) (s : State) : State := s.set (R.PWR_DOM_STATE (3 + n)) 0

/-- Bays that are in no mask. -/
def baysIn (out : Nat) : List Nat := (List.range 8).filter fun n => !nbit out n

/-- Step 5 (R27, R30, R143): no bay left halts with NO_BAY. -/
def bootStep5 (b : BootEnv) (s : State) : Bool × State :=
  let cfg := s.setting 0x20
  let kept := without s.bootOut.bay cfg
  let fail := without b.hbmFail.toNat cfg
  let s := unitsOut 5 0 8 kept fail s
  let out := cfg ||| kept ||| fail
  let bays := baysIn out
  let s := stepMark 5 (perUnit (kept ||| fail)) s
  let s := (List.range 8).foldl (fun s n => if nbit out n then bayPower n s else s) s
  if bays.isEmpty then (false, bootHalt 4 s) else (true, hbmConfig bays (dumpKept bays s))

/-! ## Steps 6 to 8: light, rings, calibration -/

/-- A laser serves feed `f`. -/
def State.feedServed (s : State) (f : Nat) : Bool := (List.range 10).any fun j => s.las j == lasLit && s.get (R.LAS_STAT_SERVES j) == f

/-- Laser `j` at boot (R259): failed, or lit on its own feed; a spare is warm. -/
def laserBoot (bad : Nat) (j : Nat) (s : State) : State :=
  if nbit bad j then lasEnter j lasFailed 15 s else if j < 8 then lasEnter j lasLit j s else lasEnter j lasWarm 15 s

/-- The spare of bank `b` serves the first failed laser of the bank. -/
def spareBoot (bad b : Nat) (s : State) : State :=
  match (List.range 4).find? fun i => nbit bad (4 * b + i) with
  | some i => if nbit bad (8 + b) then s else lasEnter (8 + b) lasLit (4 * b + i) (s.incWrap R.LAS_CNT_TAKEOVERS)
  | none => s

/-- Step 6 (R259, R297): a bank without a lit laser halts with NO_LASER. -/
def bootStep6 (b : BootEnv) (s : State) : Bool × State :=
  let kept := s.bootOut.laser
  let noGrid := bitsNat ((List.range 10).map fun j => b.calMissing.contains (unitLaser j) && !b.refOk)
  let fail := without (b.laserFail.toNat ||| noGrid) kept
  let s := unitsOut 6 4 10 kept fail s
  let bad := kept ||| fail
  let s := (List.range 10).foldl (fun s j => laserBoot bad j s) s
  let s := if bad = 0 then s else setAlert alertLaser s
  let s := stepMark 6 (perUnit bad) (spareBoot bad 1 (spareBoot bad 0 s))
  let dark (bank : Nat) : Bool := !((List.range 4).any fun i => s.feedServed (4 * bank + i))
  if dark 0 || dark 1 then (false, bootHalt 5 s) else (true, s)

/-- Engines that step 7 leaves out: kept out, with a ring that fails, or without light. -/
def engBoot (out : Nat) (e : Nat) (s : State) : State :=
  if nbit out e || !s.feedServed (e / 2) then s else acquireUser (32 + e) (engEnter e engAcquiring s)

/-- Step 7 (R266, R275, R277): the rings of every engine and port are acquired. -/
def bootStep7 (b : BootEnv) (s : State) : Bool × State :=
  if b.controlFail || s.deadDies.contains dieControl then (false, requiredFailed 7 6 s)
  else
    let kept := s.bootOut.eng
    let fail := without b.ringFail.toNat kept
    let s := unitsOut 7 2 16 kept fail s
    let s := (List.range 16).foldl (fun s e => engBoot (kept ||| fail) e s) s
    let s := (List.range 32).foldl (fun s p => if s.feedServed (p / 4) then acquireUser p s else s) s
    (true, stepMark 7 (perUnit (kept ||| fail)) s)

/-- The table of unit `u` as NVM has it (R301), or MISSING (R297). -/
def calUnit (missing : List Nat) (u : Nat) (s : State) : State :=
  let s := if missing.contains u then s.setBit (R.SCB_UNIT_MISSING u) true
    else match s.nvmInfo.find? fun x => x.1 == u with
    | some (_, count, last, tcal) =>
      ((s.set (R.SCB_UNIT_COUNT u) count).set (R.SCB_UNIT_LAST u) last).set (R.SCB_UNIT_TCAL u) tcal
    | none => s
  if 32 ≤ u ∧ u < 48 then s.set (R.SCB_UNIT_POINTS u) (s.calMaskOf (u - 32)) else s

/-- The calibration set of engine `e` is built at its die's temperature (R298). -/
def calEngineBoot (e : Nat) (s : State) : State :=
  let s := s.putEng e { s.eng e with act := if s.calMaskOf e = 0 then none else some (s.buildSet e (s.dieTemp (24 + e))) }
  s.setBit (R.PMX_STAT_CAL_VALID e) (s.calMaskOf e != 0)

/-- Step 8. -/
def bootStep8 (b : BootEnv) (s : State) : Bool × State :=
  let mask := b.calMissing.foldl (fun m u => if 32 ≤ u ∧ u < 48 then tput (u - 32) 0 m else m) s.nvmMask
  let s := { s with calPts := s.nvmPts, calMask := mask, calSmall := s.nvmSmall }
  let s := (List.range 74).foldl (fun s u => calUnit b.calMissing u s) s
  let s := (List.range 16).foldl (fun s e => calEngineBoot e s) (s.setBit R.SCB_STAT_REF_OK b.refOk)
  (true, stepMark 8 stOk s)

/-! ## Steps 9 to 11 -/

/-- Headgates at boot (R248). -/
def gatesBoot (a b : Bool) (s : State) : State :=
  let code (ok : Bool) : Nat := if ok then 0 else 2
  if a then takeLease 0 (s.set (hdgFld 1) (code b)) else takeLease 1 (s.set (hdgFld 0) 2)

/-- Step 9: link die pairs and ports that fail are OUT; the boot map, which is what SLC_COMMIT resets to, is driven (R234). -/
def bootStep9 (b : BootEnv) (s : State) : Bool × State :=
  let keptPair := s.bootOut.pair
  let failPair := without b.pairFail.toNat keptPair
  let keptPort := s.bootOut.port
  let failPort := without b.portFail.toNat keptPort
  let s := unitsOut 9 3 32 keptPort failPort (unitsOut 9 1 8 keptPair failPair s)
  let s := (List.range 8).foldl (fun s k => if nbit (keptPair ||| failPair) k then pairOut k s else s) s
  let s := (List.range 32).foldl (fun s p => if nbit (keptPort ||| failPort) p then portOut p s else s) s
  let s := driveAll (gatesBoot b.gateSelfTestA b.gateSelfTestB s)
  (true, stepMark 9 (perUnit (keptPair ||| failPair ||| keptPort ||| failPort)) s)

/-- Engine `e` at boot step 10: its bay is out, it is marked out for boot or for want of light, or it returns from ACQUIRING. -/
def engRelease (bays : List Nat) (out : Nat) (e : Nat) (s : State) : State :=
  if !bays.contains (e / 2) then
    setAlert alertEngineOut (engEnter e engOut (s.set R.HUB_ENG_MAP_ENG_OUT (nput (s.get R.HUB_ENG_MAP_ENG_OUT) e true)))
  else if nbit out e then markEngineOut e 5 s
  else if !s.feedServed (e / 2) then markEngineOut e 4 s
  else if (s.eng e).act.isSome then engineSettle e s else s

/-- Step 10 (R40): the compute dies are released, and the unit maps are set. A bay that fails here leaves the HBM range (log entry 30). -/
def bootStep10 (b : BootEnv) (s : State) : Bool × State :=
  let cfg := s.setting 0x20
  let fail := bitsNat ((List.range 8).map fun n => s.hbmBays.contains n && nbit b.bayFail.toNat n)
  let bays := s.hbmBays.filter fun n => !nbit fail n
  let engOutNow := s.bootOut.eng ||| s.bootFailed.eng
  let failEng := without b.ucieFail.toNat (engOutNow ||| bitsNat ((List.range 16).map fun e => !bays.contains (e / 2)))
  let s := unitsOut 10 2 16 0 failEng (unitsOut 10 0 8 0 fail s)
  let s := stepMark 10 (perUnit (fail ||| failEng)) s
  let s := (List.range 8).foldl (fun s n => if nbit fail n then bayPower n s else s) s
  if bays.isEmpty then (false, bootHalt 4 s)
  else
    let s := if fail = 0 then s else hbmConfig bays (dumpKept bays s)
    let ledgerBays := without (s.bootOut.bay ||| s.bootFailed.bay) cfg
    let s := ((s.set R.HUB_BAY_MAP_BAY_IN_SERVICE (bitsNat ((List.range 8).map bays.contains))).set R.HUB_BAY_MAP_BAY_OUT_LEDGER
      ledgerBays).set R.HUB_BAY_MAP_BAY_OUT_CONFIG cfg
    let s := s.set R.HUB_PORT_MAP_PORT_PRESENT (bitsNat ((List.range 32).map fun p => s.ptState p != ptOut))
    let s := s.set R.HUB_PLANE_MAP_PLANE_IN_SERVICE
      (bitsNat ((List.range 16).map fun m => !nbit s.pairsOut (m / 2) && !s.bit (R.SCB_UNIT_MISSING (unitPlane m))))
    let s := (List.range 16).foldl (fun s e => engRelease bays (engOutNow ||| failEng) e s) s
    (true, (List.range 8).foldl (fun s n => coresInForce n s) s)

/-- Step 11: READY (R391: the slot is BOOTED at its first). -/
def bootStep11 (s : State) : State :=
  let b := s.get R.HUB_BOOT_SLOT
  let x := s.imgSlot b
  let s := if x.state = 1 then putSlot b { x with state := 2 } s else s
  let s := stepMark 11 stOk ((s.set R.HUB_BOOT_STATE 1).set R.HUB_RESET_STAT_PHASE 4)
  logEvent 0 0xFF 0x0001 (leBytes 1 b ++ leBytes 4 x.version ++ leBytes 4 (((s.ledger.head?).map LedgerRec.seq).getD 0)) s

/-! ## The run of a boot -/

/-- Step `k`: whether the boot goes on, and the state. -/
def bootStep (b : BootEnv) (k : Nat) (s : State) : Bool × State :=
  if k = 1 then (true, stepMark 1 stOk s)
  else if k = 2 then bootStep2 b s
  else if k = 3 then bootStep3 b s
  else if k = 4 then bootStep4 b s
  else if k = 5 then bootStep5 b s
  else if k = 6 then bootStep6 b s
  else if k = 7 then bootStep7 b s
  else if k = 8 then bootStep8 b s
  else if k = 9 then bootStep9 b s
  else if k = 10 then bootStep10 b s
  else (false, bootStep11 s)

/-- The steps from `k` on. -/
def bootRun (b : BootEnv) : Nat → Nat → State → State
  | 0, _, s => s
  | n + 1, k, s =>
    let s := stepBegin k s
    if b.hang.val = k then s
    else if k = 5 ∧ !s.refclk then { s with bootWait := some b }
    else match bootStep b k s with
      | (true, s) => bootRun b n (k + 1) s
      | (false, s) => s

/-- A boot begins at step 1 (R389: BOOT_MODE is sampled). -/
def bootBegin (b : BootEnv) (attempt : Nat) (s : State) : State :=
  bootRun b 11 1 ((s.set R.HUB_BOOT_MODE b.bootMode.toNat).set R.HUB_BOOT_ATTEMPT attempt)

/-- BOOT_START (R320, R368, R407): PERST# is deasserted on a package that waits at boot step 1, once a pending summary is written. In test mode
it does not boot. -/
def bootStart (b : BootEnv) (s : State) : State :=
  if !s.powered || s.tripped || s.packageResetting || s.sumWait.isSome || s.get R.HUB_BOOT_STEP != 0 || s.get R.HUB_BOOT_STATE != 0 then s
  else
    let s := { s with perst := false }
    if b.testEn then s else bootBegin b 1 s

/-- The step in progress of a boot that has neither ended nor halted. -/
def State.bootAt (s : State) : Option Nat :=
  let k := s.get R.HUB_BOOT_STEP
  if s.get R.HUB_BOOT_STATE = 0 ∧ 1 ≤ k then some k else none

/-- BOOT_STEP_TIMEOUT (R385): the step in progress has failed. A per-unit step blames no unit, and the spec gives it no alternative: the
boot stays there (log entry 31). -/
def bootTimeout (s : State) : State :=
  match s.bootAt with
  | none => s
  | some k =>
    if stepNib (s.get R.HUB_BOOT_STEPS_STEPS) k ≠ stStarted then s
    else
      let s := { s with bootWait := none }
      if k = 2 then mountFailed s
      else if k = 3 then requiredFailed 3 2 s
      else if k = 4 then requiredFailed 4 3 s
      else if k = 7 then requiredFailed 7 6 s
      else stepMark k stFailed s

/-- The next boot after a required step that failed (R386): every die is as after the package reset, and ATTEMPT is 2. -/
def bootRestart (b : BootEnv) (s : State) : State :=
  match s.bootAt with
  | none => s
  | some k =>
    let n := stepNib (s.get R.HUB_BOOT_STEPS_STEPS) k
    if ([1, 2, 3, 4, 7].contains k && (n == stFailed || n == stAlt)) then bootBegin b 2 (dieReset s) else s

/-- LINK_REFCLK appears: a boot that waits for it goes on at step 5 (R35). -/
def bootResume (s : State) : State :=
  match s.bootWait with
  | none => s
  | some b => bootRun b 7 5 { s with bootWait := none }

/-! ## Commands -/

/-- BOOT_START (R368). -/
def execBootStart (b : BootEnv) (s : State) : Out := attempt (bootStart b) s

/-- BOOT_STEP_TIMEOUT (R385). -/
def execBootStepTimeout (s : State) : Out := attempt bootTimeout s

/-- BOOT_RESTART (R386). -/
def execBootRestart (b : BootEnv) (s : State) : Out := attempt (bootRestart b) s

end Sys2Proof.Machine
end

