-- ==== Sys2Proof/Machine/Power.lean ====
section
/-!
DEFINITION. Power, temperature, die faults and clocks (spec 16_power_thermal_interfaces.md, R406 to R415; 01_package_architecture.md,
R33, R35, R38, Table 1.8), and the host's configuration of the functions (13_host_and_musyn.md, R317 to R319).
-/

namespace Sys2Proof.Machine

/-- STATE of a power domain. -/
def domState (d st : Nat) (s : State) : State := s.set (R.PWR_DOM_STATE d) st

/-- The domain's regulator has lost power good. -/
def State.domFault (s : State) (d : Nat) : Bool := s.get (R.PWR_DOM_STATE d) == 3

/-- Domains that EN switches (Table 16.1). -/
def switchable (d : Nat) : Bool := (decide (11 ≤ d) && decide (d ≤ 20)) || d == 23

/-! ## Domains off (R408) -/

/-- Engine `e` loses its power: engine fault, then OFF; its rings and a self-test are lost. One that is marked out stays so. -/
def engineOff (e : Nat) (s : State) : State :=
  let s := scbAbortRun (· == unitEng e) s
  let s := if (s.eng e).selftest.isSome then selftestClear e 3 s else s
  let s := engineFault e engOff s
  forgetUser (32 + e) (if s.engMarked e then s else engEnter e engOff s)

/-- Engine `e` has power again (R125): it acquires its rings with a set built for its temperature. -/
def engineOn (e : Nat) (s : State) : State :=
  if s.engState e ≠ engOff ∨ s.engMarked e then s else engEnter e engAcquiring (calEngineBoot e s)

/-- Link group `g` goes off: its ports are DOWN, and its line planes leave service. -/
def linkGroupOff (g : Nat) (s : State) : State :=
  let s := scbAbortRun (fun u => u / 8 == g || (58 ≤ u && (u - 58) / 4 == g)) s
  let s := (List.range 8).foldl (fun s i => forgetUser (8 * g + i) (portFall (8 * g + i) s)) s
  scbRecheck ((List.range 4).foldl (fun s i => planeOut (4 * g + i) s) s)

/-- Plane `m` carries culverts again, if its die works and it has a table. -/
def planeBack (m : Nat) (s : State) : State :=
  if s.bit (R.SCB_UNIT_MISSING (unitPlane m)) || nbit s.pairsOut (m / 2) || s.scbState (unitPlane m) == scbRunning then s
  else { s.set R.HUB_PLANE_MAP_PLANE_IN_SERVICE (nput (s.get R.HUB_PLANE_MAP_PLANE_IN_SERVICE) m true) with
    shuttered := s.shuttered.filter fun k => k % 16 != m }

/-- Link group `g` is on: the headgate drives its elements again, and its planes return. -/
def linkGroupOn (g : Nat) (s : State) : State :=
  let s := if s.activeHdg.isSome then driveAll s else s
  (List.range 4).foldl (fun s i => planeBack (4 * g + i) s) s

/-- A laser is lit. -/
def State.anyLit (s : State) : Bool := (List.range 10).any fun j => s.las j == lasLit

/-- PD23 goes off: a calibration of a port, laser or plane that runs ends, and every heater code falls to 0, so that every ring is lost. -/
def heatersOff (s : State) : State :=
  let s := scbAbortRun (fun u => u < 32 || 48 ≤ u) s
  let s := (List.range 32).foldl (fun s p => forgetUser p (portFall p s)) s
  let s := (List.range 16).foldl (fun s e => forgetUser (32 + e) (engineFault e engAcquiring s)) s
  { s with regs := s.regs.filter fun p => !(decide (0x804000 * 64 ≤ p.1 ∧ p.1 < 0x808000 * 64) && p.1 % 64 == 0) }

/-- What the loss of domain `d`'s power does (Table 16.4). -/
def domLost (d : Nat) (s : State) : State :=
  if 11 ≤ d ∧ d ≤ 14 then (List.range 4).foldl (fun s i => engineOff (4 * (d - 11) + i) s) s
  else if 15 ≤ d ∧ d ≤ 18 then linkGroupOff (d - 15) s
  else if d = 19 ∨ d = 20 then bankOff (d - 19) s
  else if d = 23 then heatersOff s else s

/-- What the return of domain `d`'s power does (Table 16.4). -/
def domBack (d : Nat) (s : State) : State :=
  if 11 ≤ d ∧ d ≤ 14 then (List.range 4).foldl (fun s i => engineOn (4 * (d - 11) + i) s) s
  else if 15 ≤ d ∧ d ≤ 18 then linkGroupOn (d - 15) s
  else if d = 19 ∨ d = 20 then bankOn (d - 19) s
  else if d = 23 then (if s.activeHdg.isSome then driveAll s else s) else s

/-- A write of EN (R408, R409): off while a laser is lit, PD23 is case 5 of Table 14.1. A domain without its regulator stays in FAULT. -/
def domPut (d : Nat) (on : Bool) (s : State) : State :=
  if !switchable d || s.bit (R.PWR_DOM_EN d) == on then s
  else if d = 23 ∧ !on ∧ s.anyLit then s.undef 5
  else
    let s := s.setBit (R.PWR_DOM_EN d) on
    if s.domFault d then s
    else if on then domBack d (domState d 2 s) else domState d 0 (domLost d s)

/-! ## Die faults (R38) -/

/-- A die is listed as failed. -/
def dieDead (k : Nat) (s : State) : State := { s with deadDies := if s.deadDies.contains k then s.deadDies else s.deadDies ++ [k] }

/-- The engines of bay `n` stop with it. -/
def bayEngines (n : Nat) (s : State) : State := engineFault (2 * n + 1) engOut (engineFault (2 * n) engOut s)

/-- A die fails (Table 1.8). -/
def dieFault (d : FailDie) (s : State) : State :=
  match d with
  | .compute b => bayEngines b.val (dieDead b.val s)
  | .hbm b => dieDead (100 + b.val) s
  | .sram b => bayEngines b.val (dieDead (110 + b.val) s)
  | .control => dieDead dieControl s
  | .hub => dieDead dieHub s
  | .nor => logFull 1 (dieDead dieNor s)

/-- Domains that IVR die `i` feeds (Table 1.3). -/
def ivrDomains (i : Nat) : List Nat :=
  if i < 8 then [3 + i]
  else [[11, 12], [13, 14], [15, 16, 17, 18], [19, 20, 23], [21], [2, 22], [0, 1]].getD (i - 8) []

/-- Domain `d` is lost with its regulator: the dies in it fail, or its units go off. -/
def domGone (d : Nat) (s : State) : State :=
  let s := if s.bit (R.PWR_DOM_EN d) then domLost d s else s
  let all (k : Nat) (s : State) : State := (List.range 8).foldl (fun s n => dieDead (k + n) s) s
  let s := if d = 0 then logFull 1 (dieDead dieNor s)
    else if d = 1 then dieDead dieHub s
    else if d = 2 then dieDead dieControl s
    else if 3 ≤ d ∧ d ≤ 10 then bayEngines (d - 3) (dieDead (d - 3) s)
    else if d = 21 then all 100 s
    else if d = 22 then (List.range 8).foldl (fun s n => bayEngines n s) (all 110 s) else s
  domState d 3 s

/-- IVR_FAULT (R33). -/
def ivrFault (i : Nat) (s : State) : State := (ivrDomains i).foldl (fun s d => domGone d s) s

/-! ## Caps (R410) -/

/-- Controller of domain `d`. -/
def State.capCtl (s : State) (d : Nat) : CapCtl := tget { clock := 0, issue := 0, hold := 0, below := 0 } s.caps d

/-- Highest cap of a cappable domain in W (Table 16.1). -/
def capMax (d : Nat) : Nat := if d ≤ 10 then 260 else if d ≤ 14 then 80 else 300

/-- FTARGET as it acts. -/
def State.target (s : State) (d : Nat) : Nat := min 19 (max 12 (s.get (R.PWR_CAP_FTARGET d)))

/-- One step down: the clock to 1.2 GHz, then issue. -/
def CapCtl.down (c : CapCtl) (room : Nat) : CapCtl :=
  if c.clock < room then { c with clock := c.clock + 1 } else { c with issue := min 15 (c.issue + 1) }

/-- One step up. -/
def CapCtl.up (c : CapCtl) : CapCtl :=
  if 0 < c.issue then { c with issue := c.issue - 1 } else { c with clock := c.clock - 1 }

/-- A tick of a controller with `avg` in 0.1 W against a cap in W; `room` is how many clock steps there are. A step is made at most once per
millisecond. -/
def CapCtl.tick (c : CapCtl) (avg cap room : Nat) : CapCtl :=
  let c := { c with hold := c.hold - 1, clock := min room c.clock, below := if avg * 20 ≤ cap * 190 then c.below + 1 else 0 }
  if c.hold ≠ 0 then c
  else if cap * 10 < avg then { c.down room with hold := 10 }
  else if 100 ≤ c.below ∧ 0 < c.issue + c.clock then { c.up with hold := 10 } else c

/-- CAP_CONTROL_TICK: PWR_MEAS, and for a compute die or HBM the throttle. The engine groups follow their caps through the weir (R411). -/
def capTick (d avg : Nat) (s : State) : State :=
  let s := s.set (R.PWR_MEAS_POWER d) avg
  if d < 3 ∨ (11 ≤ d ∧ d ≠ 21) then s
  else
    let room := if d ≤ 10 then s.target d - 12 else 0
    let cap := min (capMax d) (s.get (R.PWR_CAP_CAP_W d))
    let c := (s.capCtl d).tick avg cap room
    let s := { s with caps := tput d c s.caps }
    let s := s.setBit (R.PWR_DOM_THROTTLE d) (c.issue == 15 && decide (cap * 10 < avg))
    if d ≤ 10 then s.set (R.PWR_MEAS_FCLK d) (s.target d - c.clock) else s

/-! ## Shutdowns (R413 to R415) -/

/-- Everything but PD0 loses its power, lasers first. -/
def shutDown (s : State) : State :=
  let s := { fabricEdge (computeClear s) with pcieLink := none, mem := [], poison := [], badWords := [], scbRun := none, scbQueue := [], fw := none,
                                              slotA := s.slotKept 0, slotB := s.slotKept 1 }
  let s := (List.range 16).foldl (fun s e => forgetUser (32 + e) (if s.engMarked e then s else engEnter e engOff s)) s
  (List.range 23).foldl (fun s d => domState (d + 1) 0 s) s

/-- BROWN_OUT (R413). -/
def brownOut (s : State) : State :=
  if s.powered then { domState 0 0 (shutDown s) with powered := false, logBuf := [], brownOut := true } else s

/-- Warning and trip limits of die `i` in °C (Table 16.6); HBM does not trip. -/
def warnLimit (i : Nat) : Int := if i < 8 then 95 else if i < 16 then 85 else if (24 ≤ i ∧ i < 40) ∨ (56 ≤ i ∧ i < 64) ∨ (72 ≤ i ∧ i < 82) then 70 else 100
def tripLimit (i : Nat) : Option Int :=
  if i < 8 then some 105 else if i < 16 then none
  else if (24 ≤ i ∧ i < 40) ∨ (56 ≤ i ∧ i < 64) ∨ (72 ≤ i ∧ i < 82) then some 80 else some 110

/-- Record 0x0A00 of die `i`. -/
def thermBytes (kind i : Nat) (t : Int) : List Byte := leBytes 1 kind ++ leBytes 2 i ++ leBytes 2 (ofSigned 16 t)

/-- A trip (R415): THERMTRIP# is latched, PD0 alone runs, and the event is logged and counted. -/
def thermTrip (i : Nat) (t : Int) (s : State) : State :=
  if s.tripped then s
  else
    let s := { shutDown s with tripped := true }
    let s := lifeSet 2 0x101 (i + 65536 * ofSigned 16 t) (lifeInc 3 0x100 s)
    logEvent 14 i 0x0A00 (thermBytes 2 i t) s

/-- TEMP_SAMPLE (R414): a die that comes to its warning limit is counted and logged. -/
def tempSample (i : Nat) (t : Int) (s : State) : State :=
  if !s.powered then s
  else
    let was := s.dieTemp i
    let s := s.set (R.PWR_TEMP_TEMP i) (ofSigned 16 t)
    let hot (l v : Int) : Bool := decide (l * 256 ≤ v)
    let s :=
      if !hot (warnLimit i) t then s
      else
        let s := s.setBit (R.PWR_TEMP_WARN i) true
        if hot (warnLimit i) was then setAlert alertThermWarn s
        else logAlert alertThermWarn 14 i 0x0A00 (thermBytes 1 i t) (lifeInc 3 0x102 s)
    match tripLimit i with
    | some l => if hot l t then thermTrip i t s else s
    | none => s

/-! ## Clock, PCIe link, configuration -/

/-- The CAN controller runs or is OFF (R344): with CAN_MGMT in force, a node number and LINK_REFCLK. Bus-off and listen-only stay. -/
def canGate (s : State) : State :=
  let on := s.feature 1 && s.get R.HUB_CAN_STAT_NODE != 0 && s.refclk
  let st := s.get R.HUB_CAN_STAT_STATE
  if !on then { s.set R.HUB_CAN_STAT_STATE 0 with can := { s.can with txq := [], txn := none } }
  else if st = 0 then s.set R.HUB_CAN_STAT_STATE 1 else s

/-- LINK_REFCLK_CHANGE (R35). -/
def refclkChange (present : Bool) (s : State) : State :=
  let s := canGate { s with refclk := present }
  if present then bootResume s else s

/-- PCIE_LINK_UP (R317): below 16 GT/s or x4 the link is degraded. -/
def linkUp (gen width : Nat) (s : State) : State :=
  if !s.powered || s.tripped || s.perst || !s.bootReached 1 || gen == 0 || width == 0 then s
  else
    let s := { s with pcieLink := some (gen, width) }
    if gen < 4 ∨ width < 4 then setAlert alertPcieDegraded s else s

/-- Function `f` answers configuration requests: from DRS on, and a VF while it is enabled. -/
def State.configured (s : State) (f : Nat) : Bool :=
  s.pcieLink.isSome && decide (0 < s.drs) && (s.bootReached 4 || s.get R.HUB_BOOT_STATE == 2) && (f == 0 || (s.vfEnable && decide (f ≤ s.numVfs)))

/-- Configuration of function `f` changed by `g`. -/
def putCfg (f : Nat) (g : FnCfg → FnCfg) (s : State) : State := { s with fnCfg := tput f (g (s.cfg f)) s.fnCfg }

/-- CONFIGURATION_WRITE (R318, R319). -/
def configWrite (f : Nat) (w : CfgWrite) (s : State) : State :=
  if !s.configured f then s
  else match w with
  | .powerState d => putCfg f (fun c => { c with d3hot := d }) s
  | .busMaster on => msixFlush f (putCfg f (fun c => { c with busMaster := on }) s)
  | .msixControl en m => msixFlush f (putCfg f (fun c => { c with msixEnable := en, msixFnMask := m }) s)
  | .vfEnable on n =>
    if f ≠ 0 then s
    else if !on then { noVfs s with fnCfg := s.fnCfg.filter fun x => x.1 == 0 }
    else if s.vfEnable then s else { s with vfEnable := true, numVfs := n.val }

/-! ## Commands -/

/-- POWER_DOMAIN_ON (R408). -/
def execPowerDomainOn (r : Requester) (d : PwrDom) (s : State) : Out := attempt (gated r (0x980000 + 4 * d.val) (domPut d.val true)) s

/-- POWER_DOMAIN_OFF (R408). -/
def execPowerDomainOff (r : Requester) (d : PwrDom) (s : State) : Out := attempt (gated r (0x980000 + 4 * d.val) (domPut d.val false)) s

/-- IVR_FAULT (R33). -/
def execIvrFault (i : Fin 15) (s : State) : Out := attempt (ivrFault i.val) s

/-- CAP_CONTROL_TICK (R410). -/
def execCapControlTick (d : PwrDom) (avgDeciwatt : Nat) (s : State) : Out := .next (capTick d.val avgDeciwatt s)

/-- BROWN_OUT (R413). -/
def execBrownOut (s : State) : Out := .next (brownOut s)

/-- TEMP_SAMPLE (R414). -/
def execTempSample (i : Die) (temp256 : Int) (s : State) : Out := .next (tempSample i.val temp256 s)

/-- DIE_FAULT (R38). -/
def execDieFault (d : FailDie) (s : State) : Out := attempt (dieFault d) s

/-- LINK_REFCLK_CHANGE (R35). -/
def execLinkRefclkChange (present : Bool) (s : State) : Out := attempt (refclkChange present) s

/-- PCIE_LINK_UP (R317). -/
def execPcieLinkUp (gen : Fin 7) (width : Fin 17) (s : State) : Out := .next (linkUp gen.val width.val s)

/-- CONFIGURATION_WRITE (R318). -/
def execConfigurationWrite (f : Fn) (w : CfgWrite) (s : State) : Out := .next (configWrite f.val w s)

end Sys2Proof.Machine
end

