-- ==== Sys2Proof/Machine/Store.lean ====
section
/-!
DEFINITION. Firmware staging, the slot and ledger commands, the configuration store's commands, and the Logbook (spec 15_boot_update_
logbook.md, R386, R390 to R402).
-/

namespace Sys2Proof.Machine

/-! ## Staging (R394, R395) -/

/-- The first erase of a staging into slot `b`: its last sector. -/
def sectorRecord (b : Nat) : Nat := sectorSlot b + 511

/-- Sectors that a staging of `len` bytes erases: those of the image, and the last. -/
def stageSectors (len : Nat) : Nat := let n := (len + 65535) / 65536; if n = 512 then 512 else n + 1

/-- LENGTH of an image: a multiple of 16 that holds header and tag and fits a slot. -/
def imageLength (n : Nat) : Bool := n % 16 == 0 && decide (272 ≤ n) && decide (n ≤ 33554368)

/-- Field of `n` bytes at `off` of an image header. -/
def hdrFld (h : List Byte) (off n : Nat) : Nat := leNat ((h.drop off).take n)

/-- The header checks of R393, without the tag, and LENGTH as the command gave it. -/
def headerOk (h : List Byte) (len : Nat) : Bool :=
  hdrFld h 0 8 == 0x31474D494B564E48 && hdrFld h 8 4 == 1 && hdrFld h 0x10 1 == 0xA1 && hdrFld h 0x14 4 == len && imageLength len

/-- HUB_FW_STAT.STATE. -/
def fwState (st : Nat) (s : State) : State := s.set R.HUB_FW_STAT_STATE st

/-- A staging command is refused with a reason, which HUB_FW_STAT shows. -/
def fwRefuse (reason : Nat) (s : State) : CmdRes × State := (.refused reason, s.set R.HUB_FW_STAT_REASON reason)

/-- The slot that a staging writes: the one that does not run. -/
def State.fwTarget (s : State) : Nat := 1 - s.get R.HUB_BOOT_SLOT

/-- The header is in order: the slot's last sector is erased first, so the slot is EMPTY. -/
def fwErase (b : Nat) (s : State) : State := eraseIntent (sectorRecord b) (fwState 1 (putSlot b { s.imgSlot b with state := 0 } s))

/-- The staging ends in state `st`: permit 75 is free. -/
def fwEnd (st : Nat) (s : State) : State := freePermits [permSlots] (fwState st { s with fw := none })

/-- A staging claims permit 75 and starts. -/
def fwStart (path : Nat) (f : FwStaging) (s : State) : State :=
  let s := grant (holder path 10) [permSlots] { s with fw := some f }
  ((s.set R.HUB_FW_STAT_TARGET f.slot).set R.HUB_FW_STAT_REASON 0).set R.HUB_FW_STAT_PROGRESS 0

/-- A part of a staging command on a path other than the PF's mailbox (R339). -/
def pfOnly (path : Nat) (eff : State → CmdRes × State) (s : State) : CmdRes × State := if path = 1 then eff s else (.hostOnly, s)

/-- FW_STAGE: refused with BUSY, SOURCE or BAD_HEADER, or started. -/
def fwStage (addr len path : Nat) (s : State) : CmdRes × State :=
  match firstHeld s [permSlots] with
  | some (r, h) => (.busy r h, s)
  | none =>
    let total := s.hbmBays.length * 48 * gib
    if total = 0 ∨ total < addr + len then fwRefuse 2 s
    else
      let h := (List.range 256).map fun i => match s.place (addr + i) with
        | .mem k => s.byte k
        | _ => 0
      if !headerOk h len then fwRefuse 1 s
      else
        let b := s.fwTarget
        (.ok, fwErase b (fwStart path { slot := b, length := len, viaMbx := false, got := len, header := h } s))

/-- FW_BEGIN: the header comes with FW_DATA. -/
def fwBegin (len path : Nat) (s : State) : CmdRes × State :=
  match firstHeld s [permSlots] with
  | some (r, h) => (.busy r h, s)
  | none =>
    if !imageLength len then fwRefuse 1 s
    else (.ok, fwState 0 (fwStart path { slot := s.fwTarget, length := len, viaMbx := true, got := 0, header := [] } s))

/-- FW_DATA: the next part. Beyond the first 64 KiB the hub buffer may be full, which the spec leaves open: a free value says so. -/
def fwData (off : Nat) (data : List Byte) (s : State) : CmdRes × State :=
  match s.fw with
  | none => (.code 8, s)
  | some f =>
    let n := data.length
    if n = 0 ∨ 236 < n then (.code 3, s)
    else if !f.viaMbx ∨ off ≠ f.got ∨ f.got = f.length then (.code 8, s)
    else if f.length < off + n then (.code 4, s)
    else
      let (full, s) := s.free
      if 65536 < off + n ∧ full % 2 = 1 then (.refused 1, s)
      else
        let f' := { f with got := off + n, header := (f.header ++ data).take 256 }
        if f.header.length < 256 ∧ f'.header.length = 256 ∧ !headerOk f'.header f.length then
          fwRefuse 1 (fwEnd 0 s)
        else
          let s := { s with fw := some f' }
          let s := if f.header.length < 256 ∧ f'.header.length = 256 then fwErase f.slot s else s
          let s := s.set R.HUB_FW_STAT_PROGRESS (f'.got / 65536)
          (.ok, if f'.got = f.length then fwState 3 s else if f'.header.length = 256 ∧ f.header.length = 256 then fwState 2 s else s)

/-- FW_ABORT. -/
def fwAbort (s : State) : CmdRes × State :=
  match s.fw with
  | none => (.refused 0, s)
  | some f =>
    let s := { putSlot f.slot { s.imgSlot f.slot with state := 0 } s with intents := s.intents.filter (· != sectorRecord f.slot) }
    (.ok, fwEnd 6 s)

/-- STAGING_COMPLETE (R394): the slot record is programmed, or the staging has failed. -/
def stagingComplete (ok : Bool) (s : State) : State :=
  match s.fw with
  | none => s
  | some f =>
    if f.got ≠ f.length then s
    else
      let n := stageSectors f.length
      let s := eraseEnd (sectorRecord f.slot) n (!s.nvmDead) s
      if !ok || s.nvmDead then (fwEnd 5 s).set R.HUB_FW_STAT_REASON 3
      else
        let o := s.imgSlot (1 - f.slot)
        let seq := ((if o.state = 0 then 0 else o.seq) + 1) % 2 ^ 32
        let x : ImgSlot := { state := 1, seq := seq, length := f.length, version := hdrFld f.header 0xC 4, level := hdrFld f.header 0x11 1,
                             odVer := hdrFld f.header 0x12 2, migrateFrom := hdrFld f.header 0x28 2 }
        (fwEnd 4 (putSlot f.slot x s)).set R.HUB_FW_STAT_PROGRESS ((f.length + 65535) / 65536)

/-! ## Slots, ledger, configuration -/

/-- BOOT_SLOT (R392). -/
def bootSlot (v : Nat) (s : State) : CmdRes × State :=
  if v = 1 ∨ v = 2 then (.ok, showSlots { s with bootFirst := some (v - 1) }) else (.code 4, s)

/-- Number of units of a kind. -/
def kindUnits (kind : Nat) : Nat := [8, 8, 16, 32, 10].getD kind 0

/-- LEDGER_RETRY (R386): the unit's RETRY bit of this boot's record. -/
def ledgerRetry (u : Nat) (s : State) : CmdRes × State :=
  let i := u % 256
  let kind := u / 256
  if kindUnits kind ≤ i then (.code 4, s)
  else if s.nvmDead then (.code 7, s)
  else (.ok, ledgerPut (fun r => { r with retry := UnitMasks.zip (· ||| ·) r.retry (UnitMasks.one kind i) }) s)

/-- The settings that CFG_RESET and DEFAULTS set to their defaults (R397, R398). -/
def resetIndices : List Nat := rwpIndices.filter fun i => i != 1 && i != 0x10

/-- CFG_RESET (R398): for the path that holds resource 77 by PERMIT_CLAIM. -/
def cfgReset (path : Nat) (s : State) : CmdRes × State :=
  let h := s.get (R.HUB_PERMIT_HOLDER permConfig)
  if h = 0 then (.refused 2, s)
  else if h / 256 ≠ path then (.busy permConfig h, s)
  else
    let (bad, s) := resetIndices.foldl (fun (x : Bool × State) i =>
      let (st, s) := settingWrite i (((odEntry 1 i).bind OdEnt.dflt).getD 0) x.2
      (x.1 || st != 0, s)) (false, s)
    (if bad then .code 7 else .ok, s)

/-! ## Logbook (R400 to R402) -/

/-- LOG_RECORD_WRITE: the oldest buffered record is programmed; a failure stops recording with cause NVM. -/
def logWrite (ok : Bool) (s : State) : State :=
  if s.bit R.LOG_STAT_CLEARING || (s.bit R.LOG_STAT_FULL && s.bit R.LOG_STAT_CAUSE) then s
  else match s.logBuf with
  | [] => s
  | r :: rest =>
    if !ok || s.nvmDead then logFull 1 s
    else
      let s := { s with logBuf := rest, logRecs := s.logRecs ++ [r] }
      (s.set R.LOG_HEAD_HEAD s.logRecs.length).set R.LOG_STAT_PENDING rest.length

/-- A write of LOG_CUR (R401). -/
def logCur (i : Nat) (s : State) : State := (s.set R.LOG_CUR_INDEX i).set R.LOG_CUR_READY 0

/-- LOG_WINDOW_READY: LOG_WIN holds the four records from INDEX on. -/
def logWindow (s : State) : State :=
  let i := s.get R.LOG_CUR_INDEX
  let bs := (List.range 4).flatMap fun k => s.logRecord (i + k)
  (putWords R.LOG_WIN_WORD (leWords bs 64) s).set R.LOG_CUR_READY 1

/-- LOG_CLEAR: permit 76 is claimed and the erases begin. -/
def logClear (path : Nat) (s : State) : CmdRes × State :=
  match firstHeld s [permLogbook] with
  | some (r, h) => (.busy r h, s)
  | none => (.ok, eraseIntent sectorLog ((grant (holder path 11) [permLogbook] s).set R.LOG_STAT_CLEARING 1))

/-- LOG_CLEAR_COMPLETE: record 0 says what was cleared, and the buffered records follow it. -/
def logCleared (ok : Bool) (s : State) : State :=
  if !s.bit R.LOG_STAT_CLEARING then s
  else
    let good := ok && !s.nvmDead
    let s := freePermits [permLogbook] s
    if !good then
      logFull 1 (eraseEnd sectorLog 128 false (s.set R.LOG_STAT_CLEARING 0))
    else
      let head := s.logHead
      let dropped := s.get R.LOG_DROPPED_COUNT
      let held := s.logBuf
      let s := eraseEnd sectorLog 128 true { s with logBuf := [], logRecs := [], logSeq := 0 }
      let s := (((s.set R.LOG_HEAD_HEAD 0).incWrap R.LOG_HEAD_CLEARS).set R.LOG_STAT_FULL 0).set R.LOG_STAT_CAUSE 0
      let s := (s.set R.LOG_DROPPED_COUNT 0).set R.LOG_STAT_CLEARING 0
      let s := logEvent 0 0xFF 0x0006 (leBytes 4 head ++ leBytes 4 dropped) s
      let buf := logRenumber (s.logBuf ++ held)
      { s with logBuf := buf, logSeq := buf.length }.set R.LOG_STAT_PENDING buf.length

/-! ## Commands -/

/-- FW_STAGE (R395). -/
def execFwStage (p : MusynPath) (addr : BitVec 64) (len : BitVec 32) (s : State) : Out :=
  .next (viaMusyn p 3 4 0x70 (leBytes 8 addr.toNat ++ leBytes 4 len.toNat)
    (fun path => pfOnly path (fwStage addr.toNat len.toNat path)) s)

/-- FW_BEGIN (R394). -/
def execFwBegin (p : MusynPath) (len : BitVec 32) (s : State) : Out :=
  .next (viaMusyn p 3 4 0x71 (leBytes 4 len.toNat) (fun path => pfOnly path (fwBegin len.toNat path)) s)

/-- FW_DATA (R395). -/
def execFwData (p : MusynPath) (off : BitVec 32) (data : List Byte) (s : State) : Out :=
  .next (viaMusyn p 3 4 0x72 (leBytes 4 off.toNat ++ data) (fun path => pfOnly path (fwData off.toNat data)) s)

/-- FW_ABORT (R394). -/
def execFwAbort (p : MusynPath) (s : State) : Out := .next (viaMusyn p 3 4 0x73 (leBytes 1 0) (fun path => pfOnly path fwAbort) s)

/-- STAGING_COMPLETE (R394). -/
def execStagingComplete (ok : Bool) (s : State) : Out := .next (stagingComplete ok s)

/-- BOOT_SLOT (R392). -/
def execBootSlot (p : MusynPath) (v : Byte) (s : State) : Out :=
  .next (viaMusyn p 3 4 0x74 (leBytes 1 v.toNat) (fun path => pfOnly path (bootSlot v.toNat)) s)

/-- LEDGER_RETRY (R386). -/
def execLedgerRetry (p : MusynPath) (unit : BitVec 16) (s : State) : Out :=
  .next (viaMusyn p 3 4 0x75 (leBytes 2 unit.toNat) (fun path => pfOnly path (ledgerRetry unit.toNat)) s)

/-- CFG_RESET (R398). -/
def execCfgReset (p : MusynPath) (s : State) : Out :=
  .next (viaMusyn p 3 4 0x76 (leBytes 1 0) (fun path => pfOnly path (cfgReset path)) s)

/-- OPER_SECONDS_SAVE (R396). -/
def execOperSecondsSave (s : State) : Out := .next (operSave s)

/-- LOG_RECORD (R400). -/
def execLogRecord (ev : LogEvent) (s : State) : Out :=
  .next (logAccept ev.severity.toNat ev.source.toNat ev.code.toNat ev.flags.toNat ev.payload s)

/-- LOG_RECORD_WRITE (R400). -/
def execLogRecordWrite (ok : Bool) (s : State) : Out := .next (logWrite ok s)

/-- LOG_CUR_WRITE (R401). -/
def execLogCurWrite (r : Requester) (index : BitVec 17) (s : State) : Out := .next (gated r 0x940010 (logCur index.toNat) s)

/-- LOG_WINDOW_READY (R401). -/
def execLogWindowReady (s : State) : Out := .next (logWindow s)

/-- LOG_CLEAR (R402): from the PF only. -/
def execLogClear (p : MusynPath) (s : State) : Out :=
  .next (viaMusyn p 3 4 0x80 (leBytes 1 0) (fun path => pfOnly path (logClear path)) s)

/-- LOG_CLEAR_COMPLETE (R402). -/
def execLogClearComplete (ok : Bool) (s : State) : Out := .next (logCleared ok s)

end Sys2Proof.Machine
end

