-- ==== Sys2Proof/Machine/TimeRows.lean ====
section
/-!
DEFINITION. FabricTime (spec 12_fabric_time.md): the time exchange with a parent and with children, the trackers, the commands of
the output, and the PPS pins (R302 to R316).
-/

namespace Sys2Proof.Machine

/-! ## Stamps (R305) -/

/-- Picoseconds in 2^-32 s, to nearest (log entry 19). -/
def psUnits (ps : Nat) : Nat := (ps * 2 ^ 32 + 500000000000) / 1000000000000

/-- TX_CORR and RX_CORR of port `p` in its mode and width (Table 12.1), in ps. -/
def State.stampCorr (s : State) (p : Nat) : Nat × Nat :=
  let w := s.get (R.LNK_STAT_WIDTH p)
  let step := if w = 16 then 0 else if w = 12 then 250 else if w = 8 then 750 else 2250
  if s.bit (R.LNK_STAT_FEC p) then (9850 + step, 10400 + step) else (2350 + step, 2900 + step)

/-- A transmit stamp and a receive stamp of port `p`, corrected. -/
def State.txStamped (s : State) (p raw : Nat) : Nat := (raw + psUnits (s.stampCorr p).1) % 2 ^ 64
def State.rxStamped (s : State) (p raw : Nat) : Nat := (raw + 2 ^ 64 - psUnits (s.stampCorr p).2) % 2 ^ 64

/-- Domain-d time at output time `t`. -/
def State.domTime (s : State) (d t : Nat) : Nat := ofSigned 64 ((t : Int) + s.domOffset d)

/-- The grandmaster of domain `d` as this package names it in its TIME bodies. -/
def State.gmOf (s : State) (d : Nat) : Nat := if s.bit (R.FTM_DOM_GM d) then s.get R.LNK_GLOBAL_PKG else s.get (R.FTM_DOM_GM_PKG d)

/-- GM_LOCKED as this package sends it (R312): its own PPS lock at the grandmaster, else what its last accepted SYNC said. -/
def State.gmLocked (s : State) (d : Nat) : Bool :=
  if s.bit (R.FTM_DOM_GM d) then s.bit R.FTM_CFG_GM_PPS && decide (8 ≤ s.ppsGood) else s.bit (R.FTM_DOM_GM_LOCKED d)

/-- A TIME body of domain `d` leaves port `p`. -/
def timeOut (p msg d seq stamp : Nat) (s : State) : State :=
  sendTime p msg d false (s.get (R.FTM_DOM_HOPS d)) seq stamp (s.gmOf d) (s.gmLocked d) s

/-! ## Exchanges (R307, R308) -/

/-- An exchange of domain `d` is discarded (R308). -/
def dropExch (d : Nat) (s : State) : State := s.incSat (R.FTM_DOM_OUTLIERS d)

/-- Twice the mean path delay and twice theta of a full exchange, in 2^-32 s. -/
def exchSums (t1 t2 t3 t4 : Nat) : Int × Int := (timeDiff t2 t1 + timeDiff t4 t3, timeDiff t2 t1 - timeDiff t4 t3)

/-- |d − LNK_DELAY| is at most 8 ns, with d2 = 2 d in 2^-32 s. -/
def delayAgrees (d2 : Int) (delayPs : Nat) : Bool :=
  decide ((d2 * 1000000000000 - 2 * (delayPs : Int) * 2 ^ 32).natAbs ≤ 2 * 8000 * 2 ^ 32)

/-- The tracker's rate estimate is applied between updates (R309): the spec states no value of it, so after the first update OFFSET moves
by a free value. -/
def applyRate (d : Nat) (s : State) : State :=
  if !(s.dom d).updated then s
  else
    let (v, s) := s.free
    s.set (R.FTM_DOM_OFFSET d) (ofSigned 64 (s.domOffset d + toSigned 64 v))

/-- An accepted exchange with θ = `th2` / 2 updates the tracker of domain `d` (R309, Table 12.3). PATH_DELAY's filter is not stated: it is a
free value. -/
def acceptExch (d hops : Nat) (th2 : Int) (s : State) : State :=
  let s := applyRate d (s.incSat (R.FTM_DOM_ACCEPTED d))
  let off := s.domOffset d
  let within := decide ((th2 + 2 * off).natAbs * 1000000000 < 2 * 20 * 2 ^ 32)
  let s := s.set (R.FTM_DOM_OFFSET d) (ofSigned 64 (off + divRne (-th2 - 2 * off) 16))
  let s := s.set (R.FTM_DOM_HOPS d) (min 15 (hops + 1))
  let (v, s) := s.free
  let s := s.set (R.FTM_DOM_PATH_DELAY d) v
  let x := s.dom d
  let good := if within then x.good + 1 else 0
  let s := s.putDom d { x with good := good, updated := true }
  if s.get (R.FTM_DOM_STATE d) = trkAcquiring ∧ 16 ≤ good then startIfDue (trkEnter d trkLocked s) else s

/-- Exchange `e` of domain `d` is full: it is accepted or discarded. -/
def finishExch (d : Nat) (e : Exch) (s : State) : State :=
  match e.t1, e.t3, e.t4 with
  | some t1, some t3, some t4 =>
    let (d2, th2) := exchSums t1 e.t2 t3 t4
    if e.disturbed || !delayAgrees d2 (s.get (R.LNK_DELAY (s.get (R.FTM_DOM_PARENT d)))) then dropExch d s
    else acceptExch d e.hops th2 s
  | _, _, _ => s

/-- An exchange has all four stamps. -/
def Exch.full (e : Exch) : Bool := e.t1.isSome && e.t3.isSome && e.t4.isSome

/-- Full exchanges of domain `d` leave it, each accepted or discarded. -/
def settle (d : Nat) (s : State) : State :=
  let x := s.dom d
  (x.exch.filter Exch.full).foldl (fun s e => finishExch d e s) (s.putDom d { x with exch := x.exch.filter fun e => !e.full })

/-- Domain `d` follows TIME bodies from port `p` as a child. -/
def State.childOn (s : State) (d p : Nat) : Bool :=
  s.bit (R.FTM_DOM_EN d) && !s.bit (R.FTM_DOM_GM d) && s.get (R.FTM_DOM_PARENT d) == p && s.portUp p

/-- The tracker of domain `d` starts again in ACQUIRING. -/
def trkRestart (d : Nat) (s : State) : State := trkEnter d trkAcquiring (s.putDom d { s.dom d with updated := false })

/-- SYNC (R307, R309): t1 of the exchange before it, t2 of its own. A SYNC whose GM_PKG differs restarts the tracker, with its Logbook
record. -/
def syncIn (p : Nat) (b : TimeBody) (raw : Nat) (s : State) : State :=
  let d := b.domain.val
  if b.trn || b.msg != 0 || !s.childOn d p then s
  else
    let gm := b.gmPkg.toNat
    let n := b.seqid.toNat
    let old := s.get (R.FTM_DOM_GM_PKG d)
    let s := if gm = old then s else
      logEvent 12 d 0x0900 (leBytes 1 d ++ leBytes 4 old ++ leBytes 4 gm) (trkRestart d (s.set (R.FTM_DOM_GM_PKG d) gm))
    let s := s.setBit (R.FTM_DOM_GM_LOCKED d) b.gmLocked
    let s := if s.get (R.FTM_DOM_STATE d) = trkLost then trkRestart d s else s
    let x := s.dom d
    let fits (e : Exch) : Bool := (e.seq + 1) % 65536 == n && e.gm == gm
    let s := (x.exch.filter fun e => !fits e).foldl (fun s _ => dropExch d s) s
    let kept := (x.exch.filter fits).map fun e => { e with t1 := some b.stamp.toNat }
    let e : Exch := { seq := n, gm := gm, t2 := s.rxStamped p raw, t1 := none, t3 := none, t4 := none, hops := b.hopsGm.toNat,
                      disturbed := false }
    settle d (s.putDom d { s.dom d with exch := kept ++ [e] })

/-- SYNC_SEND (R307). A port that the previous round of SYNCs did not use has no transmit stamp of it: STAMP is 0 there. -/
def syncSend (d : Nat) (s : State) : State :=
  if !s.bit (R.FTM_DOM_EN d) || !(s.bit (R.FTM_DOM_GM d) || s.domLocked d) then s
  else
    let x := s.dom d
    let ports := (bitList (s.get (R.FTM_DOM_DOWN_PORTS d)) 32).filter s.portUp
    let s := ports.foldl (fun s p => timeOut p 0 d x.outSeq (tget 0 x.txStamp p) s) s
    s.putDom d { x with outSeq := (x.outSeq + 1) % 65536,
                        txStamp := ports.map fun p => (p, s.domTime d (s.txStamped p s.time64)) }

/-- DELAY_REQ (R307): it is answered with its corrected receive stamp in domain-d time. In a training each end stamps in its own
FabricTime. -/
def delayReqIn (p : Nat) (b : TimeBody) (raw : Nat) (s : State) : State :=
  let d := b.domain.val
  let t4 := s.rxStamped p raw
  if b.msg != 1 then s
  else if b.trn then
    if s.ptState p = ptTraining then sendTime p 2 0 true 0 b.seqid.toNat t4 0 false s else s
  else if s.bit (R.FTM_DOM_EN d) && nbit (s.get (R.FTM_DOM_DOWN_PORTS d)) p && s.portUp p then
    timeOut p 2 d b.seqid.toNat (s.domTime d t4) s
  else s

/-- DELAY_REQ_SEND (R307): the child's DELAY_REQ of the latest exchange, with raw transmit stamp `raw`. -/
def delayReqSend (d raw : Nat) (s : State) : State :=
  let p := s.get (R.FTM_DOM_PARENT d)
  let x := s.dom d
  match x.exch.getLast? with
  | some e =>
    if e.t3.isSome || !s.childOn d p then s
    else
      let t3 := s.txStamped p raw
      let s := s.putDom d { x with exch := x.exch.map fun y => if y.seq = e.seq then { y with t3 := some t3 } else y }
      timeOut p 1 d e.seq 0 s
  | none => s

/-- DELAY_RESP (R308): t4 of its exchange; messages that name two grandmasters discard it. -/
def delayRespIn (p : Nat) (b : TimeBody) (s : State) : State :=
  let d := b.domain.val
  let x := s.dom d
  let mine (e : Exch) : Bool := e.seq == b.seqid.toNat && e.t3.isSome
  if b.trn || b.msg != 2 || !s.childOn d p then s
  else if !x.exch.any mine then s
  else if b.gmPkg.toNat ≠ s.get (R.FTM_DOM_GM_PKG d) then dropExch d (s.putDom d { x with exch := x.exch.filter fun e => !mine e })
  else settle d (s.putDom d { x with exch := x.exch.map fun e => if mine e then { e with t4 := some b.stamp.toNat } else e })

/-! ## Trackers and the output -/

/-- TRACKER_LOSS (R309). -/
def trackerLoss (d : Nat) (s : State) : State := startIfDue (trkLose d s)

/-- PRIMARY_RETURN (R311): the primary has been LOCKED for 10 s. -/
def primaryReturn (s : State) : State :=
  if s.domLocked (s.get R.FTM_CFG_PRIMARY) then startIfDue (chooseOutput { s with awayPrimary := false }) else s

/-- A write of PRIMARY applies at once (R311). -/
def primaryPut (v : Nat) (s : State) : State :=
  startIfDue (chooseOutput { s.set R.FTM_CFG_PRIMARY v with awayPrimary := false })

/-- SLEW_COMPLETE (R311): the output is within 20 ns of its tracker. How far off it still is, the spec does not say. -/
def slewComplete (s : State) : State :=
  if s.get R.FTM_STAT_STATE ≠ outSlewing then s
  else
    let d := s.get R.FTM_STAT_FOLLOWING
    let (v, s) := s.free
    let rest : Int := ((v % 171 : Nat) : Int) - 85
    outEnter outTracking (shiftOffsets (s.domOffset d - rest) s)

/-- A write of FTM_DOM[d] at offset 0 (R309): OFF, LOCKED as grandmaster, or ACQUIRING anew. -/
def domConfig (d v : Nat) (s : State) : State :=
  if nfld v 9 23 ≠ 0 ∨ 31 < nfld v 2 7 then s.undef 1
  else
    let en := nbit v 0
    let gm := nbit v 1
    let s := ((s.setBit (R.FTM_DOM_EN d) en).setBit (R.FTM_DOM_GM d) gm).set (R.FTM_DOM_PARENT d) (nfld v 2 7)
    let s := s.putDom d { s.dom d with exch := [], updated := false }
    startIfDue (
      if !en then trkEnter d trkOff s
      else if gm then trkEnter d trkLocked ((s.set (R.FTM_DOM_OFFSET d) 0).set (R.FTM_DOM_HOPS d) 0)
      else trkEnter d trkAcquiring s)

/-- FTM_CMD. -/
def ftmCmd : CmdReg := { status := R.FTM_CMD_STATUS, ignored := R.FTM_CMD_IGNORED, busy := [1], refused := none }

/-- The output takes a new value by software (R310, R316): STEPPED, HOLDOVER from FREE, and the output chooses again. STATUS reads DONE,
since the output takes the value in the same step (log entry 20). -/
def ftmStep (δ : Int) (s : State) : State :=
  let s := (stepOutput δ s).setBit R.FTM_STAT_STEPPED true
  let s := if s.get R.FTM_STAT_STATE = outFree then outEnter outHoldover s else s
  startIfDue (chooseOutput (s.set R.FTM_CMD_STATUS 2))

/-- SET (R316). -/
def ftmSet : State → State := cmdWrite ftmCmd fun s => ftmStep (timeDiff (s.get R.FTM_SETVAL_VALUE) s.time64) s

/-- ADJUST (R316). -/
def ftmAdjust : State → State := cmdWrite ftmCmd fun s => ftmStep (toSigned 64 (s.get R.FTM_SETVAL_VALUE)) s

/-! ## Pins (R312, R315) -/

/-- An instant lies within 20 ns of a whole second. -/
def nearSecond (t : Nat) : Bool := withinNs (toSigned 32 t) 20

/-- PPS_IN_EDGE: stamped and counted while PPS_IN_EN = 1. -/
def ppsIn (s : State) : State :=
  if !s.bit R.FTM_CFG_PPS_IN_EN then s
  else
    let s := (s.set R.FTM_PPSIN_EDGE s.time64).incWrap R.FTM_PPSCNT_EDGES
    { s with ppsGood := if nearSecond s.time64 then s.ppsGood + 1 else 0 }

/-- PPS_IN_TIMEOUT (R312). -/
def ppsTimeout (s : State) : State := { s with ppsGood := 0 }

/-- PPS_OUT_PULSE (R315): counted as sent while enabled. -/
def ppsPulse (s : State) : State := if s.bit R.FTM_CFG_PPS_OUT_EN then { s with ppsOut := s.ppsOut + 1 } else s

/-! ## Commands -/

/-- SYNC (R307). -/
def execSync (p : Port) (b : TimeBody) (rxStamp : BitVec 64) (s : State) : Out := .next (syncIn p.val b rxStamp.toNat s)

/-- SYNC_SEND (R307). -/
def execSyncSend (d : Domain) (s : State) : Out := .next (syncSend d.val s)

/-- DELAY_REQ (R307). -/
def execDelayReq (p : Port) (b : TimeBody) (rxStamp : BitVec 64) (s : State) : Out := .next (delayReqIn p.val b rxStamp.toNat s)

/-- DELAY_REQ_SEND (R307). -/
def execDelayReqSend (d : Domain) (txStamp : BitVec 64) (s : State) : Out := .next (delayReqSend d.val txStamp.toNat s)

/-- DELAY_RESP (R308). -/
def execDelayResp (p : Port) (b : TimeBody) (s : State) : Out := .next (delayRespIn p.val b s)

/-- TRACKER_LOSS (R309). -/
def execTrackerLoss (d : Domain) (s : State) : Out := .next (trackerLoss d.val s)

/-- PRIMARY_RETURN (R311). -/
def execPrimaryReturn (s : State) : Out := .next (primaryReturn s)

/-- SLEW_COMPLETE (R311). -/
def execSlewComplete (s : State) : Out := .next (slewComplete s)

/-- DOMAIN_CONFIG_WRITE (R309). -/
def execDomainConfigWrite (r : Requester) (d : Domain) (val : BitVec 32) (s : State) : Out :=
  attempt (gated r (0x900100 + 0x40 * d.val) (domConfig d.val val.toNat)) s

/-- SET (R316). -/
def execFtmSet (r : Requester) (s : State) : Out := .next (gated r 0x90000C ftmSet s)

/-- ADJUST (R316). -/
def execFtmAdjust (r : Requester) (s : State) : Out := .next (gated r 0x90000C ftmAdjust s)

/-- PPS_IN_EDGE (R315). -/
def execPpsInEdge (s : State) : Out := .next (ppsIn s)

/-- PPS_IN_TIMEOUT (R312). -/
def execPpsInTimeout (s : State) : Out := .next (ppsTimeout s)

/-- PPS_OUT_PULSE (R315). -/
def execPpsOutPulse (s : State) : Out := .next (ppsPulse s)

end Sys2Proof.Machine
end

