-- ==== Sys2Proof/Machine/RegWrite.lean ====
section
/-!
DEFINITION. Writes and reads of registers (spec 13_host_and_musyn.md, R323 to R332, R335, R340; 00_scope.md, R8, R9, R15 to R18): the parts
of an access, the latches of 64-bit registers, the field rules, and what the write of each register starts.
-/

namespace Sys2Proof.Machine

/-- Who accesses a register: a function or a hart, or the Musyn server on behalf of a path (REG_READ and REG_WRITE). -/
inductive Src where
  | req (r : Requester)
  | musyn (path : Nat)
  deriving DecidableEq, Repr

/-- The gate of an access; the server is device firmware, which the level does not gate (R331). -/
def Src.gate (x : Src) (a : Nat) (s : State) : GateResult :=
  match x with
  | .req r => regGate r a s
  | .musyn _ => regGate (.hart 0) a s

/-- Path code (R352). -/
def Src.path : Src → Nat
  | .req r => reqPath r
  | .musyn p => p

/-- HUB_RESET_STAT.CAUSE of a reset that the access starts (R381). -/
def Src.cause : Src → Nat
  | .req r => resetCause (.reg r)
  | .musyn p => if p = 2 then 3 else 2

/-- Key of the requester's latches: the function number, 32 + core, or 2,000 + path. -/
def Src.key : Src → Nat
  | .req (.fn f) => f.val
  | .req (.hart c) => 32 + c.val
  | .musyn p => 2000 + p

/-- Latches with nothing in them. -/
def latchReset : Latch := { rdAddr := none, rdHigh := 0, wrLow := none }

/-- The latches of a requester. -/
def State.latch (s : State) (k : Nat) : Latch := tget latchReset s.latches k

/-- The latches of a requester are `l`. -/
def State.putLatch (s : State) (k : Nat) (l : Latch) : State := { s with latches := tset latchReset k l s.latches }

/-! ## Offsets -/

/-- Where an offset of a function's BAR0 leads: a PF address (a register that each function has for itself stands at function × 2^28), VF_ID,
a tenant row of VF16, or no register. -/
inductive BarPlace where
  | reg (a : Nat)
  | vfId
  | tenantless
  | unmapped
  deriving DecidableEq, Repr

/-- The word at `off` of the BAR0 of VF `f` (Table 13.5). -/
def vfPlace (f off : Nat) : BarPlace :=
  let own := off + 0x10000000 * f
  let row (a : Nat) : BarPlace := if f = 16 then .tenantless else .reg a
  if off = 0 then .vfId
  else if 0x10 ≤ off ∧ off < 0x20 then .reg off
  else if 0x40 ≤ off ∧ off < 0x48 then row (0x500200 + 8 * f + (off - 0x40))
  else if (0x600 ≤ off ∧ off < 0x640) ∨ (0x1000 ≤ off ∧ off < 0x1300) ∨ (0x8000 ≤ off ∧ off < 0x8100) ∨ off = 0x9000 then .reg own
  else if 0x10000 ≤ off ∧ off < 0x14000 then row (0x420000 + 0x4000 * f + (off - 0x10000))
  else if off = 0x20000 then row (0x600500 + 4 * f)
  else if off = 0x20004 then row (0x600540 + 4 * f)
  else if off = 0x20008 then row (0x402040 + 4 * f)
  else if 0x20010 ≤ off ∧ off < 0x20020 then row (0x500300 + 0x10 * f + (off - 0x20010))
  else .unmapped

/-- The word at `off` as an access of `x` reaches it. -/
def Src.place (x : Src) (off : Nat) : BarPlace :=
  match x with
  | .req (.fn f) => if f.val = 0 then (if off < 0x10000000 then .reg off else .unmapped) else vfPlace f.val off
  | _ => if off < 0x10000000 then .reg off else .unmapped

/-- An address of no register, at which the gate is asked for an offset that has none. -/
def noRegister : Nat := 0x300000

/-- The address at which the gate is asked. -/
def BarPlace.gateAt : BarPlace → Src → Nat
  | .reg a, _ => a
  | .vfId, .req (.fn f) => 0x10000000 * f.val
  | _, _ => noRegister

/-! ## Fields under a write -/

/-- A write of a register: its address, its fields, the bits written where `en` is set. -/
structure RegW where
  base : Nat
  fs : List Fld
  v : Nat
  en : Nat

/-- The write enables a bit of field `f`. -/
def RegW.hits (w : RegW) (f : Fld) : Bool := nfld w.en f.lo f.width != 0

/-- Value of field `f` with the written bits laid over it. -/
def RegW.new (w : RegW) (f : Fld) (s : State) : Nat :=
  let m := nfld w.en f.lo f.width
  let o := s.get f
  (o - (o &&& m)) + (nfld w.v f.lo f.width &&& m)

/-- One field under the write (R15): RW takes the written bits, W1C clears where a 1 is written. -/
def putFld (w : RegW) (s : State) (f : Fld) : State :=
  match f.acc with
  | .rw => s.set f (w.new f s)
  | .w1c => if nbit (w.v &&& w.en) f.lo then s.set f 0 else s
  | _ => s

/-- Every field of the register under the write. -/
def putFields (w : RegW) (s : State) : State := w.fs.foldl (putFld w) s

/-- The writable fields of the register with the written bits laid over them, as one number. -/
def RegW.merged (w : RegW) (s : State) : Nat :=
  w.fs.foldl (fun n f => if f.acc = .rw then n + w.new f s * 2 ^ f.lo else n) 0

/-- Bits that some field covers. -/
def coverOf (fs : List Fld) : Nat := fs.foldl (fun n f => n + (2 ^ f.width - 1) * 2 ^ f.lo) 0

/-- A non-zero bit is written where no field is (Table 14.1, case 1). -/
def RegW.reservedHit (w : RegW) : Bool := ((w.v &&& w.en) &&& coverOf w.fs) != (w.v &&& w.en)

/-- Only some bytes of a register with a CMD field are written (case 6). -/
def RegW.partialCmd (w : RegW) : Bool := w.fs.any (fun f => f.acc == .cmd) && w.en != 2 ^ 32 - 1

/-- The value written to the CMD field, which is bits [3:0] of its register. -/
def RegW.cmd (w : RegW) : Nat := w.v % 16

/-- A field of Table 0.1 that sits in bits [19:0] would take a value above 65,535. -/
def RegW.grows (w : RegW) (f : Fld) (s : State) : Bool := w.hits f && decide (65535 < w.new f s)

/-! ## HUB registers -/

/-- The first write of HUB_DRV_LEVEL sets the effective level; later ones are ignored and counted (R330). -/
def drvLevelPut (v : Nat) (s : State) : State :=
  if s.bit R.HUB_LEVEL_STAT_WRITTEN then s.incSat R.HUB_ACCESS_STAT_LEVEL_IGNORED
  else ((s.set R.HUB_DRV_LEVEL v).set R.HUB_LEVEL_STAT_EFFECTIVE (min (max (v % 16) 1) (s.get R.HUB_ARCH_LEVEL))).setBit R.HUB_LEVEL_STAT_WRITTEN true

/-- A write of HUB_DRV_FEATURE[i] (R332): a bit that no feature has reads 0 (R7). CAN_MGMT applies at once. -/
def drvFeaturePut (i v : Nat) (s : State) : State :=
  let s := s.set (R.HUB_DRV_FEATURE_BITS i) (v &&& s.get (R.HUB_FEATURE_BITS i))
  if i = 0 then canGate s else s

/-- A write of peg watch `i` of function `f` (R335). -/
def pwatchPut (f i : Nat) (w : RegW) (s : State) : State :=
  if w.grows (R.HUB_PWATCH_PEG f i) s then s.undef 1
  else
    let en := w.new (R.HUB_PWATCH_EN f i) s
    let s := putFld w (putFld w (putFld w s (R.HUB_PWATCH_PEG f i)) (R.HUB_PWATCH_THRESH f i)) (R.HUB_PWATCH_FIRED f i)
    if w.hits (R.HUB_PWATCH_EN f i) then watchEn f i (en == 1) s else s

/-- A write of HUB_FCRX_CFG (R378). -/
def fcrxWrite (w : RegW) (s : State) : State :=
  let p := w.new R.HUB_FCRX_CFG_PEG s
  if w.hits R.HUB_FCRX_CFG_EN then fcrxPut p (w.new R.HUB_FCRX_CFG_EN s == 1) s
  else if 65535 < p then s.undef 1 else s.set R.HUB_FCRX_CFG_PEG p

/-- The command of a CMD field, or a reserved value. -/
def oneCmd (c : CmdReg) (v : Nat) (eff : State → State) (s : State) : State :=
  if v = 1 then cmdWrite c eff s else cmdReserved c s

/-- Registers that function `f` has for itself: peg watches, mailbox, MSI-X. `b` is the offset. -/
def fnPut (sub : Nat → State → State) (f b : Nat) (w : RegW) (s : State) : State :=
  if 0x600 ≤ b ∧ b < 0x640 then pwatchPut f ((b - 0x600) / 8) w s
  else if b = 0x1000 then
    oneCmd { status := R.HUB_MBX_CMD_STATUS f, ignored := R.HUB_MBX_CMD_IGNORED f, busy := [1], refused := none } w.cmd (sub f) s
  else if 0x1100 ≤ b ∧ b < 0x1200 ∧ s.get (R.HUB_MBX_CMD_STATUS f) = 1 then s.incSat (R.HUB_MBX_CMD_IGNORED f)
  else if 0x8000 ≤ b ∧ b < 0x8100 then msixFlush f (putFields w s)
  else putFields w s

/-- Registers of the hub block. -/
def hubPut (sub : Nat → State → State) (x : Src) (w : RegW) (s : State) : State :=
  let a := w.base
  if a = 0x8 then (if w.hits R.HUB_DRV_LEVEL then drvLevelPut (w.new R.HUB_DRV_LEVEL s) s else s)
  else if 0x20 ≤ a ∧ a < 0x30 then drvFeaturePut ((a - 0x20) / 4) (w.new (R.HUB_DRV_FEATURE_BITS ((a - 0x20) / 4)) s) s
  else if a = 0x304 then settingForce 0x40 (w.new R.HUB_ALERT_EN_EN s) s
  else if a = 0x700 then oneCmd cresetCmd w.cmd (fun s => (computeReset x.cause x.path s).2) s
  else if a = 0x704 then oneCmd presetCmd w.cmd (fun s => (packageReset x.cause x.path s).2) s
  else if a = 0x7E4 ∧ w.grows R.HUB_FM_PKG s then s.undef 1
  else if a = 0x800 ∧ w.grows R.HUB_FCTX_ARG_DST s then s.undef 1
  else if a = 0x828 then oneCmd fctxCmd w.cmd fctxSend s
  else if a = 0x830 then fcrxWrite w s
  else fnPut sub 0 a w s

/-! ## The other blocks -/

/-- PMX_CTL of engine `e` (R123, R126). -/
def pmxCtlPut (e : Nat) (w : RegW) (s : State) : State :=
  let o := w.new (R.PMX_CTL_SVC_OUT e) s
  let s := keepWarm e (w.new (R.PMX_CTL_KW_EN e) s) (w.new (R.PMX_CTL_KW_DUTY e) s) s
  if s.get (R.PMX_CTL_SVC_OUT e) = o then s else svcOut e (o == 1) s

/-- The DSP_Q block of queue (t, q), offset `o` (R181). -/
def dspQPut (t q o : Nat) (w : RegW) (s : State) : State :=
  if o = 0 then qbaseWrite t q (w.merged s) s
  else if o = 0x10 ∧ w.grows (R.DSP_Q_DBPEG t q) s then s.undef 1
  else if s.bit (R.DSP_Q_EN t q) then s
  else putFields w s

/-- DSP_ registers. -/
def dspPut (w : RegW) (s : State) : State :=
  let a := w.base
  if 0x420000 ≤ a then dspQPut ((a - 0x420000) / 0x4000) (a % 0x4000 / 0x40) (a % 0x40) w s
  else if a = 0x402004 then
    (if w.cmd = 1 then cancelFromNow s else if w.cmd = 2 then cancelOneNow s else if w.cmd = 3 then resumeNow s else cmdReserved qCmd s)
  else putFields w s

/-- MEM_TSATP[t]: a reserved MODE leaves MODE as it is (R17). -/
def tsatpPut (t : Nat) (w : RegW) (s : State) : State :=
  let m := w.new (R.MEM_TSATP_MODE t) s
  let s := putFld w (putFld w s (R.MEM_TSATP_PPN t)) (R.MEM_TSATP_ASID t)
  if m = 0 ∨ m = 9 then s.set (R.MEM_TSATP_MODE t) m else s

/-- MEM_ registers. -/
def memPut (w : RegW) (s : State) : State :=
  let a := w.base
  if a = 0x500010 then (if w.cmd = 1 then invalStart s else cmdReserved invalCmd s)
  else if 0x500100 ≤ a ∧ a < 0x500180 then tsatpPut ((a - 0x500100) / 8) w s
  else if 0x500180 ≤ a ∧ a < 0x5001C0 then ftagWrite ((a - 0x500180) / 4) (w.merged s) s
  else putFields w s

/-- PEG_ registers. -/
def pegRegPut (w : RegW) (s : State) : State :=
  if w.base = 0x600404 then (if 1 ≤ w.cmd ∧ w.cmd ≤ 3 then blockCommand w.cmd s else cmdReserved pegBlkCmd s) else putFields w s

/-- Registers of port `p`, offset `o`. -/
def portPut (p o : Nat) (w : RegW) (s : State) : State :=
  if o = 0 then
    let en := w.new (R.LNK_CFG_EN p) s
    let s' := w.fs.foldl (fun t f => if f = R.LNK_CFG_EN p then t else putFld w t f) s
    if s.get (R.LNK_CFG_EN p) = en then s' else cfgEn p (en == 1) s'
  else if o = 4 then
    (if w.cmd = 1 then retrainCmd p s else if w.cmd = 2 then downCmd p s else cmdReserved (lnkCmd p) s)
  else putFields w s

/-- LNK_GLOBAL (R215, R221). -/
def lnkGlobalPut (w : RegW) (s : State) : State :=
  let p := w.new R.LNK_GLOBAL_PKG s
  let s := putFld w (putFld w s R.LNK_GLOBAL_HOPS_INIT) R.LNK_GLOBAL_GANG_DUP
  if w.hits R.LNK_GLOBAL_PKG then pkgChecked p s else s

/-- LNK_ registers. -/
def lnkPut (w : RegW) (s : State) : State :=
  let a := w.base
  if a < 0x702000 then portPut ((a - 0x700000) / 0x100) (a % 0x100) w s
  else if a = 0x704000 then lnkGlobalPut w s
  else if a = 0x704008 then setEpoch (w.new R.LNK_EPOCH_EPOCH s) s
  else if 0x704100 ≤ a ∧ a < 0x704180 then
    let g := (a - 0x704100) / 8
    if w.hits (R.LNK_GANG_PORTS g) then gangPut g (w.new (R.LNK_GANG_PORTS g) s) s else s
  else putFields w s

/-- A command with an argument field in its register: the argument is written with it. -/
def argCmd (c : CmdReg) (w : RegW) (path : Nat) (eff : Nat → State → Option (Nat → State → CmdRes × State)) (s : State) : State :=
  cmdWrite c (fun s =>
    let s := putFields w s
    match eff w.cmd s with
    | some f => (f path s).2
    | none => cmdReserved c s) s

/-- HDG_CMD. -/
def hdgOp (cmd : Nat) (s : State) : Option (Nat → State → CmdRes × State) :=
  match cmd with
  | 1 => some planStart
  | 2 => some arm
  | 3 => some disarm
  | 4 => some hdgSwap
  | 5 => some (hdgResync (s.get R.HDG_CMD_ARG))
  | 6 => some discard
  | _ => none

/-- A laser command by its code (Table 10.5), on laser `j`. -/
def lasOp (j cmd : Nat) : Option (Nat → State → CmdRes × State) :=
  match cmd with
  | 1 => some (swapToSpare j)
  | 2 => some (laserReturn j)
  | 3 => some (spareTest j)
  | _ => none

/-- SCB_CMD. -/
def scbOp (cmd : Nat) (s : State) : Option (Nat → State → CmdRes × State) :=
  match cmd with
  | 1 => some fun path s => scbCalibrate path s.scbArg (s.get R.SCB_START_AT_START_AT) s
  | 2 => some fun _ s' => scbAbortCmd (s.get R.SCB_ARG_UNIT) s'
  | _ => none

/-- SLC_, HDG_, LAS_, LPE_ and SCB_ registers. -/
def lightPut (x : Src) (w : RegW) (s : State) : State :=
  let a := w.base
  if a = 0x808000 then argCmd hdgCmd w x.path hdgOp s
  else if a = 0x880040 then argCmd lasCmd w x.path (fun v s => lasOp (s.get R.LAS_CMD_ARG) v) s
  else if a = 0x890200 then
    argCmd verifyCmd w x.path (fun v s => if v = 1 then some (verifyLaser (s.get R.LPE_VERIFY_ARG)) else none) s
  else if a = 0x8C0000 then argCmd scbCmd w x.path scbOp s
  else putFields w s

/-- FTM_CFG (R311): PRIMARY and AUTO_SWITCH apply at once. -/
def ftmCfgPut (w : RegW) (s : State) : State :=
  let p := w.new R.FTM_CFG_PRIMARY s
  let s' := w.fs.foldl (fun t f => if f = R.FTM_CFG_PRIMARY then t else putFld w t f) s
  if s.get R.FTM_CFG_PRIMARY = p then startIfDue (chooseOutput s') else primaryPut p s'

/-- FTM_ registers. -/
def ftmPut (w : RegW) (s : State) : State :=
  let a := w.base
  if a = 0x900008 then ftmCfgPut w s
  else if a = 0x90000C then (if w.cmd = 1 then ftmSet s else if w.cmd = 2 then ftmAdjust s else cmdReserved ftmCmd s)
  else if a = 0x900100 ∨ a = 0x900140 then domConfig ((a - 0x900100) / 0x40) (w.merged s) s
  else putFields w s

/-- LOG_ and PWR_ registers. -/
def tailPut (w : RegW) (s : State) : State :=
  let a := w.base
  if a = 0x940010 then logCur (w.new R.LOG_CUR_INDEX s) s
  else if 0x980000 ≤ a ∧ a < 0x980060 then
    let d := (a - 0x980000) / 4
    if w.hits (R.PWR_DOM_EN d) then domPut d (w.new (R.PWR_DOM_EN d) s == 1) s else s
  else putFields w s

/-- A word of a loop record (R283): APPLY is not held. -/
def loopPut (w : RegW) (s : State) : State :=
  let id := (w.base - 0x1000000) / 32
  let i := w.base % 32 / 4
  let o := loopRead id i s
  let kept := o - (o &&& w.en)
  loopWrite id i ((kept + (w.v &&& w.en))) s

/-- A mapped register is written (R8, R9, R15 to R17). `sub` is SUBMIT of a function's mailbox. -/
def regPut (sub : Nat → State → State) (x : Src) (w : RegW) (s : State) : State :=
  let a := w.base
  if w.partialCmd then s.undef 6
  else if w.reservedHit then s.undef 1
  else if 0x10000000 ≤ a then fnPut sub (a / 0x10000000) (a % 0x10000000) w s
  else if a < 0x10000 then hubPut sub x w s
  else if a < 0x401000 then (if a % 0x100 = 0 then pmxCtlPut ((a - 0x400000) / 0x100) w s else putFields w s)
  else if a < 0x500000 then dspPut w s
  else if a < 0x600000 then memPut w s
  else if a < 0x700000 then pegRegPut w s
  else if a < 0x800000 then lnkPut w s
  else if a < 0x900000 then lightPut x w s
  else if a < 0x940000 then ftmPut w s
  else if a < 0x1000000 then tailPut w s
  else loopPut w s

/-! ## Parts of an access (R326, R327) -/

/-- Mask of `n` bytes from byte `i` on. -/
def byteMask (i n : Nat) : Nat := (2 ^ (8 * n) - 1) * 2 ^ (8 * i)

/-- The 32-bit word at `a` is written from byte `i` on with `bs`: at once, or by way of the requester's latch (R327). -/
def writeWord (sub : Nat → State → State) (x : Src) (a i : Nat) (bs : List Byte) (s : State) : State :=
  let v := leNat bs * 2 ^ (8 * i)
  let en := byteMask i bs.length
  if 0x800000 ≤ a ∧ a < 0x800800 then stagePart (a - 0x800000) i bs s
  else match regAt a with
  | none => s.incSat R.HUB_ACCESS_STAT_UNMAPPED
  | some (base, wide, fs) =>
    if fs.isEmpty then s.incSat R.HUB_ACCESS_STAT_UNMAPPED
    else if !wide then regPut sub x { base := base, fs := fs, v := v, en := en } s
    else
      let l := s.latch x.key
      let (hv, he) := match l.wrLow with
        | some (b, hv, he) => if b = base then (hv, he) else (0, 0)
        | none => (0, 0)
      if a = base then s.putLatch x.key { l with wrLow := some (base, (hv - (hv &&& en)) + (v &&& en), he ||| en) }
      else
        let s := if he = 0 then s else s.putLatch x.key { l with wrLow := none }
        regPut sub x { base := base, fs := fs, v := hv + v * 2 ^ 32, en := he + en * 2 ^ 32 } s

/-- One part of a write at offset `off`. -/
def writePart (sub : Nat → State → State) (x : Src) (off i : Nat) (bs : List Byte) (s : State) : State :=
  let p := x.place off
  let v := leNat bs * 2 ^ (8 * i)
  match x.gate (p.gateAt x) s with
  | .notDecoded => s
  | .preLevel => s.incSat R.HUB_LEVEL_STAT_PRE_LEVEL
  | .unreleased => if p = .tenantless then s else s.incSat R.HUB_ACCESS_STAT_UNMAPPED
  | .pass => match p with
    | .reg a => writeWord sub x a i bs s
    | .vfId => if v &&& 0xFFFFF0E0 ≠ 0 then s.undef 1 else s
    | .tenantless => s
    | .unmapped => s.incSat R.HUB_ACCESS_STAT_UNMAPPED

/-- A write of `bs` at offset `off` (R326). -/
def writeBytes (sub : Nat → State → State) (x : Src) (off : Nat) (bs : List Byte) (s : State) : State :=
  (splitWords (bs.length + 1) off bs).foldl (fun s (w, i, part) => writePart sub x w i part s) s

/-- The RC fields of `fs` that `en` touches are cleared. -/
def clearRc (fs : List Fld) (en : Nat) (s : State) : State :=
  fs.foldl (fun s f => if f.acc = .rc ∧ nfld en f.lo f.width ≠ 0 then s.set f 0 else s) s

/-- The 32-bit word at `a` is read at the bytes of `en` (R326, R327): its value, and the state after the read. -/
def readWord (x : Src) (a en : Nat) (s : State) : Nat × State :=
  let l := s.latch x.key
  let v := s.wordAt a
  match regAt a with
  | none => (v, s.putLatch x.key { l with rdAddr := none })
  | some (base, wide, fs) =>
    if !wide then (v, clearRc fs en (s.putLatch x.key { l with rdAddr := none }))
    else if a = base then
      (v, clearRc fs (en + (2 ^ 32 - 1) * 2 ^ 32) (s.putLatch x.key { l with rdAddr := some base, rdHigh := s.wordAt (base + 4) }))
    else if l.rdAddr = some base then (l.rdHigh, s.putLatch x.key { l with rdAddr := none })
    else (v, clearRc fs ((2 ^ 32 - 1) * 2 ^ 32) (s.putLatch x.key { l with rdAddr := none }))

/-- VF_ID of VF `f`. -/
def vfIdWord (f : Nat) (s : State) : Nat := (if f < 16 then f + 16 else 0) + 2 ^ 8 * s.get R.HUB_LEVEL_STAT_EFFECTIVE

/-- One part of a read of `n` bytes from byte `i` of the word at `off`: the bytes, or nothing where no answer comes. -/
def readPart (x : Src) (off i n : Nat) (s : State) : Option (List Byte) × State :=
  let p := x.place off
  let cut (w : Nat) : Option (List Byte) := some (((leBytes 4 w).drop i).take n)
  let other := s.putLatch x.key { s.latch x.key with rdAddr := none }
  match x.gate (p.gateAt x) s with
  | .notDecoded => (none, s)
  | .pass => (match p with
    | .reg a =>
      let (v, s) := readWord x a (byteMask i n) s
      (cut v, s)
    | .vfId => (cut (vfIdWord (match x with
      | .req (.fn f) => f.val
      | _ => 0) s), other)
    | _ => (cut 0, other))
  | _ => (cut 0, other)

/-- A read of `n` bytes at offset `off` (R326): its parts in ascending order. -/
def readBytes (x : Src) (off n : Nat) (s : State) : Option (List Byte) × State :=
  (splitWords (n + 1) off (List.replicate n 0)).foldl (fun acc (w, i, part) =>
    let (b, t) := readPart x w i part.length acc.2
    (match acc.1, b with
      | some u, some v => some (u ++ v)
      | _, _ => none, t)) (some [], s)

/-- A host's or hart's read: its reply (R328). -/
def busRead (r : Requester) (off n : Nat) (s : State) : State :=
  match readBytes (.req r) off n s with
  | (some bs, s) => s.answer (.data bs)
  | (none, s) => s.answer .none

end Sys2Proof.Machine
end

