-- ==== Sys2Proof/Machine/Musyn.lean ====
section
/-!
DEFINITION. The Musyn server (spec 13_host_and_musyn.md, R336 to R343, R352 to R354): permits, REG_READ and REG_WRITE, every EXEC by its entry,
READ, WRITE, DESCRIBE and NEXT, and SUBMIT of a mailbox.
-/

namespace Sys2Proof.Machine

/-! ## CAN restart (R345, R346, R350) -/

/-- The controller restarts: the node number applies, DUP_NODE, the error counters and every counter of an identifier clear, and nothing
waits to be sent. -/
def canRestartNow (s : State) : State :=
  let s := { s with can := { s.can with txq := [], txn := none, dup := [], good := [] } }
  canStart (((s.set R.HUB_CAN_STAT_DUP_NODE 0).set R.HUB_CAN_STAT_TEC 0).set R.HUB_CAN_STAT_REC 0)

/-! ## Permits (R352 to R354) -/

/-- PERMIT_CLAIM of the resources in a mask: granted whole or refused whole. Resources 78 and 79 are never granted. -/
def permitClaim (mask path : Nat) (s : State) : CmdRes × State :=
  let rs := bitList mask 80
  match firstHeld s rs with
  | some (r, h) => (.busy r h, s)
  | none => match rs.find? fun r => decide (78 ≤ r) with
    | some r => (.busy r 0, s)
    | none => (.ok, grant (holder path 1) rs s)

/-- PERMIT_RELEASE: explicit claims of the path, or of every path with FORCE. -/
def permitRelease (mask : Nat) (force : Bool) (path : Nat) (s : State) : CmdRes × State :=
  if force ∧ path ≠ 1 then (.hostOnly, s)
  else
    (.ok, freePermits ((bitList mask 80).filter fun r =>
      let h := s.get (R.HUB_PERMIT_HOLDER r)
      h % 256 == 1 && (force || h == holder path 1)) s)

/-! ## REG_READ, REG_WRITE (R338) -/

/-- REG_READ of up to 240 bytes. -/
def regReadCmd (off len path : Nat) (s : State) : CmdRes × State :=
  if 240 < len then (.code 4, s)
  else match readBytes (.musyn path) off len s with
  | (some bs, s) => (.data bs, s)
  | (none, s) => (.refused 0, s)

/-- REG_WRITE of 4 or 8 bytes as one aligned access. -/
def regWriteCmd (sub : Nat → State → State) (off : Nat) (bs : List Byte) (path : Nat) (s : State) : CmdRes × State :=
  if bs.length ≠ 4 ∧ bs.length ≠ 8 then (.code 3, s)
  else if off % bs.length ≠ 0 then (.code 4, s)
  else (.ok, writeBytes sub (.musyn path) off bs s)

/-! ## EXEC (R339) -/

/-- The argument of CMD entry 4.`i` with entry `e` has a length that fits. -/
def argLength (i n : Nat) (e : OdEnt) : Bool :=
  if i = 0x11 then n == 10 || n == 11
  else if i = 0x72 then decide (4 < n ∧ n ≤ 240)
  else if i = 0xF1 then n == 8 || n == 12
  else n == e.size

/-- The command of a register that entry names: while one is in progress the EXEC is refused (log entry 16). -/
def ofReg (c : CmdReg) (path : Nat) (eff : Nat → State → CmdRes × State) (s : State) : CmdRes × State :=
  if s.cmdBusy c then (.refused 0, s) else eff path s

/-- The commands with registers of their own: resets, Scribe, lasers, headgates. `n` is the argument as a number. -/
def execReg (i n path : Nat) (s : State) : CmdRes × State :=
  let bad : CmdRes × State := (.code 4, s)
  let cause := if path = 2 then 3 else 2
  if i = 0 then (if n = 1 then ofReg presetCmd path (packageReset cause) s else bad)
  else if i = 1 then (if n = 1 then ofReg cresetCmd path (computeReset cause) s else bad)
  else if i = 0x20 then ofReg scbCmd path (fun path => scbCalibrate path (n % 2 ^ 64) (n / 2 ^ 64)) s
  else if i = 0x21 then ofReg scbCmd path (fun _ => scbAbortCmd n) s
  else if i = 0x30 then
    (if 256 ≤ n then bad else ofReg lasCmd path (match lasOp (n / 16) (n % 16) with
      | some f => f
      | none => fun _ s => (.refused 0, lasRefused s)) s)
  else if i = 0x31 then (if 16 ≤ n then bad else ofReg verifyCmd path (verifyLaser n) s)
  else if i = 0x50 then ofReg hdgCmd path hdgSwap s
  else if n ≤ 1 then ofReg hdgCmd path (hdgResync n) s else bad

/-- Firmware, slots, ledger and configuration store: entries 4.0070 to 4.0076, from the PF's mailbox only. -/
def execFw (i n path : Nat) (data : List Byte) (s : State) : CmdRes × State :=
  pfOnly path (fun s =>
    if i = 0x70 then fwStage (n % 2 ^ 64) (n / 2 ^ 64) path s
    else if i = 0x71 then fwBegin n path s
    else if i = 0x72 then fwData (n % 2 ^ 32) (data.drop 4) s
    else if i = 0x73 then fwAbort s
    else if i = 0x74 then bootSlot n s
    else if i = 0x75 then ledgerRetry n s
    else cfgReset path s) s

/-- EXEC of entry 4.`i` with argument bytes `data` by path `path`. -/
def musExec (sub : Nat → State → State) (i path : Nat) (data : List Byte) (s : State) : CmdRes × State :=
  let n := leNat data
  if i = 0x10 then permitClaim n path s
  else if i = 0x11 then permitRelease (n % 2 ^ 80) (n / 2 ^ 80 == 1) path s
  else if i = 0x40 then selftestStart n path s
  else if i = 0x60 then (.ok, canRestartNow s)
  else if 0x70 ≤ i ∧ i ≤ 0x76 then execFw i n path data s
  else if i = 0x80 then pfOnly path (logClear path) s
  else if i = 0xF0 then regReadCmd (n % 2 ^ 32) (n / 2 ^ 32) path s
  else if i = 0xF1 then regWriteCmd sub (n % 2 ^ 32) (data.drop 4) path s
  else execReg i n path s

/-! ## READ, WRITE, DESCRIBE, NEXT (R341, R342) -/

/-- A response with data, and TOTAL. -/
def MResp.bytes (total : Nat) (bs : List Byte) : MResp := { status := 0, holder := 0, resource := 0, total := total, data := bs }

/-- READ of entry `a`.`i`: a snapshot of its range. -/
def musRead (can : Bool) (a i : Nat) (e : OdEnt) (off len : Nat) (s : State) : MResp :=
  let total := odTotal a i e s
  match e.acc with
  | .wo => MResp.code 1
  | .cmd => MResp.code 2
  | _ =>
    if total < off ∨ (!can ∧ 240 < len) ∨
        (a = 6 ∧ i = 0x10 ∧ (off % 64 ≠ 0 ∨ len % 64 ≠ 0 ∨ (!can ∧ 192 < len))) then MResp.code 3
    else MResp.bytes total ((odRead a i e off len s).take (total - off))

/-- WRITE of entry `a`.`i`: every writable entry has a fixed size, which the write covers. A persisting one is refused while another path
holds the configuration store. -/
def musWrite (path i : Nat) (e : OdEnt) (off len : Nat) (data : List Byte) (s : State) : MResp × State :=
  let h := s.get (R.HUB_PERMIT_HOLDER permConfig)
  if e.acc ≠ .rw ∧ e.acc ≠ .rwp then (MResp.code 2, s)
  else if off ≠ 0 ∨ len ≠ e.size then (MResp.code 3, s)
  else if e.acc = .rwp ∧ h ≠ 0 ∧ h / 256 ≠ path then ((CmdRes.busy permConfig h).resp, s)
  else
    let (st, s) := settingWrite i (leNat data) s
    (if st = 0 then MResp.bytes e.size [] else MResp.code st, s)

/-- A free value of `n` bytes for bytes that the spec does not state. -/
def freeBytes (n : Nat) (s : State) : List Byte × State :=
  let (v, s) := s.free
  (leBytes n v, s)

/-- Access code of DESCRIBE. -/
def OdAcc.code : OdAcc → Nat
  | .ro => 0
  | .rw => 1
  | .rwp => 2
  | .wo => 3
  | .cmd => 4

/-- DESCRIBE: 24 bytes. A class, default or unit that the spec does not state is free. -/
def musDescribe (a i : Nat) (e : OdEnt) (s : State) : MResp × State :=
  let (c, s) : List Byte × State := match e.cls with
    | some c => (leBytes 1 c, s)
    | none => freeBytes 1 s
  let (d, s) : List Byte × State := match e.dflt with
    | some d => (leBytes 8 d, s)
    | none => freeBytes 8 s
  let (u, s) : List Byte × State := match e.unit with
    | some u => (padTo 8 (u.map (BitVec.ofNat 8)), s)
    | none => freeBytes 8 s
  let total := odTotal a i e s
  (MResp.bytes total (leBytes 1 e.ty ++ leBytes 1 e.acc.code ++ c ++ leBytes 1 0 ++ leBytes 4 total ++ d ++ u), s)

/-- NEXT: the first entry after `a`.`i`. -/
def musNext (a i : Nat) : MResp :=
  match odNext a i with
  | some (b, j) => MResp.bytes 4 (leBytes 1 b ++ leBytes 1 0 ++ leBytes 2 j)
  | none => MResp.code 1

/-- Entry 4.`i` is not for CAN (R339). -/
def canBarred (i : Nat) : Bool := i == 0x80 || decide (0x70 ≤ i ∧ i ≤ 0x7F)

/-- The server performs a request of path `path`; `vf`: through a VF's mailbox. -/
def musPerform (sub : Nat → State → State) (path : Nat) (vf : Bool) (op a i off len : Nat) (data : List Byte) (s : State) : MResp × State :=
  if op = 5 then (musNext a i, s)
  else if op = 0 ∨ 5 < op then (MResp.code 10, s)
  else match odEntry a i with
  | none => (MResp.code 1, s)
  | some e =>
    if vf && (a == 1 || a == 4 || op == 2) then (MResp.code 9, s)
    else if path = 2 ∧ a = 4 ∧ canBarred i then (MResp.code 9, s)
    else if path = 2 ∧ 4096 < len then (MResp.code 4, s)
    else if op = 1 then (musRead (path == 2) a i e off len s, s)
    else if op = 2 then musWrite path i e off len data s
    else if op = 4 then musDescribe a i e s
    else if e.acc ≠ .cmd then (MResp.code 2, s)
    else if !argLength i len e then (MResp.code 3, s)
    else
      let (r, s) := musExec sub i path data s
      (r.resp, s)

/-! ## SUBMIT (R340) -/

/-- A SUBMIT inside a request of a mailbox finds that mailbox BUSY; none starts. -/
def noSub : Nat → State → State := fun _ s => s

/-- The request buffer of function `f`. -/
def State.mbxReq (s : State) (f : Nat) : List Byte := (List.range 64).flatMap fun j => leBytes 4 (s.get (R.HUB_MBX_REQ_WORD f j))

/-- Field of `n` bytes at `o` of a request. -/
def reqFld (bs : List Byte) (o n : Nat) : Nat := leNat ((bs.drop o).take n)

/-- SUBMIT of function `f`'s mailbox: the request in its buffer is performed. -/
def mbxSubmit (f : Nat) (s : State) : State :=
  let b := s.mbxReq f
  let op := reqFld b 0 1
  let a := reqFld b 1 1
  let i := reqFld b 2 2
  let len := reqFld b 8 2
  if !musServed (.mbx 0 0) op a i s then s
  else mbxServe f op (reqFld b 10 2) (musPerform noSub 1 (f != 0) op a i (reqFld b 4 4) len ((b.drop 16).take (min len 240))) s

/-- A SUBMIT that a request over CAN writes to the PF's mailbox is the next request of the server: STATUS reads BUSY. -/
def canSub (f : Nat) (s : State) : State := s.set (R.HUB_MBX_CMD_STATUS f) 1

/-- What a request over CAN has submitted is performed after it (R337). `was`: the mailbox was BUSY before. -/
def canSubmitted (was : Bool) (s : State) : State :=
  if !was && s.get (R.HUB_MBX_CMD_STATUS 0) == 1 then mbxSubmit 0 s else s

/-- A request in the mailbox of function `f` as the row of its operation hands it over. -/
def mbxRow (op : Nat) (f : Fn) (h : MbxHdr) (data : List Byte) (s : State) : State :=
  let a := h.area.toNat
  let i := h.index.toNat
  let off := h.offset.toNat
  let len := h.length.toNat
  if !musServed (.mbx f h.tag) op a i s || regGate (.fn f) (0x10000000 * f.val + 0x1000) s != .pass then s
  else mbxRequest f.val op h.tag.toNat (reqBytes op a i off len h.tag.toNat data)
    (musPerform noSub 1 (f.val != 0) op a i off len ((padTo 240 data).take len)) s

/-- The response of function `f`'s mailbox is complete (R343): DONE, and vector 0 fires. -/
def mbxDone (f : Nat) (s : State) : State :=
  if s.get (R.HUB_MBX_CMD_STATUS f) = 1 then fireVec f 0 (s.set (R.HUB_MBX_CMD_STATUS f) 2) else s

/-! ## Commands -/

/-- MBX_READ (R342). -/
def execMbxRead (f : Fn) (h : MbxHdr) (s : State) : Out := .next (mbxRow 1 f h [] s)

/-- MBX_WRITE (R342). -/
def execMbxWrite (f : Fn) (h : MbxHdr) (data : List Byte) (s : State) : Out := attempt (mbxRow 2 f h data) s

/-- MBX_DESCRIBE (R341). -/
def execMbxDescribe (f : Fn) (h : MbxHdr) (s : State) : Out := .next (mbxRow 4 f h [] s)

/-- MBX_NEXT (R341). -/
def execMbxNext (f : Fn) (h : MbxHdr) (s : State) : Out := .next (mbxRow 5 f h [] s)

/-- MBX_RESPONSE_COMPLETE (R343). -/
def execMbxResponseComplete (f : Fn) (s : State) : Out := .next (mbxDone f.val s)

/-- PERMIT_CLAIM (R353). -/
def execPermitClaim (p : MusynPath) (mask : BitVec 80) (s : State) : Out :=
  .next (viaMusyn p 3 4 0x10 (leBytes 10 mask.toNat) (permitClaim mask.toNat) s)

/-- PERMIT_RELEASE (R354). -/
def execPermitRelease (p : MusynPath) (mask : BitVec 80) (force : Bool) (s : State) : Out :=
  .next (viaMusyn p 3 4 0x11 (leBytes 10 mask.toNat ++ leBytes 1 (if force then 1 else 0)) (permitRelease mask.toNat force) s)

/-- REG_READ (R338). -/
def execRegRead (p : MusynPath) (off : BitVec 32) (len : BitVec 32) (s : State) : Out :=
  .next (viaMusyn p 3 4 0xF0 (leBytes 4 off.toNat ++ leBytes 4 len.toNat) (regReadCmd off.toNat len.toNat) s)

/-- REG_WRITE (R338). -/
def execRegWrite (p : MusynPath) (off : BitVec 32) (data : List Byte) (s : State) : Out :=
  let sub : Nat → State → State := match p with
    | .mbx _ _ => noSub
    | .can _ => canSub
  attempt (fun s => canSubmitted (s.get (R.HUB_MBX_CMD_STATUS 0) == 1 || musPath p == 1)
    (viaMusyn p 3 4 0xF1 (leBytes 4 off.toNat ++ data) (regWriteCmd sub off.toNat data) s)) s

end Sys2Proof.Machine
end

