-- ==== Sys2Proof/Machine/Can.lean ====
section
/-!
DEFINITION. The CAN FD transport (spec 13_host_and_musyn.md, R344 to R351): transactions, NMT, HEARTBEAT, duplicate identifiers, bus-off and
cancelled frames.
-/

namespace Sys2Proof.Machine

/-! ## Transactions (R347, R348) -/

/-- The server performs the transaction's request, and the response joins the transmit queue. -/
def canServe (txn op a i off len : Nat) (data : List Byte) (s : State) : State :=
  if !musServed (.can (BitVec.ofNat 8 txn)) op a i s then { s with can := { s.can with txn := none } }
  else
    let was := s.get (R.HUB_MBX_CMD_STATUS 0) == 1
    let (r, s) := musPerform canSub 2 false op a i off len (data.take len) s
    canSubmitted was (canReply txn op r s)

/-- A frame of `bs` for this node: one shorter than 8 bytes is ignored and counted (R347). -/
def canFrame (bs : List Byte) (eff : List Byte → State → State) (s : State) : State :=
  if !s.canServes then s
  else if bs.length < 8 then s.odInc 3 0x12 32
  else eff (padTo 64 bs) (canRx 1 s)

/-- An INIT of the manager: SEQUENCE during another transaction; the same TXN supersedes. A WRITE or EXEC with more than 48 data bytes waits
for its segments. -/
def canInit (d : List Byte) (s : State) : State :=
  let txn := reqFld d 1 1
  let op := reqFld d 2 1
  let a := reqFld d 3 1
  let i := reqFld d 4 2
  let off := reqFld d 8 4
  let len := reqFld d 12 4
  if s.canBusy txn then canRespond txn op (MResp.code 8) s
  else
    let s := canAbortTxn 3 s
    if (op = 2 ∨ op = 3) ∧ 48 < len ∧ len ≤ 4096 then
      let t : CanTxn := { txn := txn, op := op, area := a, index := i, offset := off, length := len, nextSeg := 1, data := d.drop 16,
                          answered := false }
      { s with can := { s.can with txn := some t } }
    else canServe txn op a i off len (d.drop 16) s

/-- A SEG of the manager: 60 bytes more, or an abort with reason 2. -/
def canSeg (d : List Byte) (s : State) : State :=
  match s.can.txn with
  | none => s
  | some t =>
    if t.answered || t.txn != reqFld d 1 1 || t.nextSeg != reqFld d 2 2 then canAbortTxn 2 s
    else
      let got := t.data ++ d.drop 4
      if t.length ≤ got.length then canServe t.txn t.op t.area t.index t.offset t.length got s
      else { s with can := { s.can with txn := some { t with nextSeg := t.nextSeg + 1, data := got } } }

/-- An ABORT of the manager. -/
def canAbort (txn : Nat) (s : State) : State :=
  if !s.canServes then s
  else
    let s := canRx 1 s
    match s.can.txn with
    | none => s
    | some t => if t.txn = txn then canAbortTxn 2 s else s

/-! ## NMT and HEARTBEAT (R345, R349) -/

/-- A HEARTBEAT joins the queue; one that still waits is cancelled. -/
def heartbeat (s : State) : State :=
  let bs := leBytes 1 (s.get R.HUB_BOOT_STEP) ++ leBytes 1 (s.get R.HUB_CAN_STAT_STATE) ++ leBytes 2 0 ++ leBytes 4 s.alertWord ++
    leBytes 4 (s.odGet 3 1 0) ++ leBytes 4 s.trace
  canSend 0xE none bs { s with can := { s.can with txq := s.can.txq.filter fun f => f.ident / 128 != 0xE || f.won } }

/-- An NMT frame for node `n` reaches this node. -/
def State.nmtHears (s : State) (n : Nat) : Bool :=
  (s.canServes || s.get R.HUB_CAN_STAT_STATE == 4) && (n == 0 || n == s.get R.HUB_CAN_STAT_NODE)

/-- IDENTIFY. -/
def nmtIdentify (n : Nat) (s : State) : State := if s.nmtHears n then heartbeat (canRx 1 s) else s

/-- RESUME acts as OD 4.0060, in listen-only too. -/
def nmtResume (n : Nat) (s : State) : State := if s.nmtHears n then canRestartNow (canRx 1 s) else s

/-- HEARTBEAT_MS has passed. -/
def heartbeatDue (s : State) : State := if s.setting 3 = 0 then s else heartbeat s

/-! ## Frames on the bus (R344, R350, R351) -/

/-- The error state that TEC implies (ISO 11898-1; log entry 33). -/
def canConfine (s : State) : State := if s.canServes then s.set R.HUB_CAN_STAT_STATE (if 128 ≤ s.get R.HUB_CAN_STAT_TEC then 2 else 1) else s

/-- The first frame with identifier `i` leaves the queue. -/
def dropFrame (i : Nat) : List CanFrame → List CanFrame
  | [] => []
  | f :: r => if f.ident = i then r else f :: dropFrame i r

/-- The transaction ends with its last frame. -/
def txnEnd (s : State) : State :=
  match s.can.txn with
  | some t => if t.answered && !s.can.txq.any (fun f => f.txn == some t.txn) then { s with can := { s.can with txn := none } } else s
  | none => s

/-- A frame with identifier `i` is sent without error: it counts, one whose cancel came too late counts in 3.0013 too, and 64 in a row
return the identifier's duplicate counter to 0. -/
def frameSent (i : Nat) (s : State) : State :=
  if !s.canServes then s
  else match s.can.txq.find? fun f => f.ident == i with
  | none => s
  | some f =>
    let s := s.odInc 3 0x10 32
    let s := if f.won then s.odInc 3 0x13 16 else s
    let n := tget 0 s.can.good i + 1
    let c := { s.can with txq := dropFrame i s.can.txq, good := tset 0 i (n % 64) s.can.good,
                          dup := if n = 64 then tset 0 i 0 s.can.dup else s.can.dup }
    txnEnd (canConfine ({ s with can := c }.set R.HUB_CAN_STAT_TEC (s.get R.HUB_CAN_STAT_TEC - 1)))

/-- A bit error after the arbitration field of the frame with identifier `i` that is being sent (R350). -/
def bitError (i : Nat) (s : State) : State :=
  if !s.canServes || !s.can.txq.any (fun f => f.ident == i) then s
  else
    let s := (s.odInc 3 0x14 16).odInc 3 0x12 32
    let n := tget 0 s.can.dup i + 1
    let s := { s with can := { s.can with dup := tset 0 i n s.can.dup, good := tset 0 i 0 s.can.good } }
    let s := canConfine (s.incSat R.HUB_CAN_STAT_TEC 8)
    if n = 8 then
      logAlert alertDupNode 13 0xFF 0x0800 (leBytes 2 i) ((s.set R.HUB_CAN_STAT_STATE 4).set R.HUB_CAN_STAT_DUP_NODE 1)
    else s

/-- Bus-off (R344): counted and logged, with a free identifier. Once in bus-off, the standard's recovery sequence ends (log entry 33). -/
def busOff (s : State) : State :=
  let st := s.get R.HUB_CAN_STAT_STATE
  if st = 3 then ((s.set R.HUB_CAN_STAT_STATE 1).set R.HUB_CAN_STAT_TEC 0).set R.HUB_CAN_STAT_REC 0
  else if !s.canServes then s
  else
    let (v, s) := s.free
    logEvent 13 0xFF 0x0800 (leBytes 2 (v % 2048)) (((s.odInc 3 0x15 16).set R.HUB_CAN_STAT_STATE 3).set R.HUB_CAN_STAT_TEC 255)

/-- A cancel request for the frame with identifier `i` (R351): one that has won arbitration is sent in full. -/
def cancelFrame (i : Nat) (won : Bool) (s : State) : State :=
  if won then { s with can := { s.can with txq := match s.can.txq.find? fun f => f.ident == i with
    | none => s.can.txq
    | some f => { f with won := true } :: dropFrame i s.can.txq } }
  else txnEnd { s with can := { s.can with txq := dropFrame i s.can.txq } }

/-! ## Commands -/

/-- CAN_INIT (R348). -/
def execCanInit (data : List Byte) (s : State) : Out := attempt (canFrame data canInit) s

/-- CAN_SEG (R348). -/
def execCanSeg (data : List Byte) (s : State) : Out := attempt (canFrame data canSeg) s

/-- CAN_ABORT (R348). -/
def execCanAbort (txn : Byte) (_reason : Byte) (s : State) : Out := .next (canAbort txn.toNat s)

/-- CAN_TXN_TIMEOUT (R348). -/
def execCanTxnTimeout (s : State) : Out := .next (canAbortTxn 1 s)

/-- NMT_IDENTIFY (R345). -/
def execNmtIdentify (node : BitVec 7) (s : State) : Out := .next (nmtIdentify node.toNat s)

/-- NMT_RESUME (R345). -/
def execNmtResume (node : BitVec 7) (s : State) : Out := .next (nmtResume node.toNat s)

/-- CAN_RESTART (R346). -/
def execCanRestart (p : MusynPath) (s : State) : Out :=
  .next (viaMusyn p 3 4 0x60 (leBytes 1 0) (fun _ s => (.ok, canRestartNow s)) s)

/-- CAN_HEARTBEAT (R349). -/
def execCanHeartbeat (s : State) : Out := .next (heartbeatDue s)

/-- CAN_BIT_ERROR (R350). -/
def execCanBitError (ident : BitVec 11) (s : State) : Out := .next (bitError ident.toNat s)

/-- CAN_BUS_OFF (R344). -/
def execCanBusOff (s : State) : Out := .next (busOff s)

/-- CAN_CANCEL_REQUEST (R351). -/
def execCanCancelRequest (ident : BitVec 11) (wonArbitration : Bool) (s : State) : Out := .next (cancelFrame ident.toNat wonArbitration s)

/-- CAN_FRAME_SENT (R350). -/
def execCanFrameSent (ident : BitVec 11) (s : State) : Out := .next (frameSent ident.toNat s)

end Sys2Proof.Machine
end

