-- ==== Sys2Proof/Machine/Frames.lean ====
section
/-!
DEFINITION. A frame arrives at a port (spec 08_usius_links.md, R199, R202 to R206, R219; 06_memory_and_remote_access.md, R152; Tables
8.3 to 8.6 and 12.2): its bytes are read, checked, and what it carries is performed, answered or forwarded.
-/

namespace Sys2Proof.Machine

/-! ## Reading a frame -/

/-- The transaction at the front of `bs`, and the bytes after it (Table 8.4); READ has no data. -/
def readXact (bs : List Byte) : Option (Xact × List Byte) :=
  if bs.length < 16 then none
  else
    let a := leNat (bs.take 8)
    let b := leNat ((bs.drop 8).take 8)
    let size := nfld a 13 9
    let n := if nfld a 0 8 = 2 then 0 else size
    let rest := bs.drop 16
    if rest.length < (n + 7) / 8 * 8 then none
    else some (mkXact (nfld a 0 8) (nfld a 8 5) size (nfld a 22 10) (nfld a 32 16) (nfld a 48 16 + 2 ^ 16 * nfld b 0 16) (nfld b 16 48)
      (rest.take n), rest.drop ((n + 7) / 8 * 8))

/-- `n` transactions from the front of `bs`, and the bytes after them. -/
def readXacts : Nat → List Byte → Option (List Xact × List Byte)
  | 0, bs => some ([], bs)
  | n + 1, bs => do
    let (x, r) ← readXact bs
    let (xs, r) ← readXacts n r
    some (x :: xs, r)

/-- What arrives: a link body, or a frame of class 0 to 2 with its LSEQ. -/
inductive Arrived where
  | body (bs : List Byte)
  | frame (f : Frame) (lseq : Nat)
  deriving DecidableEq, Repr

/-- The frame that `bs` spells, where its LEN is its length and its CRC passes (R202, R204); `none` for a failing one. A frame whose
transactions do not fit its length has no CRC where it would be looked for, and fails too. -/
def readFrame (bs : List Byte) : Option Arrived := do
  let a := leNat (bs.take 8)
  let b := leNat ((bs.drop 8).take 8)
  let hops := nfld a 12 4
  let lseq := nfld b 16 16
  let rest := bs.drop 16
  let cls := nfld a 10 2
  let (xs, tail) ← if cls = 3 then some ([], rest.drop 16) else readXacts (nfld a 7 3 + 1) rest
  let body := rest.take (rest.length - tail.length)
  let head := leBytes 8 (a - hops * 2 ^ 12) ++ leBytes 8 (b - lseq * 2 ^ 16)
  if bs.length ≠ 8 * nfld a 0 7 ∨ nfld a 0 7 < 5 ∨ 64 < nfld a 0 7 ∨ tail.length < 4 then none
  else if leNat (tail.take 4) ≠ crc32 (head ++ body) then none
  else if cls = 3 then some (.body body)
  else some (.frame { cls := cls, dst := nfld a 16 20, src := nfld a 36 20, flow := nfld b 0 16, hops := hops, xs := xs } lseq)

/-- Fields of a LINK_ACK body (Table 8.6). -/
def readAck (a b : Nat) : LinkAckBody :=
  { nak := nbit a 8, ackseq := BitVec.ofNat 16 (nfld a 16 16), cr0 := BitVec.ofNat 16 (nfld a 32 16),
    cr1 := BitVec.ofNat 16 (nfld a 48 16), cr2 := BitVec.ofNat 16 (nfld b 0 16) }

/-- Fields of a TRAIN body (Table 8.6). -/
def readTrain (a b : Nat) : TrainBody :=
  { level := BitVec.ofNat 4 (nfld a 8 4), lightReq := nbit a 12, lightOk := nbit a 13, pkg := BitVec.ofNat 20 (nfld a 16 20),
    port := BitVec.ofNat 7 (nfld a 36 7), epoch := BitVec.ofNat 32 (nfld a 48 16 + 2 ^ 16 * nfld b 0 16),
    linesOk := BitVec.ofNat 16 (nfld b 16 16), features := BitVec.ofNat 32 (nfld b 32 32) }

/-- Fields of a TIME body (Table 12.2). -/
def readTime (a b : Nat) : TimeBody :=
  { msg := BitVec.ofNat 2 (nfld a 8 2), domain := if nbit a 10 then 1 else 0, trn := nbit a 11, hopsGm := BitVec.ofNat 4 (nfld a 12 4),
    seqid := BitVec.ofNat 16 (nfld a 16 16), stamp := BitVec.ofNat 64 (nfld a 32 32 + 2 ^ 32 * nfld b 0 32),
    gmPkg := BitVec.ofNat 20 (nfld b 32 20), gmLocked := nbit b 52 }

/-! ## What a frame does -/

/-- A link body arrives (R205: it is consumed at once); a reserved LTYPE and a reserved MSG have no effect. -/
def bodyArrived (p : Nat) (bs : List Byte) (s : State) : State :=
  let a := leNat (bs.take 8)
  let b := leNat ((bs.drop 8).take 8)
  match nfld a 0 8 with
  | 1 => ackIn p (readAck a b) s
  | 2 => trainIn p (readTrain a b) s
  | 3 =>
    let t := readTime a b
    match nfld a 8 2 with
    | 0 => syncIn p t s.time64 s
    | 1 => delayReqIn p t s.time64 s
    | 2 => delayRespIn p t s
    | _ => s
  | _ => s

/-- A transaction of a class 0 frame for this package is served (R151, R152, R175, R178). A reserved OP is NACKed with PERMISSION. A
RAISE_UP that cannot be held waits, and its frame with it. -/
def requestArrived (env : Envelope) (x : Xact) (s : State) : State :=
  match x.op.toNat with
  | 1 => remoteWrite env x.body s
  | 2 => remoteRead env x.body s
  | 3 => remoteAmo env x.body s
  | 4 => remotePegAdd env x.body s
  | 5 => remotePegSub env x.body s
  | 6 => if 1024 ≤ s.upHeld.length then s.stall else remoteRaise env x.body s
  | op => serve env op x.body (fun t s => refusedReq env t x.body 2 [] s) s

/-- A transaction of a class 1 frame for this package: the answer to a request of its own (R77, R158, R178). -/
def answerArrived (env : Envelope) (x : Xact) (s : State) : State :=
  match x.op.toNat with
  | 0x11 => onAnswer env 0x11 x.body (readDataArrived env x.body) s
  | 0x12 => onAnswer env 0x12 x.body (ackArrived env x.body) s
  | 0x13 => onAnswer env 0x13 x.body (nackArrived env x.body) s
  | 0x14 => onAnswer env 0x14 x.body (amoDataArrived env x.body) s
  | 0x15 => onAnswer env 0x15 x.body (ackUnderflowArrived env x.body) s
  | 0x16 => onAnswer env 0x16 x.body (raiseAnswerArrived env x.body) s
  | _ => s

/-- A transaction of class `cls` for this package is performed. -/
def xactArrived (cls : Nat) (env : Envelope) (x : Xact) (s : State) : State :=
  if cls = 0 then requestArrived env x s
  else if cls = 1 then answerArrived env x s
  else if s.packageResetting then s
  else fabricControl env.src.toNat x.op.toNat x.body.data s

/-- A frame for another package (R219): dropped and counted with HOPS = 0 or with no usable port, else it waits for its port and holds
its credits until it leaves. -/
def forwardFrame (p : Nat) (f : Frame) (s : State) : State :=
  if f.hops = 0 then (freeCredit p f.cls f.credits s).incSat (R.LNK_HOPDROP p)
  else if (s.usablePorts (f.dst % 65536)).isEmpty then (freeCredit p f.cls f.credits s).incSat (R.LNK_NOROUTE p)
  else { s.incWrap (R.LNK_TRANSIT p) with transit := s.transit ++ [(p, f.credits, { f with hops := f.hops - 1 })] }

/-- A frame with the expected LSEQ is accepted (R206). -/
def acceptFrame (p : Nat) (f : Frame) (s : State) : State :=
  let s := s.putPort p { s.port p with rxSeq := ((s.port p).rxSeq + 1) % 65536 }
  if f.dst % 65536 = s.pkg then
    let env : Envelope := { src := BitVec.ofNat 20 f.src, flow := BitVec.ofNat 16 f.flow }
    freeCredit p f.cls f.credits (f.xs.foldl (fun s x => xactArrived f.cls env x s) s)
  else forwardFrame p f s

/-- A frame fails its CRC (R206): it is counted, discarded, and NAKed at once while the link is UP. -/
def crcFailure (p : Nat) (s : State) : State :=
  let s := s.incWrap (R.LNK_CRC_ERR p)
  if s.portUp p then sendAck p true s else s

/-- The bytes of a frame arrive on port `p` (R199, R206). `codewordOk` is false when the frame overlaps a codeword that the decoder could
not correct; in light mode no parity is checked (R200). -/
def frameArrived (p : Nat) (bs : List Byte) (codewordOk : Bool) (s : State) : State :=
  let light := s.portUp p && !s.bit (R.LNK_STAT_FEC p)
  if !codewordOk && !light then crcFailure p (s.incWrap (R.LNK_FEC_UNCORR p))
  else match readFrame bs with
    | none => crcFailure p s
    | some (.body b) => bodyArrived p b s
    | some (.frame f lseq) => if s.portUp p ∧ lseq = (s.port p).rxSeq then acceptFrame p f s else s

/-- FRAME_RECEIVED (R206). -/
def execFrameReceived (p : Port) (bytes : List Byte) (codewordOk : Bool) (s : State) : Out :=
  attempt (frameArrived p.val bytes codewordOk) s

end Sys2Proof.Machine
end

