-- ==== Sys2Proof/Machine/HartData.lean ====
section
/-!
DEFINITION. Loads and stores of a hart (spec 02_cores_and_extensions.md, R43, R44, R47, R49; 06_memory_and_remote_access.md, R142, R146):
scalar integer and floating-point forms, the vector forms of the V extension that R41 cites (log entry 27), and device
control space.
-/

namespace Sys2Proof.Machine

/-- Bytes of an access size. -/
def sizeBytes : Size → Nat
  | .b => 1
  | .h => 2
  | .w => 4
  | .d => 8

/-- Effective address of a scalar access: rs1 plus the sign-extended immediate. -/
def memAddr (h : Hart) (rs1 : XReg) (imm : BitVec 12) : Nat := (h.rx rs1 + imm.signExtend 64).toNat

/-- A read of `n` bytes at `va` by hart `c`: the bytes, or the cause of its exception. Device control space answers as the registers of
PF BAR0 do (R146); where no answer comes, the hart waits. -/
def hartRead (c va n : Nat) (s : State) : Except Nat (List Byte) × State :=
  match hartResolve c .load va n s with
  | (.error e, s) => (.error e, s)
  | (.ok (.device off), s) =>
    if h : c < 1024 then
      match readBytes (.req (.hart ⟨c, h⟩)) off n s with
      | (some bs, s) => (.ok bs, s)
      | (none, s) => (.ok [], s.stall)
    else (.ok [], s)
  | (.ok p, s) =>
    match dataRead c p n s with
    | (some bs, s) => (.ok bs, s)
    | (none, s) => (.error 19, s)

/-- A write of `bs` at `va` by hart `c`: the cause of its exception, if it takes one. -/
def hartWrite (c va : Nat) (bs : List Byte) (s : State) : Option Nat × State :=
  match hartResolve c .store va bs.length s with
  | (.error e, s) => (some e, s)
  | (.ok (.device off), s) =>
    if h : c < 1024 then (none, writeBytes mbxSubmit (.req (.hart ⟨c, h⟩)) off bs s) else (none, s)
  | (.ok p, s) =>
    match dataWrite c p bs s with
    | (true, s) => (none, s)
    | (false, s) => (some 19, s)

/-! ## Scalar forms -/

/-- The released firmware emulates a misaligned scalar access of hart `c`: from U mode, the exception not delegated (R47, R48). -/
def emulated (c : Nat) (k : AccKind) (va n : Nat) (s : State) : Bool :=
  let h := s.hart c
  va % n != 0 && h.priv == .u && !nbit (h.csrVal csrMedeleg) k.misaligned

/-- The addresses at which the firmware checks an access: its own, and the start of a second page that it touches. -/
def emulPages (va n : Nat) : List Nat := if va / 4096 = (va + n - 1) / 4096 then [va] else [va, (va + n - 1) / 4096 * 4096 % 2 ^ 64]

/-- The cause and address of the first page that fails its checks. -/
def emulCheck (c : Nat) (k : AccKind) : List Nat → State → Option (Nat × Nat) × State
  | [], s => (none, s)
  | a :: r, s =>
    match hartResolve c k a 1 s with
    | (.error e, s) => (some (e, a), s)
    | (.ok _, s) => emulCheck c k r s

/-- The bytes from `va` on, one by one; or the cause and address of the byte that fails. -/
def emulRead (c va : Nat) : Nat → State → Except (Nat × Nat) (List Byte) × State
  | 0, s => (.ok [], s)
  | n + 1, s =>
    match hartRead c (va % 2 ^ 64) 1 s with
    | (.error e, s) => (.error (e, va % 2 ^ 64), s)
    | (.ok b, s) =>
      match emulRead c (va + 1) n s with
      | (.error e, s) => (.error e, s)
      | (.ok r, s) => (.ok (b ++ r), s)

/-- Bytes stored from `va` on, one by one, up to one that fails. -/
def emulWrite (c va : Nat) : List Byte → State → Option (Nat × Nat) × State
  | [], s => (none, s)
  | b :: r, s =>
    match hartWrite c (va % 2 ^ 64) [b] s with
    | (some e, s) => (some (e, va % 2 ^ 64), s)
    | (none, s) => emulWrite c (va + 1) r s

/-- The firmware has emulated the access: the exception was taken and returned from (log entry 36). -/
def Hart.emulDone (h : Hart) (cause va : Nat) : Hart :=
  let t := h.trap false cause va
  let t := ((t.setMst 3 1 (t.mst 7 1)).setMst 7 1 1).setMst 11 2 0
  { t with priv := h.priv, pc := h.pc }

/-- A scalar load: `put` lays the value into the hart. -/
def scalarLoad (c va n : Nat) (put : Nat → Hart → Hart) (s : State) : State :=
  if emulated c .load va n s then
    match emulCheck c .load (emulPages va n) s with
    | (some (e, a), s) => except c e a s
    | (none, s) =>
      match emulRead c va n s with
      | (.error (e, a), s) => except c e a s
      | (.ok bs, s) => s.putHart c (put (leNat bs) ((s.hart c).emulDone 4 va)).retire
  else
    match hartRead c va n s with
    | (.error e, s) => except c e va s
    | (.ok bs, s) => s.putHart c (put (leNat bs) (s.hart c)).retire

/-- A scalar store of the low `n` bytes of `v`. -/
def scalarStore (c va n v : Nat) (s : State) : State :=
  if emulated c .store va n s then
    match emulCheck c .store (emulPages va n) s with
    | (some (e, a), s) => except c e a s
    | (none, s) =>
      match emulWrite c va (leBytes n v) s with
      | (some (e, a), s) => except c e a s
      | (none, s) => s.putHart c ((s.hart c).emulDone 6 va).retire
  else
    match hartWrite c va (leBytes n v) s with
    | (some e, s) => except c e va s
    | (none, s) => retire c s

/-- FP register `r` at the loaded value: FLW fills the upper half with ones. -/
def Hart.loadF (h : Hart) (n : Nat) (rd : XReg) (v : Nat) : Hart :=
  let v := if n = 4 then v + (2 ^ 64 - 2 ^ 32) else v
  { h with f := tset 0 rd.toNat (BitVec.ofNat 64 v) h.f }.dirtyF

/-- The F and D extensions move words and doublewords. -/
def fpSize (sz : Size) : Bool := sz == .w || sz == .d

/-! ## Vector forms (V extension; log entry 27) -/

/-- What a vector access does: bytes of an element, fields, registers of a field's group, the active elements from vstart on with the
address of their first field, and whether a fault past element 0 only shortens vl. -/
structure VecPlan where
  w : Nat
  fields : Nat
  group : Nat
  elems : List (Nat × Nat)
  faultFirst : Bool

/-- Index `i` of `w` bytes in the group from `vs`. -/
def Hart.vIndex (h : Hart) (vs : XReg) (w i : Nat) : Nat := leNat ((List.range w).map fun j => h.vByte vs (i * w + j))

/-- Element `i` is active: not masked off by v0. -/
def Hart.vActive (h : Hart) (masked : Bool) (i : Nat) : Bool := !masked || nbit (h.vByte 0 (i / 8)).toNat (i % 8)

/-- Groups of `e8` eighths of a register, `fields` of them from `v` on, are legal. -/
def vecGroupOk (e8 fields : Nat) (v : XReg) : Bool :=
  decide (1 ≤ e8 ∧ e8 ≤ 64 ∧ max 1 (e8 / 8) * fields ≤ 8 ∧ v.toNat + max 1 (e8 / 8) * fields ≤ 32) && groupOk e8 v

/-- A vector access on the hart's vector state, `none` where it is not legal: VS Off, an illegal vtype, a group size outside 1/8 to 8
registers, a register that does not start a group, or a masked load into v0. -/
def vecPlan (h : Hart) (isLoad : Bool) (a : VecAcc) (v rs1 : XReg) : Option VecPlan :=
  let vt := h.csrVal csrVtype
  let base := h.rn rs1
  let eew := sizeBytes a.eew
  let sew := sewBytes vt
  let l8 := (lmul8 vt).getD 0
  let nf := a.nf.val + 1
  let start := h.csrVal csrVstart
  let elems (n : Nat) (off : Nat → Nat) : List (Nat × Nat) :=
    (((List.range (n - start)).map (· + start)).filter (h.vActive a.masked)).map fun i => (i, (base + off i) % 2 ^ 64)
  let typed (e8 : Nat) : Bool := vtypeOk vt && vecGroupOk e8 nf v && !(isLoad && a.masked && v == 0)
  let scaled := l8 * eew % sew == 0 && typed (l8 * eew / sew)
  let group := max 1 (l8 * eew / sew / 8)
  if h.mst 9 2 = 0 then none
  else match a.mode with
  | .unit => if scaled then some ⟨eew, nf, group, elems h.vl fun i => i * nf * eew, false⟩ else none
  | .faultFirst => if scaled && isLoad then some ⟨eew, nf, group, elems h.vl fun i => i * nf * eew, true⟩ else none
  | .strided rs2 => if scaled then some ⟨eew, nf, group, elems h.vl fun i => i * h.rn rs2, false⟩ else none
  | .indexed vs2 =>
    if l8 * eew % sew == 0 && vecGroupOk (l8 * eew / sew) 1 vs2 && typed l8 then
      some ⟨sew, nf, max 1 (l8 / 8), elems h.vl fun i => h.vIndex vs2 eew i, false⟩
    else none
  | .whole =>
    if !a.masked && [1, 2, 4, 8].contains nf && v.toNat % nf == 0 then
      some ⟨eew, 1, nf, elems (nf * 128 / eew) fun i => i * eew, false⟩
    else none
  | .mask =>
    if !a.masked && nf == 1 && eew == 1 && vtypeOk vt then some ⟨1, 1, 1, elems ((h.vl + 7) / 8) fun i => i, false⟩ else none

/-- An exception at element `i` of a vector access: vstart names it, and the elements before it stay done. Past element 0 of a
fault-only-first load, vl becomes `i` and the instruction ends. -/
def vecFault (c e va i : Nat) (faultFirst : Bool) (s : State) : State :=
  let h := (s.hart c).dirtyV
  if faultFirst ∧ 0 < i then s.putHart c ((h.setCsr csrVl i).setCsr csrVstart 0).retire
  else except c e va (s.putHart c (h.setCsr csrVstart i))

/-- A vector access is complete: vstart is 0 again. -/
def vecDone (c : Nat) (s : State) : State := s.putHart c (((s.hart c).setCsr csrVstart 0).dirtyV).retire

/-- The fields of element `i` at `va` are loaded into the groups from `v`; or the cause and address of the first fault. -/
def vecLoadElem (c : Nat) (p : VecPlan) (v : XReg) (i va : Nat) : List Nat → State → Option (Nat × Nat) × State
  | [], s => (none, s)
  | k :: r, s =>
    match hartRead c ((va + k * p.w) % 2 ^ 64) p.w s with
    | (.error e, s) => (some (e, (va + k * p.w) % 2 ^ 64), s)
    | (.ok bs, s) =>
      let h := s.hart c
      vecLoadElem c p v i va r (s.putHart c { h with v := putTab ((v.toNat + k * p.group) * 128 + i * p.w) bs h.v })

/-- The elements of a vector load, one by one. -/
def vecLoad (c : Nat) (p : VecPlan) (v : XReg) : List (Nat × Nat) → State → State
  | [], s => vecDone c s
  | (i, va) :: r, s =>
    match vecLoadElem c p v i va (List.range p.fields) s with
    | (some (e, a), s) => vecFault c e a i p.faultFirst s
    | (none, s) => vecLoad c p v r s

/-- The fields of element `i` are stored at `va` from the groups at `v`. -/
def vecStoreElem (c : Nat) (p : VecPlan) (v : XReg) (i va : Nat) : List Nat → State → Option (Nat × Nat) × State
  | [], s => (none, s)
  | k :: r, s =>
    let bs := (List.range p.w).map fun j => tget 0 (s.hart c).v ((v.toNat + k * p.group) * 128 + i * p.w + j)
    match hartWrite c ((va + k * p.w) % 2 ^ 64) bs s with
    | (some e, s) => (some (e, (va + k * p.w) % 2 ^ 64), s)
    | (none, s) => vecStoreElem c p v i va r s

/-- The elements of a vector store, one by one. -/
def vecStore (c : Nat) (p : VecPlan) (v : XReg) : List (Nat × Nat) → State → State
  | [], s => vecDone c s
  | (i, va) :: r, s =>
    match vecStoreElem c p v i va (List.range p.fields) s with
    | (some (e, a), s) => vecFault c e a i false s
    | (none, s) => vecStore c p v r s

/-! ## The instructions -/

/-- A load of hart `c`. A vector form takes its address from rs1 alone. -/
def load (c : Nat) (form : LoadForm) (rd rs1 : XReg) (imm : BitVec 12) (s : State) : State :=
  let h := s.hart c
  match form with
  | .int sz u =>
    if sz = .d ∧ u then illegal c s
    else scalarLoad c (memAddr h rs1 imm) (sizeBytes sz) (fun v h => h.wx rd (BitVec.ofNat 64 (loadValue (sizeBytes sz) u v))) s
  | .fp sz =>
    if !fpSize sz || h.mst 13 2 == 0 then illegal c s
    else scalarLoad c (memAddr h rs1 imm) (sizeBytes sz) (fun v h => h.loadF (sizeBytes sz) rd v) s
  | .vec a => match vecPlan h true a rd rs1 with
    | some p => vecLoad c p rd p.elems s
    | none => illegal c s

/-- A store of hart `c`. -/
def store (c : Nat) (form : StoreForm) (rs2 rs1 : XReg) (imm : BitVec 12) (s : State) : State :=
  let h := s.hart c
  match form with
  | .int sz => scalarStore c (memAddr h rs1 imm) (sizeBytes sz) (h.rn rs2) s
  | .fp sz =>
    if !fpSize sz || h.mst 13 2 == 0 then illegal c s
    else scalarStore c (memAddr h rs1 imm) (sizeBytes sz) (tget 0 h.f rs2.toNat).toNat s
  | .vec a => match vecPlan h false a rs2 rs1 with
    | some p => vecStore c p rs2 p.elems s
    | none => illegal c s

/-- LOAD (R43). -/
def execLoad (c : Core) (form : LoadForm) (rd rs1 : XReg) (imm : BitVec 12) (s : State) : Out :=
  attempt (onHart c (load c form rd rs1 imm)) s

/-- STORE (R43). -/
def execStore (c : Core) (form : StoreForm) (rs2 rs1 : XReg) (imm : BitVec 12) (s : State) : Out :=
  attempt (onHart c (store c form rs2 rs1 imm)) s

end Sys2Proof.Machine
end

