-- ==== Sys2Proof/Machine/HostRegs.lean ====
section
/-!
DEFINITION. The host's register accesses as commands (spec 13_host_and_musyn.md, R326 to R335; 07_pegs_raisings_queues.md, R181).
-/

namespace Sys2Proof.Machine

/-- A write of the whole register at PF address `a`. -/
def wholeWrite (r : Requester) (a v : Nat) (s : State) : State :=
  gated r a (fun s => match regAt a with
    | some (base, wide, fs) => regPut mbxSubmit (.req r) { base := base, fs := fs, v := v, en := 2 ^ (if wide then 64 else 32) - 1 } s
    | none => s) s

/-- Address of DSP_QBASE of queue (t, q). -/
def qbaseAddr (t q : Nat) : Nat := 0x420000 + 0x4000 * t + 0x40 * q

/-- Address of peg watch `w` of function `f`. -/
def pwatchAddr (f w : Nat) : Nat := 0x600 + 0x10000000 * f + 8 * w

/-- Number `v` with bit `i` set. -/
def withBit (i v : Nat) : Nat := nput v i true

/-- REGISTER_WRITE (R15, R326). -/
def execRegisterWrite (r : Requester) (off : BitVec 28) (data : List Byte) (s : State) : Out :=
  attempt (writeBytes mbxSubmit (.req r) off.toNat data) s

/-- RC_FIELD_READ (R326). -/
def execRcFieldRead (r : Requester) (off : BitVec 28) (len : Nat) (s : State) : Out := .next (busRead r off.toNat len s)

/-- LATCHED_64_READ (R327): one half of a 64-bit register. -/
def execLatched64Read (r : Requester) (off : BitVec 28) (s : State) : Out := .next (busRead r (off.toNat / 4 * 4) 4 s)

/-- LATCHED_64_WRITE (R327): one half of a 64-bit register. -/
def execLatched64Write (r : Requester) (off : BitVec 28) (val : BitVec 32) (s : State) : Out :=
  attempt (writePart mbxSubmit (.req r) (off.toNat / 4 * 4) 0 (leBytes 4 val.toNat)) s

/-- HUB_DRV_LEVEL_WRITE (R330). -/
def execHubDrvLevelWrite (r : Requester) (val : BitVec 32) (s : State) : Out := attempt (wholeWrite r 0x8 val.toNat) s

/-- MEM_FTAG_WRITE (R151). -/
def execMemFtagWrite (r : Requester) (t : Tenant) (val : BitVec 32) (s : State) : Out :=
  attempt (wholeWrite r (0x500180 + 4 * t.val) val.toNat) s

/-- QUEUE_ENABLE (R181): DSP_QBASE is written with EN = 1. -/
def execQueueEnable (r : Requester) (t : Tenant) (q : QNum) (base : BitVec 64) (s : State) : Out :=
  attempt (wholeWrite r (qbaseAddr t.val q.val) (withBit 0 base.toNat)) s

/-- QUEUE_DISABLE (R181): EN is written with 0. -/
def execQueueDisable (r : Requester) (t : Tenant) (q : QNum) (s : State) : Out :=
  .next (gated r (qbaseAddr t.val q.val) (queueDisableNow t.val q.val) s)

/-- PEG_WATCH_ENABLE (R335): a watch is written with EN = 1. -/
def execPegWatchEnable (f : Fn) (w : Fin 8) (val : BitVec 64) (s : State) : Out :=
  attempt (wholeWrite (.fn f) (pwatchAddr f.val w.val) (withBit 20 val.toNat)) s

/-- PEG_WATCH_DISABLE (R335): EN is written with 0. -/
def execPegWatchDisable (f : Fn) (w : Fin 8) (s : State) : Out :=
  .next (gated (.fn f) (pwatchAddr f.val w.val) (watchEn f.val w.val false) s)

end Sys2Proof.Machine
end

