-- ==== Sys2Proof/Machine/Hx.lean ====
section
/-!
DEFINITION. The HX instructions of a hart (spec 02_cores_and_extensions.md, R76 to R81): blocking remote loads and atomic
operations, posted remote stores, the vector forms, and the CRC-32C step.
-/

namespace Sys2Proof.Machine

/-- HX instructions are illegal below M mode without hcfg.HX_EN (R55). -/
def hxIllegal (h : Hart) : Bool := h.priv != .m && !h.hxEn

/-- An HX access of hart `c` to global address `a` (R47, R76): illegal, misaligned for `n` bytes with cause `mis`, without a route
(reason 5), or performed by `eff`. -/
def hxAccess (c : Nat) (fieldsOk : Bool) (a n mis : Nat) (eff : State → State) (s : State) : State :=
  if hxIllegal (s.hart c) || !fieldsOk then illegal c s
  else if a % n ≠ 0 then except c mis a s
  else if !s.hasRoute (nfld a 48 16) then remoteFault c a 5 s
  else eff s

/-- GLD (R77): a READ of 1, 2, 4 or 8 bytes; the hart waits for its response. -/
def gld (c f7 : Nat) (f : RFields) (s : State) : State :=
  let a := (s.hart c).rn f.rs1
  let n := 2 ^ (f7 % 4)
  hxAccess c (f7 / 8 == 0 && f.rs2 == 0) a n 4 (fun s =>
    let h := s.hart c
    let s := sendRequest c h.tenant (nfld a 48 16) 2 0 n h.reqno (a % 2 ^ 48) [] s
    s.putHart c { h.nextReq with wait := .gld h.reqno a n (nbit f7 2) f.rd }) s

/-- GST (R77): a posted WRITE. -/
def gst (c f7 : Nat) (f : RFields) (s : State) : State :=
  let h := s.hart c
  let a := h.rn f.rs1
  let n := 2 ^ (f7 % 4)
  hxAccess c (f7 / 4 == 0) a n 6 (fun s =>
    post c { kind := .write, addr := a, operand := n, elem := 0, data := leBytes n (h.rn f.rs2), rd := f.rd } s) s

/-- GAMO (R77, R80): an AMO on 4 or 8 bytes; for CAS the compare value is rd's value on entry, and follows the operand. -/
def gamo (c f7 : Nat) (f : RFields) (s : State) : State :=
  let h := s.hart c
  let a := h.rn f.rs1
  let n := 2 ^ (f7 % 4)
  let op := f7 / 4
  hxAccess c (decide (2 ≤ f7 % 4 ∧ op ≤ 9)) a n 6 (fun s =>
    let data := leBytes n (h.rn f.rs2) ++ (if op = 9 then leBytes n (h.rn f.rd) else [])
    let s := sendRequest c h.tenant (nfld a 48 16) 3 op data.length h.reqno (a % 2 ^ 48) data s
    s.putHart c { h.nextReq with wait := .gamo h.reqno a n f.rd }) s

/-- CRC32C (R81). -/
def crc32cInstr (c f7 : Nat) (f : RFields) (s : State) : State :=
  let h := s.hart c
  if hxIllegal h || f7 / 4 != 0 then illegal c s
  else retireRd c f.rd (crcBytes polyC (h.rn f.rs1 % 2 ^ 32) (leBytes (2 ^ (f7 % 4)) (h.rn f.rs2))) s

/-- A vector HX access has a legal configuration (R79): vstart 0, a legal vtype, a register group that starts at a multiple of its size,
and the vector state on (log entry 27). -/
def vgOk (h : Hart) (r : XReg) : Bool :=
  h.csrVal csrVstart == 0 && vtypeOk (h.csrVal csrVtype) && h.mst 9 2 != 0 && groupOk ((lmul8 (h.csrVal csrVtype)).getD 8) r

/-- Offsets and lengths of the READ transactions of `n` bytes (R203). -/
def readPiecesOf (off n : Nat) : Nat → List (Nat × Nat)
  | 0 => []
  | fuel + 1 => if n = 0 then [] else (off, min n 256) :: readPiecesOf (off + 256) (n - 256) fuel

/-- VGLD (R79): unit-stride; with vl 0 nothing is sent. -/
def vgld (c f7 : Nat) (f : RFields) (s : State) : State :=
  let h := s.hart c
  let a := h.rn f.rs1
  let w := sewBytes (h.csrVal csrVtype)
  hxAccess c (f7 == 0 && f.rs2 == 0 && vgOk h f.rd) a w 4 (fun s =>
    if h.vl = 0 then s.putHart c h.dirtyV.retire
    else
      let s := (readPiecesOf 0 (w * h.vl) (w * h.vl)).foldl (fun t (o, n) =>
        sendRequest c h.tenant (nfld a 48 16) 2 (if o + n < w * h.vl then 1 else 0) n h.reqno ((a + o) % 2 ^ 48) [] t) s
      s.putHart c { h.nextReq with wait := .vgld h.reqno a w h.vl f.rd [] }) s

/-- VGST (R79): one sequence number; with vl 0 no transaction leaves, so none is outstanding. -/
def vgst (c f7 : Nat) (f : RFields) (s : State) : State :=
  let h := s.hart c
  let a := h.rn f.rs1
  let w := sewBytes (h.csrVal csrVtype)
  hxAccess c (f7 == 0 && vgOk h f.rs2) a w 6 (fun s =>
    if h.vl = 0 then s.putHart c { (h.wx f.rd (BitVec.ofNat 64 h.hxseq)).retire with hxseq := (h.hxseq + 1) % 2 ^ 32 }
    else post c { kind := .write, addr := a, operand := w * h.vl, elem := w, data := h.vBytes f.rs2 (w * h.vl), rd := f.rd } s) s

/-- A posted request that waits for a tracker entry issues when one is free (R77). -/
def trackerResume (c : Nat) (s : State) : State :=
  let h := s.hart c
  if !s.coreOn c then s
  else match h.wait with
  | .tracker p => if h.track.length ≥ 256 then s else post c p s
  | _ => s

/-- GLD (R77). -/
def execGld (c : Core) (funct7 : BitVec 7) (f : RFields) (s : State) : Out := .next (onHart c (gld c funct7.toNat f) s)

/-- GST (R77). -/
def execGst (c : Core) (funct7 : BitVec 7) (f : RFields) (s : State) : Out := .next (onHart c (gst c funct7.toNat f) s)

/-- GAMO (R80). -/
def execGamo (c : Core) (funct7 : BitVec 7) (f : RFields) (s : State) : Out := .next (onHart c (gamo c funct7.toNat f) s)

/-- CRC32C (R81). -/
def execCrc32c (c : Core) (funct7 : BitVec 7) (f : RFields) (s : State) : Out := .next (onHart c (crc32cInstr c funct7.toNat f) s)

/-- VGLD (R79). -/
def execVgld (c : Core) (funct7 : BitVec 7) (f : RFields) (s : State) : Out := .next (onHart c (vgld c funct7.toNat f) s)

/-- VGST (R79). -/
def execVgst (c : Core) (funct7 : BitVec 7) (f : RFields) (s : State) : Out := .next (onHart c (vgst c funct7.toNat f) s)

/-- TRACKER_STALL_RESUME (R77). -/
def execTrackerStallResume (c : Core) (s : State) : Out := .next (trackerResume c s)

end Sys2Proof.Machine
end

