-- ==== Sys2Proof/Machine/Launch.lean ====
section
/-!
DEFINITION. The HD instructions (spec 02_cores_and_extensions.md, R72 to R75): launching tiles, tickets, and reading the published
error.
-/

namespace Sys2Proof.Machine

/-- HD instructions are illegal below M mode without hcfg.HD_EN (R55). -/
def hdIllegal (h : Hart) : Bool := h.priv != .m && !h.hdEn

/-- A translated, aligned load of 128 bytes by hart `c` (R72): two 64-byte halves; or the cause of its exception. -/
def load128 (c va : Nat) (s : State) : Except Nat (List Byte) × State :=
  match hartResolve c .load va 128 s with
  | (.error e, s) => (.error e, s)
  | (.ok (.device _), s) => (.error 5, s)
  | (.ok (.cached k), s) =>
    match dataRead c (.cached k) 64 s with
    | (none, s) => (.error 19, s)
    | (some a, s) =>
      match dataRead c (.cached (k + 64)) 64 s with
      | (none, s) => (.error 19, s)
      | (some b, s) => (.ok (a ++ b), s)
  | (.ok (.home k), s) =>
    match dataRead c (.home k) 128 s with
    | (none, s) => (.error 19, s)
    | (some a, s) => (.ok a, s)

/-- The free ticket slots of a hart. -/
def freeSlots (h : Hart) : List Nat := (List.range 16).filter fun i => !(h.slots.any fun x => x.1 == i)

/-- Engine `e` named by a descriptor lies in the hart's bay and its queue is full. -/
def bayEngineFull (s : State) (c e : Nat) : Bool := e / 2 == c / 128 && s.engFull e

/-- A detached launch is accepted (R73). -/
def launchDetached (c : Nat) (desc : List Byte) (s : State) : State :=
  let h := s.hart c
  let s := s.putHart c { h.retire with detached := h.detached + 1, wait := .none }
  acceptTile desc h.tenant (c / 128) (.hart c none) s

/-- PMX.LAUNCH (R72, R73, R108). The ticket slot is any free one. -/
def pmxLaunch (c : Nat) (f : RFields) (s : State) : State :=
  let h := s.hart c
  let va := h.rn f.rs1
  if hdIllegal h then illegal c s
  else match load128 c va s with
  | (.error e, s) => except c e va s
  | (.ok d, s) =>
    let h := s.hart c
    if !pegOwned s h.tenant (descCpeg d) then pegFault c (descCpeg d) s
    else
      let full := bayEngineFull s c (dfld d 0 0 4)
      if f.rd = 0 then
        if full || 255 ≤ h.detached then s.putHart c { h with wait := .launch d } else launchDetached c d s
      else
        match freeSlots h with
        | [] => retireRd c f.rd (2 * 2 ^ 16) s
        | i :: rest =>
          if full then retireRd c f.rd (1 * 2 ^ 16) s
          else
            let (v, s) := if rest.isEmpty then (0, s) else s.free
            let slot := (i :: rest).getD (v % (rest.length + 1)) i
            let s := s.putHart c { h with slots := tput slot { serial := h.serial, outcome := none } h.slots,
                                          serial := (h.serial + 1) % 4096 }
            let s := retireRd c f.rd (slot + 2 ^ 4 * h.serial) s
            acceptTile d h.tenant (c / 128) (.hart c (some (slot, h.serial))) s

/-- A stalled detached launch finds room (R73). -/
def launchResume (c : Nat) (s : State) : State :=
  let h := s.hart c
  match h.wait with
  | .launch d => if bayEngineFull s c (dfld d 0 0 4) || 255 ≤ h.detached then s else launchDetached c d s
  | _ => s

/-- The slot that a ticket names, if it is in use with that serial (R74). -/
def ticketSlot (h : Hart) (ticket : Nat) : Option Slot :=
  match h.slots.find? fun x => x.1 == ticket % 16 with
  | some (_, sl) => if sl.serial = ticket / 16 % 4096 then some sl else none
  | none => none

/-- A final outcome is returned and its slot freed (R74). -/
def reapSlot (c : Nat) (rd : XReg) (ticket outcome err : Nat) (s : State) : State :=
  let h := s.hart c
  retireRd c rd (outcome + 2 ^ 16 * err) (s.putHart c { h with slots := terase (ticket % 16) h.slots })

/-- PMX.WAIT (R74). -/
def pmxWait (c : Nat) (f : RFields) (s : State) : State :=
  let h := s.hart c
  let ticket := h.rn f.rs1 % 65536
  if hdIllegal h then illegal c s
  else match ticketSlot h ticket with
  | none => retireRd c f.rd outNoTicket s
  | some sl =>
    match sl.outcome with
    | some (o, e) => reapSlot c f.rd ticket o e s
    | none => s.putHart c { h with wait := .pmx ticket f.rd }

/-- PMX.POLL (R74). -/
def pmxPoll (c : Nat) (f : RFields) (s : State) : State :=
  let h := s.hart c
  let ticket := h.rn f.rs1 % 65536
  if hdIllegal h then illegal c s
  else match ticketSlot h ticket with
  | none => retireRd c f.rd outNoTicket s
  | some sl =>
    match sl.outcome with
    | some (o, e) => reapSlot c f.rd ticket o e s
    | none => retireRd c f.rd outPending s

/-- PMX.ERR (R75): the dispatcher's copy of a published error; mode 3 names no combination. -/
def pmxErr (c : Nat) (f : RFields) (s : State) : State :=
  let h := s.hart c
  let a := h.rn f.rs1
  if hdIllegal h then illegal c s
  else
    let mode := nfld a 4 2
    retireRd c f.rd (if mode = 3 then 0xFFFF else s.get (R.PMX_ERR_ERR (nfld a 0 4) (combo mode (nbit a 6)))) s

/-- PMX.CANCEL (R75): a ticketed tile that has not started ends as CANCELLED. -/
def pmxCancel (c : Nat) (f : RFields) (s : State) : State :=
  let h := s.hart c
  let ticket := h.rn f.rs1 % 65536
  if hdIllegal h then illegal c s
  else match ticketSlot h ticket with
  | none => retireRd c f.rd outNoTicket s
  | some sl =>
    if sl.outcome.isSome then retireRd c f.rd 1 s
    else
      let isIt (x : Tile) : Bool := x.src == .hart c (some (ticket % 16, ticket / 16)) && !x.started
      match (List.range 16).findSome? fun e => ((s.eng e).queue.find? isIt).map fun x => (e, x) with
      | some (e, x) =>
        let g := s.eng e
        tileEnd x outCancelled 0 (retireRd c f.rd 0 (s.putEng e { g with queue := g.queue.filter fun y => !isIt y }))
      | none =>
        match (List.range 8).findSome? fun b => ((s.fallback b).find? isIt).map fun x => (b, x) with
        | some (b, x) =>
          tileEnd x outCancelled 0 (retireRd c f.rd 0 (s.putFallback b ((s.fallback b).filter fun y => !isIt y)))
        | none => retireRd c f.rd 1 s

/-- PMX_LAUNCH (R72). -/
def execPmxLaunch (c : Core) (f : RFields) (s : State) : Out := attempt (onHart c (pmxLaunch c f)) s

/-- DETACHED_LAUNCH_RESUME (R73). -/
def execDetachedLaunchResume (c : Core) (s : State) : Out := attempt (launchResume c) s

/-- PMX_WAIT (R74). -/
def execPmxWait (c : Core) (f : RFields) (s : State) : Out := .next (onHart c (pmxWait c f) s)

/-- PMX_POLL (R74). -/
def execPmxPoll (c : Core) (f : RFields) (s : State) : Out := .next (onHart c (pmxPoll c f) s)

/-- PMX_ERR (R71). -/
def execPmxErr (c : Core) (f : RFields) (s : State) : Out := .next (onHart c (pmxErr c f) s)

/-- PMX_CANCEL (R75). -/
def execPmxCancel (c : Core) (f : RFields) (s : State) : Out := .next (onHart c (pmxCancel c f) s)

end Sys2Proof.Machine
end

