-- ==== Sys2Proof/Machine/Dispatch.lean ====
section
/-!
DEFINITION. The dispatch of a command to its meaning: one arm per constructor of `Instr`.
-/

namespace Sys2Proof.Machine

/-- The effect of command `i` on everything but the queue. -/
def exec (i : Instr) (s : State) : Host.Outcome State Fault Refusal :=
  match i with
  | .registerWrite r off data => Sys2Proof.Machine.execRegisterWrite r off data s
  | .rcFieldRead r off len => Sys2Proof.Machine.execRcFieldRead r off len s
  | .latched64Read r off => Sys2Proof.Machine.execLatched64Read r off s
  | .latched64Write r off val => Sys2Proof.Machine.execLatched64Write r off val s
  | .hubDrvLevelWrite r val => Sys2Proof.Machine.execHubDrvLevelWrite r val s
  | .load c form rd rs1 imm => Sys2Proof.Machine.execLoad c form rd rs1 imm s
  | .store c form rs2 rs1 imm => Sys2Proof.Machine.execStore c form rs2 rs1 imm s
  | .lrScAmo c form dword f => Sys2Proof.Machine.execLrScAmo c form dword f s
  | .fence c pred succ tso => Sys2Proof.Machine.execFence c pred succ tso s
  | .fenceI c => Sys2Proof.Machine.execFenceI c s
  | .sfenceVma c rs1 rs2 => Sys2Proof.Machine.execSfenceVma c rs1 rs2 s
  | .hfqbaseWrite c val => Sys2Proof.Machine.execHfqbaseWrite c val s
  | .hxseqwWrite c val => Sys2Proof.Machine.execHxseqwWrite c val s
  | .contextLoad c ctx => Sys2Proof.Machine.execContextLoad c ctx s
  | .interruptDuringWait c code => Sys2Proof.Machine.execInterruptDuringWait c code s
  | .mma c funct7 f => Sys2Proof.Machine.execMma c funct7 f s
  | .mmaComplete c => Sys2Proof.Machine.execMmaComplete c s
  | .mldT c funct7 f => Sys2Proof.Machine.execMldT c funct7 f s
  | .mldsT c funct7 f => Sys2Proof.Machine.execMldsT c funct7 f s
  | .mldA c funct7 f => Sys2Proof.Machine.execMldA c funct7 f s
  | .mstA c funct7 f => Sys2Proof.Machine.execMstA c funct7 f s
  | .mzeroA c funct7 f => Sys2Proof.Machine.execMzeroA c funct7 f s
  | .mcvt c funct7 f => Sys2Proof.Machine.execMcvt c funct7 f s
  | .pegAdd c f => Sys2Proof.Machine.execPegAdd c f s
  | .pegSub c f => Sys2Proof.Machine.execPegSub c f s
  | .pegWaitge c f => Sys2Proof.Machine.execPegWaitge c f s
  | .pegTake c f => Sys2Proof.Machine.execPegTake c f s
  | .pegRead c f => Sys2Proof.Machine.execPegRead c f s
  | .raise c f => Sys2Proof.Machine.execRaise c f s
  | .timedRelease k => Sys2Proof.Machine.execTimedRelease k s
  | .hfenceRel c f => Sys2Proof.Machine.execHfenceRel c f s
  | .hfenceAcq c f => Sys2Proof.Machine.execHfenceAcq c f s
  | .hfenceCommit c f => Sys2Proof.Machine.execHfenceCommit c f s
  | .commitTimeout c => Sys2Proof.Machine.execCommitTimeout c s
  | .pmxLaunch c f => Sys2Proof.Machine.execPmxLaunch c f s
  | .detachedLaunchResume c => Sys2Proof.Machine.execDetachedLaunchResume c s
  | .pmxWait c f => Sys2Proof.Machine.execPmxWait c f s
  | .pmxPoll c f => Sys2Proof.Machine.execPmxPoll c f s
  | .pmxErr c f => Sys2Proof.Machine.execPmxErr c f s
  | .pmxCancel c f => Sys2Proof.Machine.execPmxCancel c f s
  | .gld c funct7 f => Sys2Proof.Machine.execGld c funct7 f s
  | .gst c funct7 f => Sys2Proof.Machine.execGst c funct7 f s
  | .gamo c funct7 f => Sys2Proof.Machine.execGamo c funct7 f s
  | .crc32c c funct7 f => Sys2Proof.Machine.execCrc32c c funct7 f s
  | .vgld c funct7 f => Sys2Proof.Machine.execVgld c funct7 f s
  | .vgst c funct7 f => Sys2Proof.Machine.execVgst c funct7 f s
  | .trackerStallResume c => Sys2Proof.Machine.execTrackerStallResume c s
  | .write env x => Sys2Proof.Machine.execWrite env x s
  | .read env x => Sys2Proof.Machine.execRead env x s
  | .amo env x => Sys2Proof.Machine.execAmo env x s
  | .pegAddOp env x => Sys2Proof.Machine.execPegAddOp env x s
  | .pegSubOp env x => Sys2Proof.Machine.execPegSubOp env x s
  | .raiseUp env x => Sys2Proof.Machine.execRaiseUp env x s
  | .readData env x => Sys2Proof.Machine.execReadData env x s
  | .amoData env x => Sys2Proof.Machine.execAmoData env x s
  | .ack env x => Sys2Proof.Machine.execAck env x s
  | .nack env x => Sys2Proof.Machine.execNack env x s
  | .ackUnderflow env x => Sys2Proof.Machine.execAckUnderflow env x s
  | .raiseAnswer env x => Sys2Proof.Machine.execRaiseAnswer env x s
  | .bar2Read f off len => Sys2Proof.Machine.execBar2Read f off len s
  | .bar2Write f off data => Sys2Proof.Machine.execBar2Write f off data s
  | .patrolScrub addr found => Sys2Proof.Machine.execPatrolScrub addr found s
  | .invalidate r => Sys2Proof.Machine.execInvalidate r s
  | .invalidateComplete => Sys2Proof.Machine.execInvalidateComplete s
  | .memFtagWrite r t val => Sys2Proof.Machine.execMemFtagWrite r t val s
  | .assign r => Sys2Proof.Machine.execAssign r s
  | .release r => Sys2Proof.Machine.execRelease r s
  | .clear r => Sys2Proof.Machine.execClear r s
  | .blockCommandComplete => Sys2Proof.Machine.execBlockCommandComplete s
  | .queueEnable r t q base => Sys2Proof.Machine.execQueueEnable r t q base s
  | .queueDisable r t q => Sys2Proof.Machine.execQueueDisable r t q s
  | .doorbell f off val => Sys2Proof.Machine.execDoorbell f off val s
  | .pegDoorbellTake t q => Sys2Proof.Machine.execPegDoorbellTake t q s
  | .descriptorFetch t q => Sys2Proof.Machine.execDescriptorFetch t q s
  | .descriptorReceived t q => Sys2Proof.Machine.execDescriptorReceived t q s
  | .engineQueueAccept t q => Sys2Proof.Machine.execEngineQueueAccept t q s
  | .dmaNop t q n => Sys2Proof.Machine.execDmaNop t q n s
  | .dmaCopy t q n => Sys2Proof.Machine.execDmaCopy t q n s
  | .dmaCopyComplete t q n => Sys2Proof.Machine.execDmaCopyComplete t q n s
  | .dmaSignal t q n => Sys2Proof.Machine.execDmaSignal t q n s
  | .dmaSignalTimeout t q n => Sys2Proof.Machine.execDmaSignalTimeout t q n s
  | .cancelFrom r => Sys2Proof.Machine.execCancelFrom r s
  | .cancelOne r => Sys2Proof.Machine.execCancelOne r s
  | .resume r => Sys2Proof.Machine.execResume r s
  | .pegWatchEnable f w val => Sys2Proof.Machine.execPegWatchEnable f w val s
  | .pegWatchDisable f w => Sys2Proof.Machine.execPegWatchDisable f w s
  | .stagingStart e => Sys2Proof.Machine.execStagingStart e s
  | .weightsArrived e => Sys2Proof.Machine.execWeightsArrived e s
  | .tileStart e => Sys2Proof.Machine.execTileStart e s
  | .reloadComplete e => Sys2Proof.Machine.execReloadComplete e s
  | .vectorSlot e ready codes => Sys2Proof.Machine.execVectorSlot e ready codes s
  | .probeSlot e codes => Sys2Proof.Machine.execProbeSlot e codes s
  | .tileComplete e => Sys2Proof.Machine.execTileComplete e s
  | .weirWindowEnd e => Sys2Proof.Machine.execWeirWindowEnd e s
  | .weirSubwindow e => Sys2Proof.Machine.execWeirSubwindow e s
  | .fallbackQueueAccept b => Sys2Proof.Machine.execFallbackQueueAccept b s
  | .fallbackComplete b => Sys2Proof.Machine.execFallbackComplete b s
  | .svcOutWrite r e val => Sys2Proof.Machine.execSvcOutWrite r e val s
  | .keepWarmWrite r e en duty => Sys2Proof.Machine.execKeepWarmWrite r e en duty s
  | .driverHeartbeatStop e => Sys2Proof.Machine.execDriverHeartbeatStop e s
  | .ucieLinkLost e => Sys2Proof.Machine.execUcieLinkLost e s
  | .ucieRetrainTimeout e => Sys2Proof.Machine.execUcieRetrainTimeout e s
  | .engineSelftest p e => Sys2Proof.Machine.execEngineSelftest p e s
  | .selftestComplete e res => Sys2Proof.Machine.execSelftestComplete e res s
  | .frameTransmit p => Sys2Proof.Machine.execFrameTransmit p s
  | .frameReceived p bytes codewordOk => Sys2Proof.Machine.execFrameReceived p bytes codewordOk s
  | .linkAck p b => Sys2Proof.Machine.execLinkAck p b s
  | .linkAckTimer p => Sys2Proof.Machine.execLinkAckTimer p s
  | .train p b => Sys2Proof.Machine.execTrain p b s
  | .trainingStart p cause => Sys2Proof.Machine.execTrainingStart p cause s
  | .trainingComplete p m => Sys2Proof.Machine.execTrainingComplete p m s
  | .trainingTimeout p => Sys2Proof.Machine.execTrainingTimeout p s
  | .trainingRetry p => Sys2Proof.Machine.execTrainingRetry p s
  | .retrain r p => Sys2Proof.Machine.execRetrain r p s
  | .down r p => Sys2Proof.Machine.execDown r p s
  | .lnkCfgEnWrite r p val => Sys2Proof.Machine.execLnkCfgEnWrite r p val s
  | .lineFailure p l cause => Sys2Proof.Machine.execLineFailure p l cause s
  | .lossOfSignal p => Sys2Proof.Machine.execLossOfSignal p s
  | .lightFallback p => Sys2Proof.Machine.execLightFallback p s
  | .gangWrite r g ports => Sys2Proof.Machine.execGangWrite r g ports s
  | .gangDrainComplete p => Sys2Proof.Machine.execGangDrainComplete p s
  | .pkgWrite src val => Sys2Proof.Machine.execPkgWrite src val s
  | .beaconFrame p bits powerRise3dB minDepth => Sys2Proof.Machine.execBeaconFrame p bits powerRise3dB minDepth s
  | .beaconSend p => Sys2Proof.Machine.execBeaconSend p s
  | .linkDieHeartbeatStop k => Sys2Proof.Machine.execLinkDieHeartbeatStop k s
  | .stageWrite r off data => Sys2Proof.Machine.execStageWrite r off data s
  | .plan r => Sys2Proof.Machine.execPlan r s
  | .planComplete => Sys2Proof.Machine.execPlanComplete s
  | .arm r => Sys2Proof.Machine.execArm r s
  | .disarm r => Sys2Proof.Machine.execDisarm r s
  | .discard r => Sys2Proof.Machine.execDiscard r s
  | .activation => Sys2Proof.Machine.execActivation s
  | .activationCommit => Sys2Proof.Machine.execActivationCommit s
  | .activationComplete => Sys2Proof.Machine.execActivationComplete s
  | .postRelightRetrain p => Sys2Proof.Machine.execPostRelightRetrain p s
  | .swap src => Sys2Proof.Machine.execSwap src s
  | .resync src g => Sys2Proof.Machine.execResync src g s
  | .resyncComplete selfTestOk => Sys2Proof.Machine.execResyncComplete selfTestOk s
  | .leaseRenewal => Sys2Proof.Machine.execLeaseRenewal s
  | .leaseLapse => Sys2Proof.Machine.execLeaseLapse s
  | .headgateSelfFault => Sys2Proof.Machine.execHeadgateSelfFault s
  | .heaterCodeUpdate => Sys2Proof.Machine.execHeaterCodeUpdate s
  | .sillScan readBack => Sys2Proof.Machine.execSillScan readBack s
  | .laserFailure j => Sys2Proof.Machine.execLaserFailure j s
  | .selectorTimeout b => Sys2Proof.Machine.execSelectorTimeout b s
  | .spareLit b => Sys2Proof.Machine.execSpareLit b s
  | .swapToSpare src j => Sys2Proof.Machine.execSwapToSpare src j s
  | .laserReturn src j => Sys2Proof.Machine.execLaserReturn src j s
  | .spareTest src j => Sys2Proof.Machine.execSpareTest src j s
  | .verifyLaser src j => Sys2Proof.Machine.execVerifyLaser src j s
  | .verificationSlot l depths => Sys2Proof.Machine.execVerificationSlot l depths s
  | .loopSample r adc refv dark => Sys2Proof.Machine.execLoopSample r adc refv dark s
  | .loopApply req r => Sys2Proof.Machine.execLoopApply req r s
  | .recaptureTimeout r => Sys2Proof.Machine.execRecaptureTimeout r s
  | .shutterClose p l steps => Sys2Proof.Machine.execShutterClose p l steps s
  | .shutterOpen p l => Sys2Proof.Machine.execShutterOpen p l s
  | .acquireChain ch sweep => Sys2Proof.Machine.execAcquireChain ch sweep s
  | .acquisitionComplete ch ok => Sys2Proof.Machine.execAcquisitionComplete ch ok s
  | .loopEngineStop n => Sys2Proof.Machine.execLoopEngineStop n s
  | .calibrate src a => Sys2Proof.Machine.execCalibrate src a s
  | .abort src unit => Sys2Proof.Machine.execAbort src unit s
  | .calibrationTaken => Sys2Proof.Machine.execCalibrationTaken s
  | .drainReady => Sys2Proof.Machine.execDrainReady s
  | .drainTimeout => Sys2Proof.Machine.execDrainTimeout s
  | .calibrationComplete m stored => Sys2Proof.Machine.execCalibrationComplete m stored s
  | .shadowRebuild e temp256 => Sys2Proof.Machine.execShadowRebuild e temp256 s
  | .sync p b rxStamp => Sys2Proof.Machine.execSync p b rxStamp s
  | .syncSend d => Sys2Proof.Machine.execSyncSend d s
  | .delayReq p b rxStamp => Sys2Proof.Machine.execDelayReq p b rxStamp s
  | .delayReqSend d txStamp => Sys2Proof.Machine.execDelayReqSend d txStamp s
  | .delayResp p b => Sys2Proof.Machine.execDelayResp p b s
  | .trackerLoss d => Sys2Proof.Machine.execTrackerLoss d s
  | .primaryReturn => Sys2Proof.Machine.execPrimaryReturn s
  | .slewComplete => Sys2Proof.Machine.execSlewComplete s
  | .domainConfigWrite r d val => Sys2Proof.Machine.execDomainConfigWrite r d val s
  | .ftmSet r => Sys2Proof.Machine.execFtmSet r s
  | .ftmAdjust r => Sys2Proof.Machine.execFtmAdjust r s
  | .ppsInEdge => Sys2Proof.Machine.execPpsInEdge s
  | .ppsInTimeout => Sys2Proof.Machine.execPpsInTimeout s
  | .ppsOutPulse => Sys2Proof.Machine.execPpsOutPulse s
  | .perstAssert => Sys2Proof.Machine.execPerstAssert s
  | .hotReset => Sys2Proof.Machine.execHotReset s
  | .flrPf0 => Sys2Proof.Machine.execFlrPf0 s
  | .flrVf n => Sys2Proof.Machine.execFlrVf n s
  | .mbxRead f h => Sys2Proof.Machine.execMbxRead f h s
  | .mbxWrite f h data => Sys2Proof.Machine.execMbxWrite f h data s
  | .mbxDescribe f h => Sys2Proof.Machine.execMbxDescribe f h s
  | .mbxNext f h => Sys2Proof.Machine.execMbxNext f h s
  | .mbxResponseComplete f => Sys2Proof.Machine.execMbxResponseComplete f s
  | .permitClaim p mask => Sys2Proof.Machine.execPermitClaim p mask s
  | .permitRelease p mask force => Sys2Proof.Machine.execPermitRelease p mask force s
  | .regRead p off len => Sys2Proof.Machine.execRegRead p off len s
  | .regWrite p off data => Sys2Proof.Machine.execRegWrite p off data s
  | .canInit data => Sys2Proof.Machine.execCanInit data s
  | .canSeg data => Sys2Proof.Machine.execCanSeg data s
  | .canAbort txn reason => Sys2Proof.Machine.execCanAbort txn reason s
  | .canTxnTimeout => Sys2Proof.Machine.execCanTxnTimeout s
  | .nmtIdentify node => Sys2Proof.Machine.execNmtIdentify node s
  | .nmtResume node => Sys2Proof.Machine.execNmtResume node s
  | .canRestart p => Sys2Proof.Machine.execCanRestart p s
  | .canHeartbeat => Sys2Proof.Machine.execCanHeartbeat s
  | .canBitError ident => Sys2Proof.Machine.execCanBitError ident s
  | .canBusOff => Sys2Proof.Machine.execCanBusOff s
  | .canCancelRequest ident wonArbitration => Sys2Proof.Machine.execCanCancelRequest ident wonArbitration s
  | .computeReset src => Sys2Proof.Machine.execComputeReset src s
  | .captureComplete absent => Sys2Proof.Machine.execCaptureComplete absent s
  | .computeResetDone => Sys2Proof.Machine.execComputeResetDone s
  | .computeResetOverdue => Sys2Proof.Machine.execComputeResetOverdue s
  | .packageReset src => Sys2Proof.Machine.execPackageReset src s
  | .summaryWritten ok => Sys2Proof.Machine.execSummaryWritten ok s
  | .send r => Sys2Proof.Machine.execSend r s
  | .fabricControlArrival env op data => Sys2Proof.Machine.execFabricControlArrival env op data s
  | .fcrxEnable r peg => Sys2Proof.Machine.execFcrxEnable r peg s
  | .powerOn nodeId perstAsserted => Sys2Proof.Machine.execPowerOn nodeId perstAsserted s
  | .bootStart b => Sys2Proof.Machine.execBootStart b s
  | .bootStepTimeout => Sys2Proof.Machine.execBootStepTimeout s
  | .bootRestart b => Sys2Proof.Machine.execBootRestart b s
  | .fwStage p addr len => Sys2Proof.Machine.execFwStage p addr len s
  | .fwBegin p len => Sys2Proof.Machine.execFwBegin p len s
  | .fwData p off data => Sys2Proof.Machine.execFwData p off data s
  | .fwAbort p => Sys2Proof.Machine.execFwAbort p s
  | .stagingComplete ok => Sys2Proof.Machine.execStagingComplete ok s
  | .bootSlot p v => Sys2Proof.Machine.execBootSlot p v s
  | .ledgerRetry p unit => Sys2Proof.Machine.execLedgerRetry p unit s
  | .cfgReset p => Sys2Proof.Machine.execCfgReset p s
  | .operSecondsSave => Sys2Proof.Machine.execOperSecondsSave s
  | .logRecord ev => Sys2Proof.Machine.execLogRecord ev s
  | .logRecordWrite ok => Sys2Proof.Machine.execLogRecordWrite ok s
  | .logCurWrite r index => Sys2Proof.Machine.execLogCurWrite r index s
  | .logWindowReady => Sys2Proof.Machine.execLogWindowReady s
  | .logClear p => Sys2Proof.Machine.execLogClear p s
  | .logClearComplete ok => Sys2Proof.Machine.execLogClearComplete ok s
  | .powerDomainOn r d => Sys2Proof.Machine.execPowerDomainOn r d s
  | .powerDomainOff r d => Sys2Proof.Machine.execPowerDomainOff r d s
  | .ivrFault n => Sys2Proof.Machine.execIvrFault n s
  | .capControlTick d avgDeciwatt => Sys2Proof.Machine.execCapControlTick d avgDeciwatt s
  | .brownOut => Sys2Proof.Machine.execBrownOut s
  | .tempSample n temp256 => Sys2Proof.Machine.execTempSample n temp256 s
  | .csrAccess c csr op imm rd rs1 => Sys2Proof.Machine.execCsrAccess c csr op imm rd rs1 s
  | .dieFault d => Sys2Proof.Machine.execDieFault d s
  | .linkRefclkChange present => Sys2Proof.Machine.execLinkRefclkChange present s
  | .pcieLinkUp gen width => Sys2Proof.Machine.execPcieLinkUp gen width s
  | .configurationWrite f w => Sys2Proof.Machine.execConfigurationWrite f w s
  | .spareTestComplete b pass => Sys2Proof.Machine.execSpareTestComplete b pass s
  | .laserBringUpComplete j => Sys2Proof.Machine.execLaserBringUpComplete j s
  | .canFrameSent ident => Sys2Proof.Machine.execCanFrameSent ident s

end Sys2Proof.Machine
end

