-- ==== Sys2Proof/Machine/Tick.lean ====
section
/-!
DEFINITION. One cycle of the FabricTime clock (R302), which a step on an empty queue is (log entry 13): FabricTime advances by 1.25 ns,
and the registers that count microseconds, milliseconds and seconds follow.
-/

namespace Sys2Proof.Machine

/-- Units of `ftime` in one cycle of 1.25 ns: an exact binary fraction of 2^-32 s is kept (R302). -/
def unitsPerCycle : Nat := 2097152

/-- The management sequencer of die `i` of HUB_DIE_HB runs (R359): powered, released, and not stopped. -/
def State.sequencerRuns (s : State) (i : Nat) : Bool :=
  s.powered && !s.tripped && !s.deadDies.contains i &&
    (if i < 8 then s.bit (R.PWR_DOM_EN (3 + i)) && s.bootReached 10 && s.bayRuns i
     else if i < 16 then s.bit (R.PWR_DOM_EN (15 + (i - 8) / 2)) && s.bootReached 6
     else if i = 16 then s.refclk && s.bootReached 4
     else true)

/-- The sequencer of engine `e`'s driver die runs (PMX_HEARTBEAT, R128): not in OFF. -/
def State.driverRuns (s : State) (e : Nat) : Bool :=
  s.bayRuns (e / 2) && s.bootReached 10 && !s.deadDies.contains (24 + e) && s.get (R.PMX_STAT_STATE e) != 0

/-- Loop engine `n` processes a batch each microsecond (R282). -/
def State.loopEngRuns (s : State) (n : Nat) : Bool := s.sequencerRuns 16 && s.bootReached 7 && !s.bit (R.LPE_ENG_STOPPED n)

/-- What counts microseconds: heartbeats, the headgate lease (R253), and the time a port holds a class 0 frame for lack of credit
(R220). -/
def tickMicro (s : State) : State :=
  let s := (List.range 18).foldl (fun t i => if s.sequencerRuns i then t.incWrap (R.HUB_DIE_HB_BEAT i) else t) s
  let s := (List.range 16).foldl (fun t e => if s.driverRuns e then t.incWrap (R.PMX_HEARTBEAT_BEAT e) else t) s
  let s := (List.range 12).foldl (fun t n => if s.loopEngRuns n then t.incWrap (R.LPE_ENG_HEARTBEAT n) else t) s
  let s := (List.range 32).foldl (fun t p => if s.creditStalled p then t.incWrap (R.LNK_CREDIT_STALL p) else t) s
  if s.activeHdg.isSome then s.set R.HDG_LEASE_REMAIN_US (s.get R.HDG_LEASE_REMAIN_US - 1) else s

/-- Field `f` at the next free value below `n`: a measurement, of which the spec states no value (log entry 35). -/
def measure (f : Fld) (n : Nat) (s : State) : State :=
  let (v, s) := s.free
  s.set f (v % n)

/-- LOAD and MAXDELAY_NS of loop engine `n`, of which the spec states only bounds (R270). -/
def measureLoopEng (n : Nat) (s : State) : State :=
  if s.loopEngRuns n then measure (R.LPE_ENG_MAXDELAY_NS n) 3101 (measure (R.LPE_ENG_LOAD n) 101 s) else s

/-- RX_POWER of port `p`, and with FEC on the symbols corrected since (R199). -/
def measurePort (p : Nat) (s : State) : State :=
  let s := measure (R.LNK_RX_POWER p) 65536 s
  if s.portUp p && s.bit (R.LNK_STAT_FEC p) then
    let (v, s) := s.free
    s.incWrap (R.LNK_FEC_CORR p) v
  else s

/-- What is measured anew each millisecond. -/
def tickMilli (s : State) : State :=
  let s := (List.range 12).foldl (fun t n => measureLoopEng n t) s
  let s := (List.range 32).foldl (fun t p => measurePort p t) s
  measure R.PWR_INPUT_PIN 65536 (measure R.PWR_INPUT_IIN 65536 (measure R.PWR_INPUT_VIN 65536 s))

/-- OPER_SECONDS (OD 3.0001) counts. -/
def tickSecond (s : State) : State := if s.powered then s.odInc 3 1 32 else s

/-- HOLD_S counts the seconds of HOLDOVER (R310). -/
def tickHold (s : State) : State :=
  if s.get R.FTM_STAT_STATE = outHoldover ∧ (s.cycles - s.holdFrom) % 800000000 = 0 ∧ s.holdFrom < s.cycles then s.incSat R.FTM_STAT_HOLD_S
  else s

/-- One cycle. Without power or LINK_REFCLK FabricTime stands still (R35). -/
def tick (s : State) : State :=
  if !s.powered || s.tripped || !s.refclk then s
  else
    let s := { s with ftime := (s.ftime + unitsPerCycle) % (2 ^ 64 * unitsPerTick), cycles := s.cycles + 1 }
    let s := if s.cycles % 800 = 0 then tickMicro s else s
    let s := if s.cycles % 800000 = 0 then tickMilli s else s
    let s := if s.cycles % 800000000 = 0 then tickSecond s else s
    tickHold s

end Sys2Proof.Machine
end

