-- ==== Sys2Proof/WellFormed.lean ====
section
/-!
DEFINITION. Which commands are well formed: the relations between the operands of a command that their types do not state. The meanings
are total and do not rest on them; statements name them.
-/

namespace Sys2Proof

/-- `n` bytes from `off` on lie in a space of `size` bytes, and there is at least one. -/
def rangeOk (size off n : Nat) : Bool := decide (1 ≤ n ∧ off + n ≤ size)

/-- A frame's length is a whole number of 8-byte units, 5 to 64 of them (R202). -/
def frameLenOk (n : Nat) : Bool := n % 8 == 0 && decide (40 ≤ n ∧ n ≤ 512)

/-- The transaction carries `n` bytes of data (R203). -/
def XBody.carries (x : XBody) (n : Nat) : Bool := x.data.length == n && decide (x.size.toNat ≤ 256)

/-- WRITE, READ and AMO name at least one byte (Table 8.4). -/
def XBody.wf (x : XBody) : Bool := decide (1 ≤ x.size.toNat)

/-- A context image lists every register of its kinds (R51). -/
def ContextImage.wf (c : ContextImage) : Bool :=
  c.x.length == 32 && c.f.length == 32 && c.v.length == 4096 && c.tile.length == 8192 && c.tscale.length == 512 && c.acc.length == 4096

/-- The command is well formed. -/
def Instr.wf : Instr → Bool
  | .registerWrite _ off data => rangeOk (2 ^ 28) off.toNat data.length
  | .rcFieldRead _ off len => rangeOk (2 ^ 28) off.toNat len
  | .latched64Read _ off => off.toNat % 4 == 0
  | .latched64Write _ off _ => off.toNat % 4 == 0
  | .hubDrvLevelWrite _ _ => true
  | .load _ _ _ _ _ => true
  | .store _ _ _ _ _ => true
  | .lrScAmo _ _ _ _ => true
  | .fence _ _ _ _ => true
  | .fenceI _ => true
  | .sfenceVma _ _ _ => true
  | .hfqbaseWrite _ _ => true
  | .hxseqwWrite _ _ => true
  | .contextLoad _ ctx => ctx.wf
  | .interruptDuringWait _ _ => true
  | .mma _ _ _ => true
  | .mmaComplete _ => true
  | .mldT _ _ _ => true
  | .mldsT _ _ _ => true
  | .mldA _ _ _ => true
  | .mstA _ _ _ => true
  | .mzeroA _ _ _ => true
  | .mcvt _ _ _ => true
  | .pegAdd _ _ => true
  | .pegSub _ _ => true
  | .pegWaitge _ _ => true
  | .pegTake _ _ => true
  | .pegRead _ _ => true
  | .raise _ _ => true
  | .timedRelease _ => true
  | .hfenceRel _ _ => true
  | .hfenceAcq _ _ => true
  | .hfenceCommit _ _ => true
  | .commitTimeout _ => true
  | .pmxLaunch _ _ => true
  | .detachedLaunchResume _ => true
  | .pmxWait _ _ => true
  | .pmxPoll _ _ => true
  | .pmxErr _ _ => true
  | .pmxCancel _ _ => true
  | .gld _ _ _ => true
  | .gst _ _ _ => true
  | .gamo _ _ _ => true
  | .crc32c _ _ _ => true
  | .vgld _ _ _ => true
  | .vgst _ _ _ => true
  | .trackerStallResume _ => true
  | .write _ x => x.carries x.size.toNat && x.wf
  | .read _ x => x.carries 0 && x.wf
  | .amo _ x => x.carries x.size.toNat && x.wf
  | .pegAddOp _ x => x.carries x.size.toNat && decide (3 ≤ x.size.toNat)
  | .pegSubOp _ x => x.carries x.size.toNat && decide (3 ≤ x.size.toNat)
  | .raiseUp _ x => x.carries x.size.toNat && decide (2 ≤ x.size.toNat)
  | .readData _ x => x.carries x.size.toNat
  | .amoData _ x => x.carries x.size.toNat
  | .ack _ x => x.carries x.size.toNat
  | .nack _ x => x.carries x.size.toNat
  | .ackUnderflow _ x => x.carries x.size.toNat
  | .raiseAnswer _ x => x.carries x.size.toNat
  | .bar2Read _ off len => rangeOk (2 ^ 36) off.toNat len
  | .bar2Write _ off data => rangeOk (2 ^ 36) off.toNat data.length
  | .patrolScrub _ _ => true
  | .invalidate _ => true
  | .invalidateComplete => true
  | .memFtagWrite _ _ _ => true
  | .assign _ => true
  | .release _ => true
  | .clear _ => true
  | .blockCommandComplete => true
  | .queueEnable _ _ _ _ => true
  | .queueDisable _ _ _ => true
  | .doorbell _ off _ => off.toNat % 4 == 0
  | .pegDoorbellTake _ _ => true
  | .descriptorFetch _ _ => true
  | .descriptorReceived _ _ => true
  | .engineQueueAccept _ _ => true
  | .dmaNop _ _ _ => true
  | .dmaCopy _ _ _ => true
  | .dmaCopyComplete _ _ _ => true
  | .dmaSignal _ _ _ => true
  | .dmaSignalTimeout _ _ _ => true
  | .cancelFrom _ => true
  | .cancelOne _ => true
  | .resume _ => true
  | .pegWatchEnable _ _ _ => true
  | .pegWatchDisable _ _ => true
  | .stagingStart _ => true
  | .weightsArrived _ => true
  | .tileStart _ => true
  | .reloadComplete _ => true
  | .vectorSlot _ _ codes => codes.length == 64
  | .probeSlot _ codes => codes.length == 64
  | .tileComplete _ => true
  | .weirWindowEnd _ => true
  | .weirSubwindow _ => true
  | .fallbackQueueAccept _ => true
  | .fallbackComplete _ => true
  | .svcOutWrite _ _ _ => true
  | .keepWarmWrite _ _ _ _ => true
  | .driverHeartbeatStop _ => true
  | .ucieLinkLost _ => true
  | .ucieRetrainTimeout _ => true
  | .engineSelftest _ _ => true
  | .selftestComplete _ _ => true
  | .frameTransmit _ => true
  | .frameReceived _ bytes _ => frameLenOk bytes.length
  | .linkAck _ _ => true
  | .linkAckTimer _ => true
  | .train _ _ => true
  | .trainingStart _ _ => true
  | .trainingComplete _ _ => true
  | .trainingTimeout _ => true
  | .trainingRetry _ => true
  | .retrain _ _ => true
  | .down _ _ => true
  | .lnkCfgEnWrite _ _ _ => true
  | .lineFailure _ _ _ => true
  | .lossOfSignal _ => true
  | .lightFallback _ => true
  | .gangWrite _ _ _ => true
  | .gangDrainComplete _ => true
  | .pkgWrite _ _ => true
  | .beaconFrame _ _ _ _ => true
  | .beaconSend _ => true
  | .linkDieHeartbeatStop _ => true
  | .stageWrite _ off data => rangeOk 2048 off.val data.length
  | .plan _ => true
  | .planComplete => true
  | .arm _ => true
  | .disarm _ => true
  | .discard _ => true
  | .activation => true
  | .activationCommit => true
  | .activationComplete => true
  | .postRelightRetrain _ => true
  | .swap _ => true
  | .resync _ _ => true
  | .resyncComplete _ => true
  | .leaseRenewal => true
  | .leaseLapse => true
  | .headgateSelfFault => true
  | .heaterCodeUpdate => true
  | .sillScan readBack => readBack.all fun p => decide (p.1 < 4096)
  | .laserFailure _ => true
  | .selectorTimeout _ => true
  | .spareLit _ => true
  | .swapToSpare _ _ => true
  | .laserReturn _ _ => true
  | .spareTest _ _ => true
  | .verifyLaser _ _ => true
  | .verificationSlot _ _ => true
  | .loopSample _ _ _ _ => true
  | .loopApply _ _ => true
  | .recaptureTimeout _ => true
  | .shutterClose _ _ _ => true
  | .shutterOpen _ _ => true
  | .acquireChain _ sweep => sweep.length == 16
  | .acquisitionComplete _ _ => true
  | .loopEngineStop _ => true
  | .calibrate _ _ => true
  | .abort _ _ => true
  | .calibrationTaken => true
  | .drainReady => true
  | .drainTimeout => true
  | .calibrationComplete _ _ => true
  | .shadowRebuild _ _ => true
  | .sync _ _ _ => true
  | .syncSend _ => true
  | .delayReq _ _ _ => true
  | .delayReqSend _ _ => true
  | .delayResp _ _ => true
  | .trackerLoss _ => true
  | .primaryReturn => true
  | .slewComplete => true
  | .domainConfigWrite _ _ _ => true
  | .ftmSet _ => true
  | .ftmAdjust _ => true
  | .ppsInEdge => true
  | .ppsInTimeout => true
  | .ppsOutPulse => true
  | .perstAssert => true
  | .hotReset => true
  | .flrPf0 => true
  | .flrVf _ => true
  | .mbxRead _ _ => true
  | .mbxWrite _ h data => data.length == h.length.toNat
  | .mbxDescribe _ _ => true
  | .mbxNext _ _ => true
  | .mbxResponseComplete _ => true
  | .permitClaim _ _ => true
  | .permitRelease _ _ _ => true
  | .regRead _ _ _ => true
  | .regWrite _ _ _ => true
  | .canInit data => decide (data.length ≤ 64)
  | .canSeg data => decide (data.length ≤ 64)
  | .canAbort _ _ => true
  | .canTxnTimeout => true
  | .nmtIdentify _ => true
  | .nmtResume _ => true
  | .canRestart _ => true
  | .canHeartbeat => true
  | .canBitError _ => true
  | .canBusOff => true
  | .canCancelRequest _ _ => true
  | .computeReset _ => true
  | .captureComplete _ => true
  | .computeResetDone => true
  | .computeResetOverdue => true
  | .packageReset _ => true
  | .summaryWritten _ => true
  | .send _ => true
  | .fabricControlArrival _ _ data => decide (data.length ≤ 32)
  | .fcrxEnable _ _ => true
  | .powerOn _ _ => true
  | .bootStart _ => true
  | .bootStepTimeout => true
  | .bootRestart _ => true
  | .fwStage _ _ _ => true
  | .fwBegin _ _ => true
  | .fwData _ _ _ => true
  | .fwAbort _ => true
  | .stagingComplete _ => true
  | .bootSlot _ _ => true
  | .ledgerRetry _ _ => true
  | .cfgReset _ => true
  | .operSecondsSave => true
  | .logRecord ev => decide (ev.payload.length ≤ 32)
  | .logRecordWrite _ => true
  | .logCurWrite _ _ => true
  | .logWindowReady => true
  | .logClear _ => true
  | .logClearComplete _ => true
  | .powerDomainOn _ _ => true
  | .powerDomainOff _ _ => true
  | .ivrFault _ => true
  | .capControlTick _ _ => true
  | .brownOut => true
  | .tempSample _ _ => true
  | .csrAccess _ _ _ _ _ _ => true
  | .dieFault _ => true
  | .linkRefclkChange _ => true
  | .pcieLinkUp _ _ => true
  | .configurationWrite _ _ => true
  | .spareTestComplete _ _ => true
  | .laserBringUpComplete _ => true
  | .canFrameSent _ => true

end Sys2Proof
end

