-- ==== Sys2Proof/Safety.lean ====
section
/-!
DEFINITION. What statements call a safe step and a safe run, the words in which they name what a command answers, and the parts of the
state that a command leaves as they were.
-/

namespace Sys2Proof.Machine

/-- The command answers a next state, of which `post` holds. -/
def Completes (c : Instr) (s : State) (post : State → Prop) : Prop := ∃ t, exec c s = .next t ∧ post t

/-- A step that neither faults nor is refused. -/
def StepSafe (s : State) : Prop := ∃ t, step s = .next t

/-- A run of `n` steps that neither faults nor is refused. -/
def RunSafe (n : Nat) (s : State) : Prop := ∀ k, k ≤ n → ∃ t, core.run k s = .next t

/-- The memory of the package is in its canonical form: addresses rise, and no entry is 0. -/
def MemCanonical (s : State) : Prop := memWf s.mem = true

/-- Requester `r` reaches the register at PF address `a` now (R318, R320, R331, R364, R388). -/
def Reaches (r : Requester) (a : Nat) (s : State) : Prop := regGate r a s = .pass

/-- The requesters whose offsets are those of PF BAR0: PF0 and the harts. -/
def IsPf : Requester → Prop
  | .fn f => f = 0
  | .hart _ => True

/-! ## Harts -/

/-- Hart `c` executes instructions: released, and not waiting. -/
def Runs (c : Core) (s : State) : Prop := s.hartRuns c = true

/-- An aligned access of `n` bytes at `va` by hart `c`, in M mode without translation, reaches home key `k` in a core store that runs. -/
def AtCoreStore (s : State) (c : Core) (va n k : Nat) : Prop :=
  (s.hart c).dataPriv = .m ∧ va % n = 0 ∧ va < 2 ^ 48 ∧ s.place va = .mem k ∧ inCoreStore k = true ∧ s.memStopped k = false

/-- An aligned access of `n` bytes at `va` by hart `c`, in M mode without translation, reaches home key `k` outside the core stores, of
which the hart's L1D holds line `l`. -/
def InL1d (s : State) (c : Core) (va n k : Nat) (l : CacheLine) : Prop :=
  (s.hart c).dataPriv = .m ∧ va % n = 0 ∧ va < 2 ^ 48 ∧ s.place va = .mem k ∧ inCoreStore k = false ∧
  l1dFind (s.hart c) (k / 64) = some l

/-- The table of harts lists each hart at most once, in rising order. -/
def HartsOk (s : State) : Prop := trising s.harts = true

/-- The effect of an instruction of hart `c` is confined to that hart. -/
def OnlyHart (c : Core) (h : Hart) (s t : State) : Prop :=
  t.hart c = h ∧ (∀ j, j ≠ c.val → t.hart j = s.hart j) ∧ t.regs = s.regs ∧ t.mem = s.mem ∧ t.fabricOut = s.fabricOut

/-- A peg instruction of hart `c` with fields `f` names local peg `p`, which the hart's tenant owns and whose slice runs, unpoisoned. -/
def LocalPeg (s : State) (c : Core) (f : RFields) (p : Nat) : Prop :=
  Runs c s ∧ HartsOk s ∧ hsIllegal (s.hart c) = false ∧ pegOperandOk ((s.hart c).rn f.rs1) = true ∧
  pegRemote ((s.hart c).rn f.rs1) = false ∧ (s.hart c).rn f.rs1 % 65536 = p ∧ pegOwned s (s.hart c).tenant p = true ∧
  s.bayDead (p / 8192) = false ∧ s.bit (R.PEG_VAL_POISON p) = false

/-- No hart waits in a PEG.TAKE on peg `p`. -/
def NoTakes (s : State) (p : Nat) : Prop := ∀ v, satisfied s true p v = []

/-- Only hart `c` may differ. -/
def OtherHarts (c : Core) (s t : State) : Prop := ∀ j, j ≠ c.val → t.hart j = s.hart j

/-- Memory differs only in the bytes `bs` from home key `k` on. -/
def Stored (k : Nat) (bs : List Byte) (s t : State) : Prop :=
  ∀ a, t.byte a = if k ≤ a ∧ a < k + bs.length then bs.getD (a - k) 0 else s.byte a

/-! ## Agents -/

/-- An access of an agent of tenant `t` to virtual address `va` reaches home key `k`: the tenant's translation of the page is cached, it
permits the access, and the memory there runs. -/
def AgentAt (s : State) (t va : Nat) (wr : Bool) (k : Nat) : Prop :=
  s.get (R.MEM_TSATP_MODE t) = 9 ∧ (∃ r, s.place (s.get (R.MEM_TSATP_PPN t) * 4096) = .mem r) ∧ canonical48 va = true ∧
  (∃ e : TlbEnt, s.atc.find? (tlbCovers t (s.get (R.MEM_TSATP_ASID t)) (nfld va 12 36)) = some e ∧
    nbit e.pte 4 = true ∧ nbit e.pte 6 = true ∧ nbit e.pte 1 = true ∧
    (wr = true → nbit e.pte 2 = true ∧ nbit e.pte 7 = true) ∧ s.place (leafPa ⟨e.pte, e.level⟩ va) = .mem k) ∧
  s.memStopped k = false

/-- A request under fabric tag `tag` is served for tenant `t`: no reset runs and the tag names that tenant. -/
def ServedFor (s : State) (tag t : Nat) : Prop :=
  s.packageResetting = false ∧ s.computeResetting = false ∧ tagTenant s tag = some t

/-- The last transaction that waits to leave answers `x` with operation `op`, ATTR `attr` and `data`. -/
def Answered (env : Envelope) (x : XBody) (op attr : Nat) (data : List Byte) (t : State) : Prop :=
  ∃ y : RoutedXact, t.fabricOut.getLast? = some y ∧ y.dst = env.src.toNat ∧ y.flow = env.flow.toNat ∧ y.x.op.toNat = op ∧
    y.x.body.attr.toNat = attr ∧ y.x.body.data = data ∧ y.x.body.core = x.core ∧ y.x.body.iseq = x.iseq ∧ y.x.body.addr = x.addr

/-- The status word of task `i` of queue (t, q) is written to home key `k` (R188). -/
def StatusAt (s : State) (t q i k : Nat) : Prop :=
  AgentAt s t (sext48 (s.get (R.DSP_Q_SBASE t q) * 64 + i % s.qSize t q * 8)) true k ∧
  sext48 (s.get (R.DSP_Q_SBASE t q) * 64 + i % s.qSize t q * 8) % 4096 + 8 ≤ 4096 ∧ s.hitsWeights k 8 = false

/-- The completion peg of descriptor `d` of tenant `t` takes a signal, for which no hart waits in a PEG.TAKE (R170). -/
def CpegTakes (s : State) (t : Nat) (d : List Byte) : Prop :=
  pegOwned s t (descCpeg d) = true ∧ s.bit (R.PEG_VAL_POISON (descCpeg d)) = false ∧ s.bayDead (descCpeg d / 8192) = false ∧
  NoTakes s (descCpeg d)

/-- Task `i` of queue (t, q) with descriptor `d` has ended with an outcome and a reason: its status word is at home key `k`, COMPLETED has
counted, and its completion peg has been signalled (R188, R189). -/
def TaskEnded (s u : State) (t q i k outcome reason : Nat) (d : List Byte) : Prop :=
  Stored k (leBytes 8 (statusWord outcome (if outcome = 3 then 4 else 3) 0 i reason)) s u ∧
  u.get (R.DSP_Q_COMPLETED t q) = (s.get (R.DSP_Q_COMPLETED t q) + 1) % 2 ^ 32 ∧
  u.peg (descCpeg d) = min (s.peg (descCpeg d) + 1) pegMax

/-- DMA task `x` is the first of queue (t, q) that is READY, its slice runs, and it waits for nothing. -/
def DmaRuns (s : State) (t q : Nat) (x : Task) : Prop :=
  s.bayRuns (s.get (R.DSP_Q_HOME t q)) = true ∧ (s.wq (qKey t q)).tasks.find? (fun y => y.st == .ready) = some x ∧
  dmaWaitEn x.desc = false

/-! ## Engines -/

/-- The bay of engine `e` runs. -/
def EngRuns (s : State) (e : Nat) : Prop := s.bayRuns (e / 2) = true

/-- Address `a` lies in the registers of engine `e`. -/
def EngBlock (e a : Nat) : Prop := 0x400000 + 0x100 * e ≤ a ∧ a < 0x400100 + 0x100 * e

/-- Only engine `e` may differ. -/
def OtherEngines (e : Nat) (s t : State) : Prop := ∀ j, j ≠ e → t.eng j = s.eng j

/-- Engine `e` streams tile `x` with weights `st` in its rings; vectors are left, and no probe position is reached. -/
def Streams (s : State) (e : Nat) (x : Tile) (st : Staged) : Prop :=
  s.engState e = 4 ∧ (s.eng e).running = true ∧ (s.eng e).queue.head? = some x ∧ (s.eng e).rings = some st ∧
  (s.eng e).vec < x.nvec ∧ (s.eng e).slotCnt ≠ 4095

/-! ## Ports -/

/-- Address `a` lies in the registers of port `p`. -/
def PortBlock (p a : Nat) : Prop := 0x700000 + 0x100 * p ≤ a ∧ a < 0x700100 + 0x100 * p

/-- Only port `p` may differ. -/
def OtherPorts (p : Nat) (s t : State) : Prop := ∀ j, j ≠ p → t.port j = s.port j

/-! ## Records and requests -/

/-- The Logbook takes a record: it has not stopped, and its buffer has room (R400). -/
def LogOpen (s : State) : Prop := s.logBuf.length < 256 ∧ s.get R.LOG_STAT_FULL = 0

/-- Exactly one event has been logged: its source, its code, and its payload, which begins with the FabricTime (R399). -/
def Logged (source code : Nat) (bytes : List Byte) (s t : State) : Prop :=
  t.logSeq = s.logSeq + 1 ∧ ∃ sev flags : Nat, 1 ≤ sev ∧ sev ≤ 5 ∧
    t.logBuf = s.logBuf ++ [{ seq := s.logSeq, operS := s.odGet 3 1 0, pcycle := s.odGet 3 0 0 % 2 ^ 24, severity := sev,
                              source := source, code := code, flags := flags, payload := padTo 40 (leBytes 8 s.time64 ++ bytes) }]

/-- The mailbox of PF0 takes the EXEC of entry `a`.`i` now. -/
def MbxFree (tag : BitVec 16) (a i : Nat) (s : State) : Prop :=
  musServed (.mbx 0 tag) 3 a i s = true ∧ Reaches (.fn 0) 0x1000 s ∧ s.get (R.HUB_MBX_CMD_STATUS 0) ≠ 1

/-- The response of PF0's mailbox has status `st`, and waits for its completion. -/
def MbxAnswer (st : Nat) (t : State) : Prop :=
  t.get (R.HUB_MBX_CMD_STATUS 0) = 1 ∧ t.get (R.HUB_MBX_RSP_WORD 0 0) % 256 = st

/-- Address `a` holds registers that function `f` has for itself: peg watches, mailbox, MSI-X (Table 13.5). -/
def OfFunction (f a : Nat) : Prop :=
  a / 0x10000000 = f ∧ (0x600 ≤ a % 0x10000000 ∧ a % 0x10000000 < 0x640 ∨ 0x1000 ≤ a % 0x10000000 ∧ a % 0x10000000 < 0x1300 ∨
    0x8000 ≤ a % 0x10000000 ∧ a % 0x10000000 < 0x9004)

/-- The mailbox of function `f` takes request `op` of entry `a`.`i` now. -/
def MbxTakes (f : Fn) (op a i : Nat) (s : State) : Prop :=
  musServed (.mbx f 0) op a i s = true ∧ Reaches (.fn f) (0x10000000 * f.val + 0x1000) s ∧ s.get (R.HUB_MBX_CMD_STATUS f.val) ≠ 1

/-- The response `r` to operation `op` under `tag` stands in the mailbox of function `f` and waits for its completion. -/
def MbxResp (f op tag : Nat) (r : MResp) (t : State) : Prop :=
  t.get (R.HUB_MBX_CMD_STATUS f) = 1 ∧ ∀ j, j < 64 → t.get (R.HUB_MBX_RSP_WORD f j) = (leWords (padTo 256 (rspBytes op tag r)) 64).getD j 0

/-- The CAN controller takes part in transactions: error-active or error-passive. -/
def CanOn (s : State) : Prop := s.canServes = true

/-- A 64-byte frame of CAN function `fn` of this node with bytes `bs`, of transaction `txn`. -/
def CanOut (s : State) (fn : Nat) (txn : Option Nat) (bs : List Byte) : CanFrame :=
  { ident := fn * 128 + s.get R.HUB_CAN_STAT_NODE, data := padTo 64 bs, won := false, txn := txn }

/-- The HEARTBEAT of this node is the last frame that waits, and the only one that has not begun to be sent. -/
def Beats (s t : State) : Prop :=
  ∃ d : List Byte, t.can.txq = s.can.txq.filter (fun f => f.ident / 128 != 0xE || f.won) ++
      [{ ident := 0xE * 128 + s.get R.HUB_CAN_STAT_NODE, data := d, won := false, txn := none }] ∧
    d.take 2 = leBytes 1 (s.get R.HUB_BOOT_STEP) ++ leBytes 1 (s.get R.HUB_CAN_STAT_STATE) ∧
    (d.drop 4).take 4 = leBytes 4 s.alertWord ∧ (d.drop 12).take 4 = leBytes 4 s.trace ∧ d.length = 64

/-- The CAN controller is as after a restart: nothing waits, counters are 0, and the node number of the settings, or the strap, applies. -/
def CanFresh (s t : State) : Prop :=
  t.can.txq = [] ∧ t.can.txn = none ∧ t.can.dup = [] ∧ t.can.good = [] ∧ t.get R.HUB_CAN_STAT_TEC = 0 ∧ t.get R.HUB_CAN_STAT_REC = 0 ∧
  t.get R.HUB_CAN_STAT_DUP_NODE = 0 ∧
  t.get R.HUB_CAN_STAT_NODE = (if s.odGet 1 1 0 = 0 then s.can.strap else s.odGet 1 1 0) % 128

/-! ## Frames -/

/-- Every field of the registers at the addresses of `p` reads as before. A register has at most 64 bits. -/
def SameRegs (p : Nat → Prop) (s t : State) : Prop := ∀ f : Fld, f.lo < 64 → p f.addr → t.get f = s.get f

/-- Every byte of memory reads as before, with the same error marks. -/
def SameMemory (s t : State) : Prop :=
  (∀ k, t.byte k = s.byte k) ∧ t.poison = s.poison ∧ t.badWords = s.badWords ∧ t.hbmBays = s.hbmBays

/-- The harts are as before. -/
def SameHarts (s t : State) : Prop := t.harts = s.harts ∧ t.stale = s.stale

/-- Engines, fallback queues and work queues are as before. -/
def SameEngines (s t : State) : Prop :=
  t.engs = s.engs ∧ t.fbq = s.fbq ∧ t.queues = s.queues ∧ t.wprot = s.wprot ∧ t.dispSeq = s.dispSeq

/-- Ports, gangs and the frames in transit are as before. -/
def SamePorts (s t : State) : Prop :=
  t.ports = s.ports ∧ t.transit = s.transit ∧ t.gangDrain = s.gangDrain ∧ t.pairsOut = s.pairsOut

/-- The map that is planned and the outputs that are shuttered are as before. -/
def SamePlan (s t : State) : Prop := t.slcPlan = s.slcPlan ∧ t.shuttered = s.shuttered ∧ t.relight = s.relight

/-- Loops and takeovers are as before. -/
def SameRings (s t : State) : Prop :=
  t.loops = s.loops ∧ t.ringInit = s.ringInit ∧ t.takeovers = s.takeovers ∧ t.ringFails = s.ringFails

/-- Calibration values, in force and stored, and the Scribe's requests are as before. -/
def SameCal (s t : State) : Prop :=
  t.calPts = s.calPts ∧ t.calMask = s.calMask ∧ t.calSmall = s.calSmall ∧ t.nvmPts = s.nvmPts ∧ t.nvmMask = s.nvmMask ∧
  t.nvmSmall = s.nvmSmall ∧ t.nvmInfo = s.nvmInfo ∧ t.scbQueue = s.scbQueue ∧ t.scbRun = s.scbRun

/-- FabricTime and its domains are as before. -/
def SameTime (s t : State) : Prop :=
  t.ftime = s.ftime ∧ t.doms = s.doms ∧ t.cycles = s.cycles ∧ t.holdFrom = s.holdFrom ∧ t.ppsGood = s.ppsGood

/-- What NVM holds is as before: image slots, ledger, configuration store, crash summaries. -/
def SameStore (s t : State) : Prop :=
  t.slotA = s.slotA ∧ t.slotB = s.slotB ∧ t.ledger = s.ledger ∧ t.cfgStore = s.cfgStore ∧ t.sumNvm = s.sumNvm ∧
  t.bootFirst = s.bootFirst

/-- The configuration of the functions is as before. -/
def SameFns (s t : State) : Prop :=
  t.fnCfg = s.fnCfg ∧ t.vfEnable = s.vfEnable ∧ t.numVfs = s.numVfs ∧ t.pcieLink = s.pcieLink

/-- What a request of function `f`'s mailbox leaves as it was. -/
def MbxOnly (f : Nat) (s t : State) : Prop :=
  SameRegs (fun a => a < 0x10000000 * f + 0x1000 ∨ 0x10000000 * f + 0x1300 ≤ a) s t ∧ SameMemory s t ∧ SameHarts s t

/-! ## Dump, power, boot -/

/-- Home key `k` lies in the dump region of its stack: the top 64 MiB (R370). -/
def InDump (k : Nat) : Prop := inHbm k = true ∧ dumpBase ≤ k % (48 * gib)

/-- No engine holds a tile, none is under self-test, no calibration runs, and no map is planned. -/
def Quiet (s : State) : Prop :=
  (∀ e, (s.eng e).queue = [] ∧ (s.eng e).running = false ∧ (s.eng e).selftest = none) ∧ s.scbRun = none ∧ s.scbQueue = [] ∧
  s.slcPlan = none

/-- A boot with environment `b` from `s` passes steps 1 to 4 with slot A, whose image has booted before, and hangs in step 5. -/
def BootsTo5 (b : BootEnv) (s : State) : Prop :=
  b.testEn = false ∧ b.bootMode = 0 ∧ b.nvmFail = false ∧ b.authFailA = false ∧ b.hubFail = false ∧ b.hang = 5 ∧ s.nvmDead = false ∧
  s.bootFirst = none ∧ s.slotA.state = 2 ∧ s.slotB.state = 0 ∧ s.cfgStore = []

/-- Steps 1 to 4 of the boot have ended OK, and step 5 has begun. -/
def AtStep5 (t : State) : Prop :=
  t.get R.HUB_BOOT_STEP = 5 ∧ t.get R.HUB_BOOT_STATE = 0 ∧ t.get R.HUB_BOOT_SLOT = 0 ∧
  (∀ k, 1 ≤ k → k ≤ 4 → stepNib (t.get R.HUB_BOOT_STEPS_STEPS) k = 0xC) ∧ stepNib (t.get R.HUB_BOOT_STEPS_STEPS) 5 = 0xE ∧
  t.get R.HUB_ALERT_EN_EN = 0xFFE

/-- What every step keeps beside the form of memory: the tables of harts and calibration values rise, and a calibration that waits or runs
is of a unit of the package and holds permits of Table 13.13. -/
def TablesOk (s : State) : Prop :=
  HartsOk s ∧ trising s.calSmall = true ∧ trising s.nvmSmall = true ∧
  ∀ q : ScbReq, q ∈ s.scbQueue ∨ s.scbRun = some q → q.unit ≤ 73 ∧ ∀ k ∈ q.res, k < 80

end Sys2Proof.Machine
end

