-- ==== Sys2Proof/Certificates/Slice0/Obligations.lean ====
section
/-!
DEFINITION. The statements about the package, from the rules of the spec. Each is a proposition over the model; its docstring says
which rules it rests on.
-/

open Sys2Proof Sys2Proof.Machine

/-- A step performs the command at the front of the queue. For every command c and state s, a step of s with c put at the front of
its queue answers what exec answers for c at s, whose queue is the rest. With no command waiting, a step is safe: with power and
LINK_REFCLK, FabricTime advances by 1.25 ns; without them it stands still; memory, harts, engines, ports, calibration, NVM and
the configuration of the functions stay as they are. (That commands wait in a queue, and that a step on an empty queue is one
cycle of the FabricTime clock, is the model's frame, log entry 13.) (R16, R35, R302, R337.) -/
def Obligations.StepIsExecOfFront : Prop :=
  (∀ (c : Instr) (s : State) (rest : List Instr),
    step { s with pending := c :: rest } = exec c { s with pending := rest }) ∧
  (∀ s : State, s.pending = [] →
    step s = .next (tick s) ∧
    (s.powered = true → s.refclk = true → s.tripped = false →
      (tick s).cycles = s.cycles + 1 ∧ (tick s).ftime = (s.ftime + 2097152) % (2 ^ 64 * 390625)) ∧
    (s.powered = false ∨ s.refclk = false ∨ s.tripped = true → tick s = s) ∧
    SameMemory s (tick s) ∧ SameHarts s (tick s) ∧ SameEngines s (tick s) ∧ SamePorts s (tick s) ∧ SameCal s (tick s) ∧
    SameStore s (tick s) ∧ SameFns s (tick s) ∧ (tick s).pending = [])

/-- No command touches the queue of the commands behind it. Whatever command is performed, if it answers a next state, the commands
that wait behind it are the same, in the same order. (The queue is the model's frame, log entry 13.) (R16, R337.) -/
def Obligations.CommandsLeaveTheQueue : Prop :=
  ∀ (c : Instr) (s t : State), exec c s = .next t → t.pending = s.pending

/-- Memory and tables are in their canonical form at reset. At reset memory lists nothing: it is in its canonical form, and every
byte reads 0; the tables of harts and of calibration values are empty, and no calibration waits. (That unwritten memory reads 0
is the model's choice, log entry 3.) (06_memory.md, R52, R353.) -/
def Obligations.ResetKeepsTheForms : Prop :=
  MemCanonical State.reset ∧ TablesOk State.reset ∧ (∀ k, State.reset.byte k = 0) ∧ State.reset.pending = []

/-- Every step keeps memory in its canonical form. From every state whose memory is canonical (home addresses rise strictly and no
entry is 0), whatever command stands at the front of the queue, a step that answers a next state answers one whose memory is
canonical, so that equal memories stay equal data. (06_memory.md.) -/
def Obligations.StepsKeepMemoryForm : Prop :=
  ∀ s t : State, MemCanonical s → step s = .next t → MemCanonical t

/-- Every step keeps the tables of harts and calibration in order. From every state in which the tables of harts and of calibration
values list their keys in rising order, and in which every calibration that waits or runs is of a unit of the package and holds
permits that exist, a step that answers a next state answers one of which the same is true. (R41, R287, R288, R353,
11_scribe_calibration.md.) -/
def Obligations.StepsKeepTheTables : Prop :=
  ∀ s t : State, TablesOk s → step s = .next t → TablesOk t

/-- A register field holds what is written to it, and a write leaves the others alone. A field reads the value written to it cut to
its width; a field at another place reads as before; at reset every field of the register map reads its reset value. (R15.) -/
def Obligations.FieldsReadWhatIsWritten : Prop :=
  (∀ (s : State) (f : Fld) (v : Nat), (s.set f v).get f = v % 2 ^ f.width) ∧
  (∀ (s : State) (f g : Fld) (v : Nat), fkey f ≠ fkey g → (s.set f v).get g = s.get g) ∧
  (∀ (a base : Nat) (wide : Bool) (fs : List Fld), regAt a = some (base, wide, fs) → ∀ f ∈ fs, State.reset.get f = f.reset)

/-- What a register write changes. A write of four aligned bytes by PF0 or a hart: PEG_BLKARG takes the written fields; in HUB_ALERT
every bit written 1 is cleared and the others stay; a non-zero reserved bit is the undefined case 1 and a part of a register
with a CMD field the undefined case 6. Before the level is written, a host write outside the hub block is dropped and counted;
so is one to a die that is not released. The first write of HUB_DRV_LEVEL sets the level; later ones are ignored and counted. Of
a 64-bit register, the low half waits in the latch of the requester and the write of the high half performs both. (R15, R327,
R330, R331, R364.) -/
def Obligations.RegisterWriteEffect : Prop :=
  (∀ (r : Requester) (s : State) (v : Nat), IsPf r → Reaches r 0x600400 s → v < 2 ^ 32 → nfld v 17 3 = 0 → nfld v 24 8 = 0 →
    Completes (.registerWrite r 0x600400 (leBytes 4 v)) s fun t =>
      t.get R.PEG_BLKARG_FIRST = nfld v 0 8 ∧ t.get R.PEG_BLKARG_COUNT = nfld v 8 9 ∧ t.get R.PEG_BLKARG_TENANT = nfld v 20 4 ∧
      SameRegs (· ≠ 0x600400) s t ∧ SameMemory s t ∧ SameHarts s t ∧ SameEngines s t) ∧
  (∀ (r : Requester) (s : State) (v : Nat), IsPf r → Reaches r 0x300 s → v < 4096 →
    Completes (.registerWrite r 0x300 (leBytes 4 v)) s fun t =>
      (∀ k, k < 12 → t.get (alertFld k) = if nbit v k then 0 else s.get (alertFld k)) ∧ SameRegs (· ≠ 0x300) s t ∧ SameMemory s t) ∧
  (∀ (r : Requester) (s : State) (v : Nat), IsPf r → Reaches r 0x600400 s → v < 2 ^ 32 → nfld v 24 8 ≠ 0 →
    exec (.registerWrite r 0x600400 (leBytes 4 v)) s = .fault (.undefinedCase 1)) ∧
  (∀ (r : Requester) (s : State) (b : Byte), IsPf r → Reaches r 0x600404 s →
    exec (.registerWrite r 0x600404 [b]) s = .fault (.undefinedCase 6)) ∧
  (∀ (s : State) (v : Nat), regGate (.fn 0) 0x600400 s = .preLevel →
    exec (.registerWrite (.fn 0) 0x600400 (leBytes 4 v)) s = .next ({ s with trip := none }.incSat R.HUB_LEVEL_STAT_PRE_LEVEL)) ∧
  (∀ (r : Requester) (s : State) (v : Nat), IsPf r → regGate r 0x600400 s = .unreleased →
    exec (.registerWrite r 0x600400 (leBytes 4 v)) s = .next ({ s with trip := none }.incSat R.HUB_ACCESS_STAT_UNMAPPED)) ∧
  (∀ (r : Requester) (s : State) (v : BitVec 32), IsPf r → Reaches r 0x8 s → s.get R.HUB_LEVEL_STAT_WRITTEN = 0 → v.toNat < 16 →
    Completes (.hubDrvLevelWrite r v) s fun t =>
      t.get R.HUB_DRV_LEVEL = v.toNat ∧ t.get R.HUB_LEVEL_STAT_EFFECTIVE = min (max v.toNat 1) (s.get R.HUB_ARCH_LEVEL) ∧ t.get R.HUB_LEVEL_STAT_WRITTEN = 1 ∧
      SameRegs (fun a => a ≠ 0x8 ∧ a ≠ 0xC) s t) ∧
  (∀ (r : Requester) (s : State) (v : BitVec 32), IsPf r → Reaches r 0x8 s → s.get R.HUB_LEVEL_STAT_WRITTEN = 1 → v.toNat < 16 →
    exec (.hubDrvLevelWrite r v) s = .next ({ s with trip := none }.incSat R.HUB_ACCESS_STAT_LEVEL_IGNORED)) ∧
  (∀ (r : Requester) (s : State) (lo hi : BitVec 32), IsPf r → Reaches r 0x500008 s → nfld lo.toNat 6 6 = 0 →
    Completes (.latched64Write r 0x500008 lo) s fun t =>
      SameRegs (fun _ => True) s t ∧
      Completes (.latched64Write r 0x50000C hi) t fun u =>
        u.get R.MEM_INVAL_ARG_TENANT = nfld lo.toNat 0 4 ∧ u.get R.MEM_INVAL_ARG_SCOPE = nfld lo.toNat 4 2 ∧
        u.get R.MEM_INVAL_ARG_VPN = nfld (lo.toNat + 2 ^ 32 * hi.toNat) 12 36 ∧ u.get R.MEM_INVAL_ARG_ASID = nfld hi.toNat 16 16 ∧
        SameRegs (· ≠ 0x500008) s u ∧ SameMemory s u)

/-- What a register read answers and clears. A read of DSP_DBDROP[t], an RC counter, answers its value and leaves it 0. A read of
the low half of FTM_TIME answers the low half of FabricTime, and a read of the high half that follows, however much later,
answers the high half of the same instant. A read of an unmapped offset answers 0. (R326, R327, R328, R302.) -/
def Obligations.RegisterReadEffect : Prop :=
  (∀ (r : Requester) (s : State) (t : Tenant), IsPf r → Reaches r (0x402040 + 4 * t.val) s →
    Completes (.rcFieldRead r (BitVec.ofNat 28 (0x402040 + 4 * t.val)) 4) s fun u =>
      u.reply = .data (leBytes 4 (s.get (R.DSP_DBDROP_COUNT t.val))) ∧ u.get (R.DSP_DBDROP_COUNT t.val) = 0 ∧
      SameRegs (· ≠ 0x402040 + 4 * t.val) s u ∧ SameMemory s u ∧ SameHarts s u) ∧
  (∀ (r : Requester) (s : State), IsPf r → Reaches r 0x900000 s →
    Completes (.latched64Read r 0x900000) s fun t =>
      t.reply = .data (leBytes 4 (s.time64 % 2 ^ 32)) ∧ SameRegs (fun _ => True) s t ∧
      ∀ u : State, u.latches = t.latches → Reaches r 0x900004 u →
        Completes (.latched64Read r 0x900004) u fun v => v.reply = .data (leBytes 4 (s.time64 / 2 ^ 32)) ∧ v.regs = u.regs) ∧
  (∀ (r : Requester) (s : State), IsPf r → Reaches r 0x300000 s →
    Completes (.rcFieldRead r 0x300000 4) s fun t => t.reply = .data [0, 0, 0, 0] ∧ t.regs = s.regs)

/-- What the CSR accesses of a hart change. In M mode a write of hfqbase sets SIZE, EN and BASE and zeroes hfqhead, TAIL and
DROPPED; a write of hxseqw sets hxseq; CSRRW of hcommitto returns the old value and takes the new; CSRRS with rs1 = x0 only
reads. Each retires the instruction and touches no other hart, no register of BAR0 and no memory. Below M mode an access of hcfg
takes the illegal-instruction exception. (R52, R53, R54.) -/
def Obligations.HartCsrAccess : Prop :=
  (∀ (c : Core) (v : Word) (s : State), Runs c s → (s.hart c).priv = .m →
    Completes (.hfqbaseWrite c v) s fun t =>
      t.hart c = { (s.hart c).retire with fqSize := v.toNat % 8, fqEn := nbit v.toNat 3, fqBase := nfld v.toNat 12 36, fqTail := 0,
                                          fqDropped := 0, fqHead := 0 } ∧
      OtherHarts c s t ∧ t.regs = s.regs ∧ t.mem = s.mem) ∧
  (∀ (c : Core) (v : Word) (s : State), Runs c s → (s.hart c).priv = .m →
    Completes (.hxseqwWrite c v) s fun t =>
      t.hart c = { (s.hart c).retire with hxseq := v.toNat % 2 ^ 32 } ∧ OtherHarts c s t ∧ t.regs = s.regs ∧ t.mem = s.mem) ∧
  (∀ (c : Core) (rd rs1 : XReg) (s : State), Runs c s → (s.hart c).priv = .m →
    Completes (.csrAccess c 0x7C2 .rw false rd rs1) s fun t =>
      t.hart c = { ((s.hart c).wx rd (BitVec.ofNat 64 (s.hart c).commitTo)).retire with commitTo := (s.hart c).rn rs1 % 2 ^ 32 } ∧
      OtherHarts c s t ∧ t.regs = s.regs ∧ t.mem = s.mem) ∧
  (∀ (c : Core) (rd : XReg) (imm : Bool) (s : State), Runs c s →
    Completes (.csrAccess c 0xCC0 .rs imm rd 0) s fun t =>
      t.hart c = ((s.hart c).wx rd (BitVec.ofNat 64 (s.hart c).hxseq)).retire ∧ OtherHarts c s t ∧ t.regs = s.regs ∧ t.mem = s.mem) ∧
  (∀ (c : Core) (op : CsrOp) (imm : Bool) (rd rs1 : XReg) (s : State), Runs c s → (s.hart c).priv ≠ .m →
    exec (.csrAccess c 0x7C0 op imm rd rs1) s = .next (s.putHart c ((s.hart c).trap false 2 0)))

/-- Loading a context, and an interrupt during a wait. A context load puts the hart in U mode at the saved pc with the saved
registers, tenant and enables, every ticket slot clear and no reservation; the launch serial stays. An enabled interrupt that
arrives during any wait but GAMO's ends the wait with nothing performed: the saved pc points at the instruction, and an arrival
that hraise records is kept. During GAMO the hart goes on waiting. (R48, R51, R82, R52.) -/
def Obligations.ContextsAndWaits : Prop :=
  (∀ (c : Core) (ctx : ContextImage) (s : State), Runs c s →
    Completes (.contextLoad c ctx) s fun t =>
      (t.hart c).pc = ctx.pc ∧ (t.hart c).priv = .u ∧ (t.hart c).tenant = ctx.tenant.val ∧ (t.hart c).hsEn = ctx.hsEn ∧
      (t.hart c).hdEn = ctx.hdEn ∧ (t.hart c).hxEn = ctx.hxEn ∧ (t.hart c).slots = [] ∧ (t.hart c).resv = none ∧
      (t.hart c).serial = (s.hart c).serial ∧ (t.hart c).hxseq = ctx.hxseq.toNat ∧
      (∀ r : XReg, r ≠ 0 → (t.hart c).rx r = ctx.x.getD r.toNat 0) ∧ OtherHarts c s t ∧ t.regs = s.regs ∧ t.mem = s.mem) ∧
  (∀ (c : Core) (code : Fin 64) (s : State), s.coreOn c = true → (s.hart c).wait ≠ .none →
    (∀ q a n rd, (s.hart c).wait ≠ .gamo q a n rd) → (s.hart c).takesInterrupt code = true →
    nbit ((s.hart c).csrVal csrMideleg) code = false →
    Completes (.interruptDuringWait c code) s fun t =>
      (t.hart c).wait = .none ∧ (t.hart c).csrVal csrMepc = (s.hart c).pc.toNat ∧ (t.hart c).csrVal csrMcause = code.val + 2 ^ 63 ∧
      (t.hart c).priv = .m ∧ (t.hart c).raiseArrived = (s.hart c).raiseArrived ∧ (t.hart c).x = (s.hart c).x ∧
      (t.hart c).track = (s.hart c).track ∧ OtherHarts c s t ∧ t.regs = s.regs ∧ t.mem = s.mem) ∧
  (∀ (c : Core) (code : Fin 64) (s : State) (q a n : Nat) (rd : XReg), (s.hart c).wait = .gamo q a n rd →
    exec (.interruptDuringWait c code) s = .next s)

/-- What a load reads. An aligned load of a core store answers the bytes at its home, one of a line that the L1D holds the bytes of
the line, for the integer forms (sign- or zero-extended) and the FP forms (a word with its upper half all ones); a unit-stride
vector load with one active element fills that element's bytes. Nothing but the hart's registers changes. LD with a zero
extension, and an FP load while FS is Off, are illegal. (R43, R47, R144, R145.) -/
def Obligations.LoadEffect : Prop :=
  (∀ (c : Core) (sz : Size) (u : Bool) (rd rs1 : XReg) (imm : BitVec 12) (s : State) (k : Nat), Runs c s → ¬(sz = .d ∧ u = true) →
    AtCoreStore s c (memAddr (s.hart c) rs1 imm) (sizeBytes sz) k → s.hasError k (sizeBytes sz) = false →
    Completes (.load c (.int sz u) rd rs1 imm) s fun t =>
      t.hart c = ((s.hart c).wx rd (BitVec.ofNat 64 (loadValue (sizeBytes sz) u (leNat (s.bytesAt k (sizeBytes sz)))))).retire ∧
      OtherHarts c s t ∧ SameMemory s t ∧ t.regs = s.regs) ∧
  (∀ (c : Core) (sz : Size) (u : Bool) (rd rs1 : XReg) (imm : BitVec 12) (s : State) (k : Nat) (l : CacheLine), Runs c s →
    ¬(sz = .d ∧ u = true) → InL1d s c (memAddr (s.hart c) rs1 imm) (sizeBytes sz) k l →
    Completes (.load c (.int sz u) rd rs1 imm) s fun t =>
      t.hart c = ((s.hart c).wx rd (BitVec.ofNat 64 (loadValue (sizeBytes sz) u
        (leNat ((l.data.drop (k % 64)).take (sizeBytes sz)))))).retire ∧
      OtherHarts c s t ∧ SameMemory s t ∧ t.regs = s.regs) ∧
  (∀ (c : Core) (sz : Size) (rd rs1 : XReg) (imm : BitVec 12) (s : State) (k : Nat), Runs c s → sz = .w ∨ sz = .d →
    (s.hart c).mst 13 2 ≠ 0 → AtCoreStore s c (memAddr (s.hart c) rs1 imm) (sizeBytes sz) k → s.hasError k (sizeBytes sz) = false →
    Completes (.load c (.fp sz) rd rs1 imm) s fun t =>
      t.hart c = ((s.hart c).loadF (sizeBytes sz) rd (leNat (s.bytesAt k (sizeBytes sz)))).retire ∧
      OtherHarts c s t ∧ SameMemory s t ∧ t.regs = s.regs) ∧
  (∀ (c : Core) (a : VecAcc) (vd rs1 : XReg) (imm : BitVec 12) (s : State) (p : VecPlan) (va k j : Nat), Runs c s →
    vecPlan (s.hart c) true a vd rs1 = some p → p.elems = [(0, va)] → p.fields = 1 → va < 2 ^ 48 →
    AtCoreStore s c va p.w k → s.hasError k p.w = false → j < p.w →
    Completes (.load c (.vec a) vd rs1 imm) s fun t =>
      tget 0 (t.hart c).v (vd.toNat * 128 + j) = s.byte (k + j) ∧ (t.hart c).pc = (s.hart c).pc + 4 ∧
      (t.hart c).x = (s.hart c).x ∧ OtherHarts c s t ∧ SameMemory s t ∧ t.regs = s.regs) ∧
  (∀ (c : Core) (rd rs1 : XReg) (imm : BitVec 12) (s : State), Runs c s →
    exec (.load c (.int .d true) rd rs1 imm) s = .next (({ s with trip := none }).putHart c ((s.hart c).trap false 2 0))) ∧
  (∀ (c : Core) (sz : Size) (rd rs1 : XReg) (imm : BitVec 12) (s : State), Runs c s → (s.hart c).mst 13 2 = 0 →
    exec (.load c (.fp sz) rd rs1 imm) s = .next (({ s with trip := none }).putHart c ((s.hart c).trap false 2 0)))

/-- Where a store goes. An aligned store to a core store changes exactly its bytes there, for the integer and FP forms and for a
unit-stride vector store with one active element. A store to a line that the L1D holds changes that line, which is dirty from
then on, and no byte of memory. A store to the weight rows of an accepted tile is the undefined case 4. (R43, R46, R47, R145.) -/
def Obligations.StoreEffect : Prop :=
  (∀ (c : Core) (sz : Size) (rs2 rs1 : XReg) (imm : BitVec 12) (s : State) (k : Nat), Runs c s →
    AtCoreStore s c (memAddr (s.hart c) rs1 imm) (sizeBytes sz) k → s.hitsWeights k (sizeBytes sz) = false →
    Completes (.store c (.int sz) rs2 rs1 imm) s fun t =>
      Stored k (leBytes (sizeBytes sz) ((s.hart c).rn rs2)) s t ∧ t.hart c = (dropResv k (sizeBytes sz) (s.hart c)).retire ∧
      (∀ j, j ≠ c.val → t.hart j = dropResv k (sizeBytes sz) (s.hart j)) ∧ t.regs = s.regs) ∧
  (∀ (c : Core) (sz : Size) (rs2 rs1 : XReg) (imm : BitVec 12) (s : State) (k : Nat), Runs c s → sz = .w ∨ sz = .d →
    (s.hart c).mst 13 2 ≠ 0 → AtCoreStore s c (memAddr (s.hart c) rs1 imm) (sizeBytes sz) k →
    s.hitsWeights k (sizeBytes sz) = false →
    Completes (.store c (.fp sz) rs2 rs1 imm) s fun t =>
      Stored k (leBytes (sizeBytes sz) (tget 0 (s.hart c).f rs2.toNat).toNat) s t ∧
      t.hart c = (dropResv k (sizeBytes sz) (s.hart c)).retire ∧ t.regs = s.regs) ∧
  (∀ (c : Core) (a : VecAcc) (vs3 rs1 : XReg) (imm : BitVec 12) (s : State) (p : VecPlan) (va k : Nat), Runs c s →
    vecPlan (s.hart c) false a vs3 rs1 = some p → p.elems = [(0, va)] → p.fields = 1 → AtCoreStore s c va p.w k →
    s.hitsWeights k p.w = false →
    Completes (.store c (.vec a) vs3 rs1 imm) s fun t =>
      Stored k ((List.range p.w).map fun j => tget 0 (s.hart c).v (vs3.toNat * 128 + j)) s t ∧
      (t.hart c).pc = (s.hart c).pc + 4 ∧ t.regs = s.regs) ∧
  (∀ (c : Core) (sz : Size) (rs2 rs1 : XReg) (imm : BitVec 12) (s : State) (k : Nat) (l : CacheLine), Runs c s →
    InL1d s c (memAddr (s.hart c) rs1 imm) (sizeBytes sz) k l →
    Completes (.store c (.int sz) rs2 rs1 imm) s fun t =>
      l1dFind (t.hart c) (k / 64) =
        some { l with data := overlay l.data (k % 64) (leBytes (sizeBytes sz) ((s.hart c).rn rs2)), dirty := true } ∧
      (t.hart c).pc = (s.hart c).pc + 4 ∧ OtherHarts c s t ∧ SameMemory s t ∧ t.regs = s.regs) ∧
  (∀ (c : Core) (sz : Size) (rs2 rs1 : XReg) (imm : BitVec 12) (s : State) (k : Nat), Runs c s →
    AtCoreStore s c (memAddr (s.hart c) rs1 imm) (sizeBytes sz) k → s.hitsWeights k (sizeBytes sz) = true →
    exec (.store c (.int sz) rs2 rs1 imm) s = .fault (.undefinedCase 4))

/-- LR, SC, AMOs and the fences of a hart. LR reads, sign-extends and reserves the 64-byte block; SC with the reservation stores and
answers 0, without it stores nothing and answers 1, and either way leaves no reservation; an AMO answers the old value and
stores the result. FENCE with W in the predecessor set writes every dirty line back to its home; with R in the successor set it
leaves no clean line. FENCE.I advances the pc. SFENCE.VMA with rs1 = rs2 = x0 empties the TLB, and is illegal in U mode. (R44,
R45, R46, R47, R50.) -/
def Obligations.AtomicsAndFences : Prop :=
  (∀ (c : Core) (f : RFields) (d : Bool) (s : State) (k : Nat), Runs c s → f.rs2 = 0 →
    AtCoreStore s c ((s.hart c).rn f.rs1) (if d then 8 else 4) k → s.hasError k (if d then 8 else 4) = false →
    l1dFind (s.hart c) (k / 64) = none →
    Completes (.lrScAmo c .lr d f) s fun t =>
      t.hart c = ({ s.hart c with resv := some (k / 64) }.wx f.rd
        (BitVec.ofNat 64 (loadValue (if d then 8 else 4) false (leNat (s.bytesAt k (if d then 8 else 4)))))).retire ∧
      OtherHarts c s t ∧ SameMemory s t ∧ t.regs = s.regs) ∧
  (∀ (c : Core) (f : RFields) (d : Bool) (s : State) (k : Nat), Runs c s → (s.hart c).resv = some (k / 64) →
    AtCoreStore s c ((s.hart c).rn f.rs1) (if d then 8 else 4) k → s.hitsWeights k (if d then 8 else 4) = false →
    l1dFind (s.hart c) (k / 64) = none →
    Completes (.lrScAmo c .sc d f) s fun t =>
      t.hart c = ({ s.hart c with resv := none }.wx f.rd 0).retire ∧
      Stored k (leBytes (if d then 8 else 4) ((s.hart c).rn f.rs2)) s t ∧ t.regs = s.regs) ∧
  (∀ (c : Core) (f : RFields) (d : Bool) (s : State) (k : Nat), Runs c s → (s.hart c).resv ≠ some (k / 64) →
    AtCoreStore s c ((s.hart c).rn f.rs1) (if d then 8 else 4) k → l1dFind (s.hart c) (k / 64) = none →
    Completes (.lrScAmo c .sc d f) s fun t =>
      t.hart c = ({ s.hart c with resv := none }.wx f.rd 1).retire ∧ OtherHarts c s t ∧ SameMemory s t ∧ t.regs = s.regs) ∧
  (∀ (c : Core) (form : AmoForm) (f : RFields) (d : Bool) (s : State) (k : Nat), Runs c s → form ≠ .lr → form ≠ .sc →
    AtCoreStore s c ((s.hart c).rn f.rs1) (if d then 8 else 4) k → s.hasError k (if d then 8 else 4) = false →
    s.hitsWeights k (if d then 8 else 4) = false → l1dFind (s.hart c) (k / 64) = none →
    Completes (.lrScAmo c form d f) s fun t =>
      (t.hart c).rx f.rd = (if f.rd = 0 then 0 else
        BitVec.ofNat 64 (loadValue (if d then 8 else 4) false (leNat (s.bytesAt k (if d then 8 else 4))))) ∧
      Stored k (leBytes (if d then 8 else 4) (amoResult (amoCode form) (if d then 8 else 4)
        (leNat (s.bytesAt k (if d then 8 else 4))) ((s.hart c).rn f.rs2 % 2 ^ (8 * (if d then 8 else 4))) 0)) s t ∧
      t.regs = s.regs) ∧
  (∀ (c : Core) (pred succ : FenceSet) (tso : Bool) (s : State), Runs c s →
    (∀ l ∈ (s.hart c).l1d, l.dirty = true → l.data.length = 64 ∧ s.hitsWeights (l.block * 64) 64 = false ∧
      s.memStopped (l.block * 64) = false) → (s.hart c).l1d.Pairwise (fun a b => a.block ≠ b.block) →
    Completes (.fence c pred succ tso) s fun t =>
      (t.hart c).pc = (s.hart c).pc + 4 ∧ (t.hart c).x = (s.hart c).x ∧ t.regs = s.regs ∧
      (pred.w = true ∨ tso = true → (∀ l ∈ (t.hart c).l1d, l.dirty = false) ∧
        ∀ l ∈ (s.hart c).l1d, l.dirty = true → ∀ i, i < 64 → t.byte (l.block * 64 + i) = l.data.getD i 0) ∧
      (succ.r = true ∨ tso = true → ∀ l ∈ (t.hart c).l1d, l.dirty = true) ∧
      (pred.w = false → succ.r = false → tso = false → (t.hart c).l1d = (s.hart c).l1d ∧ t.mem = s.mem)) ∧
  (∀ (c : Core) (s : State), Runs c s →
    Completes (.fenceI c) s fun t => t.hart c = (s.hart c).retire ∧ OtherHarts c s t ∧ t.regs = s.regs ∧ t.mem = s.mem) ∧
  (∀ (c : Core) (s : State), Runs c s → (s.hart c).priv = .m →
    Completes (.sfenceVma c 0 0) s fun t =>
      t.hart c = { (s.hart c).retire with tlb := [] } ∧ OtherHarts c s t ∧ t.regs = s.regs ∧ t.mem = s.mem) ∧
  (∀ (c : Core) (rs1 rs2 : XReg) (s : State), Runs c s → (s.hart c).priv = .u →
    exec (.sfenceVma c rs1 rs2) s = .next (s.putHart c ((s.hart c).trap false 2 0)))

/-- Matrix moves between memory and the matrix state. With the matrix unit on and no MMA queued, MLD.T and MLD.A fill a tile or an
accumulator row by row from the core store, MLDS.T a scale buffer, MZERO.A zeroes one accumulator, and MST.A writes the rows of
an accumulator, each element converted to the format of the instruction, to exactly their places. With the matrix unit off each
is illegal. (R57, R58, R59, R61, R85.) -/
def Obligations.MatrixLoadsAndStores : Prop :=
  (∀ (c : Core) (f7 : BitVec 7) (f : RFields) (s : State) (k : Nat → Nat), Runs c s → (s.hart c).mst 15 2 ≠ 0 → (s.hart c).mmaq = [] →
    f7.toNat < 2 → f.rd.toNat < 8 →
    (∀ i, i < (if f7.toNat = 1 then 16 else 32) →
      AtCoreStore s c (((s.hart c).rn f.rs1 + i * (s.hart c).rn f.rs2) % 2 ^ 64) (if f7.toNat = 1 then 64 else 32) (k i) ∧
      s.hasError (k i) (if f7.toNat = 1 then 64 else 32) = false) →
    Completes (.mldT c f7 f) s fun t =>
      (∀ i j, i < (if f7.toNat = 1 then 16 else 32) → j < (if f7.toNat = 1 then 64 else 32) →
        (t.hart c).tileByte f.rd.toNat (i * (if f7.toNat = 1 then 64 else 32) + j) = (s.byte (k i + j)).toNat) ∧
      (t.hart c).pc = (s.hart c).pc + 4 ∧ (t.hart c).acc = (s.hart c).acc ∧ OtherHarts c s t ∧ SameMemory s t ∧ t.regs = s.regs) ∧
  (∀ (c : Core) (f : RFields) (s : State) (k : Nat), Runs c s → (s.hart c).mst 15 2 ≠ 0 → (s.hart c).mmaq = [] →
    f.rd.toNat < 8 → f.rs2 = 0 → AtCoreStore s c ((s.hart c).rn f.rs1) 64 k → s.hasError k 64 = false →
    Completes (.mldsT c 0 f) s fun t =>
      (∀ j, j < 64 → tget 0 (t.hart c).tscale (f.rd.toNat * 64 + j) = s.byte (k + j)) ∧
      (t.hart c).pc = (s.hart c).pc + 4 ∧ (t.hart c).tile = (s.hart c).tile ∧ OtherHarts c s t ∧ SameMemory s t ∧ t.regs = s.regs) ∧
  (∀ (c : Core) (f : RFields) (s : State) (k : Nat → Nat), Runs c s → (s.hart c).mst 15 2 ≠ 0 → (s.hart c).mmaq = [] →
    f.rd.toNat < 4 →
    (∀ i, i < 32 → AtCoreStore s c (((s.hart c).rn f.rs1 + i * (s.hart c).rn f.rs2) % 2 ^ 64) 128 (k i) ∧
      s.hasError (k i) 128 = false) →
    Completes (.mldA c 0 f) s fun t =>
      (∀ i j, i < 32 → j < 32 → (t.hart c).accElem f.rd.toNat (32 * i + j) = leNat (s.bytesAt (k i + 4 * j) 4)) ∧
      (t.hart c).pc = (s.hart c).pc + 4 ∧ (t.hart c).tile = (s.hart c).tile ∧ OtherHarts c s t ∧ SameMemory s t ∧ t.regs = s.regs) ∧
  (∀ (c : Core) (f : RFields) (s : State), Runs c s → (s.hart c).mst 15 2 ≠ 0 → (s.hart c).mmaq = [] →
    f.rd.toNat < 4 → f.rs1 = 0 → f.rs2 = 0 →
    Completes (.mzeroA c 0 f) s fun t =>
      (∀ n, n < 1024 → (t.hart c).accElem f.rd.toNat n = 0) ∧
      (∀ a n, a ≠ f.rd.toNat → n < 1024 → (t.hart c).accElem a n = (s.hart c).accElem a n) ∧
      (t.hart c).pc = (s.hart c).pc + 4 ∧ OtherHarts c s t ∧ t.mem = s.mem ∧ t.regs = s.regs) ∧
  (∀ (c : Core) (f7 : BitVec 7) (f : RFields) (s : State) (k : Nat → Nat) (w : Nat) (ty : Option Fmt) (rows : Nat), Runs c s →
    (s.hart c).mst 15 2 ≠ 0 → (s.hart c).mmaq = [] → f.rd.toNat < 4 → f7.toNat < 16 → mstFmt (f7.toNat % 8) = some (w, ty) →
    rows = (if nbit f7.toNat 3 then 16 else 32) →
    (∀ i, i < rows → AtCoreStore s c (((s.hart c).rn f.rs1 + i * (s.hart c).rn f.rs2) % 2 ^ 64) (32 * w) (k i) ∧
      s.hitsWeights (k i) (32 * w) = false) →
    (∀ i j, i < j → j < rows → k i + 32 * w ≤ k j) →
    Completes (.mstA c f7 f) s fun t =>
      (∀ i j, i < rows → j < 32 * w → t.byte (k i + j) = (mstRow (s.hart c) f.rd.toNat w ty i).1.getD j 0) ∧
      (∀ a, (∀ i, i < rows → ¬(k i ≤ a ∧ a < k i + 32 * w)) → t.byte a = s.byte a) ∧
      (t.hart c).pc = (s.hart c).pc + 4 ∧ (t.hart c).acc = (s.hart c).acc ∧ t.regs = s.regs) ∧
  (∀ (c : Core) (f7 : BitVec 7) (f : RFields) (s : State), Runs c s → (s.hart c).mst 15 2 = 0 →
    exec (.mldT c f7 f) s = .next (({ s with trip := none }).putHart c ((s.hart c).trap false 2 0)) ∧
    exec (.mldsT c f7 f) s = .next (({ s with trip := none }).putHart c ((s.hart c).trap false 2 0)) ∧
    exec (.mldA c f7 f) s = .next (({ s with trip := none }).putHart c ((s.hart c).trap false 2 0)) ∧
    exec (.mstA c f7 f) s = .next (({ s with trip := none }).putHart c ((s.hart c).trap false 2 0)) ∧
    exec (.mzeroA c f7 f) s = .next (s.putHart c ((s.hart c).trap false 2 0)) ∧
    exec (.mma c f7 f) s = .next (s.putHart c ((s.hart c).trap false 2 0)) ∧
    exec (.mcvt c f7 f) s = .next (s.putHart c ((s.hart c).trap false 2 0)))

/-- MMA joins the queue, its completion rounds each element once, MCVT converts vl elements. MMA with legal fields joins the
two-entry queue of the hart and retires, the accumulators unchanged while there is room. The completion of the oldest MMA gives
each element of its region the one rounding of the sum of all its terms and the old value, and changes no other accumulator
element. MCVT converts each of the vl elements. (R59, R60, R62, R89, R90, R91.) -/
def Obligations.MatrixArithmetic : Prop :=
  (∀ (c : Core) (f7 : BitVec 7) (f : RFields) (s : State) (m : MmaFmt), Runs c s → (s.hart c).mst 15 2 ≠ 0 →
    mmaFmt f7.toNat = some m → f.rd.toNat < 4 → f.rs1.toNat < 8 → f.rs2.toNat < 8 → (m.a.width = 16 → f.rs2.toNat % 2 = 0) →
    (s.hart c).mmaq.length < 2 →
    Completes (.mma c f7 f) s fun t =>
      (t.hart c).mmaq = (s.hart c).mmaq ++ [⟨f7.toNat, f.rd.toNat, f.rs1.toNat, f.rs2.toNat⟩] ∧
      (t.hart c).acc = (s.hart c).acc ∧ (t.hart c).pc = (s.hart c).pc + 4 ∧ OtherHarts c s t ∧ t.mem = s.mem ∧ t.regs = s.regs) ∧
  (∀ (c : Core) (s : State) (op : MmaOp) (rest : List MmaOp) (m : MmaFmt), s.coreOn c = true → (s.hart c).mmaq = op :: rest →
    mmaFmt op.fmt = some m →
    Completes (.mmaComplete c) s fun t =>
      (t.hart c).mmaq = rest ∧
      (∀ n, n < m.m * 32 → (t.hart c).accElem op.a n =
        (mmaElement ((s.hart c).accElem op.a n) (mmaTerms (s.hart c) m op.ta op.tb (n / 32) (n % 32))).1) ∧
      (∀ a n, (a ≠ op.a ∨ m.m * 32 ≤ n) → n < 1024 → (t.hart c).accElem a n = (s.hart c).accElem a n) ∧
      (t.hart c).tile = (s.hart c).tile ∧ (t.hart c).pc = (s.hart c).pc ∧ OtherHarts c s t ∧ t.mem = s.mem ∧ t.regs = s.regs) ∧
  (∀ (c : Core) (f7 : BitVec 7) (f : RFields) (s : State) (k : Cvt), Runs c s → (s.hart c).mst 15 2 ≠ 0 → (s.hart c).mst 9 2 ≠ 0 →
    mcvtOf f7.toNat = some k → f.rs1 = 0 →
    mcvtOk k ((s.hart c).csrVal csrVtype) (s.hart c).vl ((s.hart c).csrVal csrVstart) f7.toNat f = true →
    Completes (.mcvt c f7 f) s fun t =>
      (k.dw ≠ 4 → elemsOf (k.dw / 8) (s.hart c).vl ((t.hart c).vBytes f.rd ((s.hart c).vl * (k.dw / 8))) =
        (elemsOf (k.sw / 8) (s.hart c).vl ((s.hart c).vBytes f.rs2 ((s.hart c).vl * (k.sw / 8)))).map
          fun x => (k.conv x).1 % 2 ^ k.dw) ∧
      (t.hart c).pc = (s.hart c).pc + 4 ∧ (t.hart c).x = (s.hart c).x ∧ (t.hart c).acc = (s.hart c).acc ∧ OtherHarts c s t ∧
      t.mem = s.mem ∧ t.regs = s.regs)

/-- Adding to, subtracting from, reading, waiting on and taking from a local peg. PEG.ADD and PEG.SUB return the old value and
saturate at 2^24 - 1 with OVF, or clamp at 0 with UNF; n = 0 changes nothing. PEG.READ returns the value. PEG.WAITGE and
PEG.TAKE return it once it is at least n, TAKE having subtracted n; before that the hart waits and the peg is as it was. Memory
is unchanged. A hart whose tenant does not own the peg takes the peg access fault, and a poisoned peg raises cause 19. (R63,
R64, R65, R66, R162.) -/
def Obligations.PegInstructions : Prop :=
  (∀ (c : Core) (f : RFields) (p : Nat) (s : State), LocalPeg s c f p → NoTakes s p →
    Completes (.pegAdd c f) s fun t =>
      t.peg p = min (s.peg p + (s.hart c).rn f.rs2 % 2 ^ 24) pegMax ∧ (t.hart c).pc = (s.hart c).pc + 4 ∧
      (t.hart c).rx f.rd = (if f.rd = 0 then 0 else BitVec.ofNat 64 (s.peg p)) ∧
      (pegMax < s.peg p + (s.hart c).rn f.rs2 % 2 ^ 24 → t.bit (R.PEG_VAL_OVF p) = true ∧
        t.bit (R.PEG_TSUM_OVF (pegOwner s p)) = true) ∧ SameMemory s t) ∧
  (∀ (c : Core) (f : RFields) (p : Nat) (s : State), LocalPeg s c f p → NoTakes s p → (s.hart c).fqEn = false →
    Completes (.pegSub c f) s fun t =>
      t.peg p = s.peg p - (s.hart c).rn f.rs2 % 2 ^ 24 ∧ (t.hart c).pc = (s.hart c).pc + 4 ∧
      (t.hart c).rx f.rd = (if f.rd = 0 then 0 else BitVec.ofNat 64 (s.peg p)) ∧
      (s.peg p < (s.hart c).rn f.rs2 % 2 ^ 24 → t.bit (R.PEG_VAL_UNF p) = true ∧ t.bit (R.PEG_TSUM_UNF (pegOwner s p)) = true) ∧
      SameMemory s t) ∧
  (∀ (c : Core) (f : RFields) (p : Nat) (s : State), LocalPeg s c f p → (s.hart c).rn f.rs2 % 2 ^ 24 ≤ s.peg p →
    Completes (.pegWaitge c f) s fun t => OnlyHart c ((s.hart c).wx f.rd (BitVec.ofNat 64 (s.peg p))).retire s t) ∧
  (∀ (c : Core) (f : RFields) (p : Nat) (s : State), LocalPeg s c f p → s.peg p < (s.hart c).rn f.rs2 % 2 ^ 24 →
    Completes (.pegWaitge c f) s fun t =>
      OnlyHart c { s.hart c with wait := .peg false ((s.hart c).rn f.rs1) ((s.hart c).rn f.rs2 % 2 ^ 24) f.rd } s t) ∧
  (∀ (c : Core) (f : RFields) (p : Nat) (s : State), LocalPeg s c f p → NoTakes s p → (s.hart c).rn f.rs2 % 2 ^ 24 ≤ s.peg p →
    Completes (.pegTake c f) s fun t =>
      t.peg p = s.peg p - (s.hart c).rn f.rs2 % 2 ^ 24 ∧ (t.hart c).pc = (s.hart c).pc + 4 ∧
      (t.hart c).rx f.rd = (if f.rd = 0 then 0 else BitVec.ofNat 64 (s.peg p)) ∧ SameMemory s t) ∧
  (∀ (c : Core) (f : RFields) (p : Nat) (s : State), LocalPeg s c f p → s.peg p < (s.hart c).rn f.rs2 % 2 ^ 24 →
    Completes (.pegTake c f) s fun t =>
      OnlyHart c { s.hart c with wait := .peg true ((s.hart c).rn f.rs1) ((s.hart c).rn f.rs2 % 2 ^ 24) f.rd } s t) ∧
  (∀ (c : Core) (f : RFields) (p : Nat) (s : State), LocalPeg s c f p → f.rs2 = 0 →
    Completes (.pegRead c f) s fun t => OnlyHart c ((s.hart c).wx f.rd (BitVec.ofNat 64 (s.peg p))).retire s t) ∧
  (∀ (c : Core) (f : RFields) (s : State), Runs c s → hsIllegal (s.hart c) = false → f.rs2 = 0 →
    pegOwned s (s.hart c).tenant ((s.hart c).rn f.rs1 % 65536) = false →
    exec (.pegRead c f) s = .next (({ s with trip := none }).putHart c ((s.hart c).trap false 24 ((s.hart c).rn f.rs1)))) ∧
  (∀ (c : Core) (f : RFields) (p : Nat) (s : State), Runs c s → hsIllegal (s.hart c) = false → f.rs2 = 0 →
    pegOperandOk ((s.hart c).rn f.rs1) = true → pegRemote ((s.hart c).rn f.rs1) = false → (s.hart c).rn f.rs1 % 65536 = p →
    pegOwned s (s.hart c).tenant p = true → s.bayDead (p / 8192) = false → s.bit (R.PEG_VAL_POISON p) = true →
    exec (.pegRead c f) s = .next (({ s with trip := none }).putHart c ((s.hart c).trap false 19 ((s.hart c).rn f.rs1))))

/-- An arrival counts, the last one releases, and a timed release comes at its instant. An arrival that is not the last of N adds 1
to the count peg, is recorded in hraise, and the hart waits. The last one of a raising without a link zeroes the count, flips
bit 0 of the sense peg and returns the phase of the arrival. The timed release of a root whose instant has come flips the sense
peg and counts in its link entry. Memory is unchanged. (R71, R176, R177, R180.) -/
def Obligations.Raisings : Prop :=
  (∀ (c : Core) (f : RFields) (p : Nat) (s : State), LocalPeg s c f p → p % 2 = 0 → s.bit (R.PEG_VAL_POISON (p + 1)) = false →
    (s.hart c).raiseArrived = false → NoTakes s p → s.peg p + 1 < (s.hart c).rn f.rs2 % 65536 →
    Completes (.raise c f) s fun t =>
      t.peg p = s.peg p + 1 ∧ t.peg (p + 1) = s.peg (p + 1) ∧ (t.hart c).raiseArrived = true ∧ (t.hart c).raisePeg = p ∧
      (t.hart c).raisePhase = s.peg (p + 1) % 2 ∧ (t.hart c).pc = (s.hart c).pc ∧
      (t.hart c).wait = .raise ((s.hart c).rn f.rs1) (s.peg (p + 1) % 2) f.rd ∧ SameMemory s t) ∧
  (∀ (c : Core) (f : RFields) (p : Nat) (s : State), LocalPeg s c f p → p % 2 = 0 → s.bit (R.PEG_VAL_POISON (p + 1)) = false →
    (s.hart c).raiseArrived = false → NoTakes s p → NoTakes s (p + 1) → linkOf s p = none →
    0 < (s.hart c).rn f.rs2 % 65536 → (s.hart c).rn f.rs2 % 65536 ≤ s.peg p + 1 →
    Completes (.raise c f) s fun t =>
      t.peg p = 0 ∧ t.peg (p + 1) = s.peg (p + 1) / 2 * 2 + (1 - s.peg (p + 1) % 2) ∧ (t.hart c).wait = .none ∧
      (t.hart c).pc = (s.hart c).pc + 4 ∧ (t.hart c).raiseArrived = false ∧
      (t.hart c).rx f.rd = (if f.rd = 0 then 0 else BitVec.ofNat 64 (s.peg (p + 1) % 2)) ∧ SameMemory s t) ∧
  (∀ (k : Fin 256) (ph : Nat) (s : State), s.timedWait.find? (fun w => w.1 == k.val) = some (k.val, ph) → HartsOk s →
    0 ≤ timeDiff s.time64 (s.get (R.PEG_RLINK_RELEASE_AT k)) → NoTakes s (s.get (R.PEG_RLINK_LOCAL k) + 1) →
    Completes (.timedRelease k) s fun t =>
      t.peg (s.get (R.PEG_RLINK_LOCAL k) + 1) =
        (s.peg (s.get (R.PEG_RLINK_LOCAL k) + 1) / 2 * 2 + (1 - ph)) % 2 ^ 24 ∧
      t.get (R.PEG_RLINK_TIMED k) = 0 ∧ t.get (R.PEG_RLINK_STATE k) = s.linkState k ∧
      t.get (R.PEG_RLINK_RELEASES k) = (s.get (R.PEG_RLINK_RELEASES k) + 1) % 2 ^ (R.PEG_RLINK_RELEASES k).width ∧
      t.timedWait = s.timedWait.filter (fun w => w.1 != k.val) ∧ SameMemory s t)

/-- The Henovik fences and the commit fence's results. HFENCE.REL writes every dirty line back and HFENCE.ACQ leaves no clean line.
HFENCE.COMMIT with no tracked request returns COMPLETE, or FAULTED with the number of requests NACKed since the last one; with
one still tracked the hart waits. When hcommitto expires it returns LOST with the oldest sequence number, and the tracker is
empty. With HS disabled below M mode the fences are illegal. (R55, R68, R69, R70.) -/
def Obligations.HartFences : Prop :=
  (∀ (c : Core) (s : State), Runs c s → hsIllegal (s.hart c) = false →
    (∀ l ∈ (s.hart c).l1d, l.dirty = true → l.data.length = 64 ∧ s.hitsWeights (l.block * 64) 64 = false ∧
      s.memStopped (l.block * 64) = false) → (s.hart c).l1d.Pairwise (fun a b => a.block ≠ b.block) →
    Completes (.hfenceRel c ⟨0, 0, 0⟩) s fun t =>
      (t.hart c).pc = (s.hart c).pc + 4 ∧ (t.hart c).x = (s.hart c).x ∧ t.regs = s.regs ∧
      (∀ l ∈ (t.hart c).l1d, l.dirty = false) ∧
      ∀ l ∈ (s.hart c).l1d, l.dirty = true → ∀ i, i < 64 → t.byte (l.block * 64 + i) = l.data.getD i 0) ∧
  (∀ (c : Core) (s : State), Runs c s → hsIllegal (s.hart c) = false →
    Completes (.hfenceAcq c ⟨0, 0, 0⟩) s fun t =>
      OnlyHart c { (s.hart c).retire with l1d := (s.hart c).l1d.filter fun l => l.dirty } s t) ∧
  (∀ (c : Core) (rd : XReg) (s : State), Runs c s → hsIllegal (s.hart c) = false → (s.hart c).l1d = [] → (s.hart c).track = [] →
    Completes (.hfenceCommit c ⟨rd, 0, 0⟩) s fun t =>
      OnlyHart c { ((s.hart c).wx rd (BitVec.ofNat 64 ((if (s.hart c).nacked = 0 then 0 else 1) +
        2 ^ 16 * min (s.hart c).nacked 0xFFFF))).retire with nacked := 0 } s t) ∧
  (∀ (c : Core) (rd : XReg) (s : State), Runs c s → hsIllegal (s.hart c) = false → (s.hart c).l1d = [] → (s.hart c).track ≠ [] →
    Completes (.hfenceCommit c ⟨rd, 0, 0⟩) s fun t => OnlyHart c { s.hart c with wait := .commit s.time64 rd } s t) ∧
  (∀ (c : Core) (s : State) (since : Nat) (rd : XReg) (e : TrackEnt) (r : List TrackEnt), (s.hart c).wait = .commit since rd →
    (s.hart c).commitTo ≠ 0 → (s.hart c).track = e :: r →
    Completes (.commitTimeout c) s fun t =>
      (t.hart c).track = [] ∧ (t.hart c).wait = .none ∧ (t.hart c).nacked = 0 ∧ (t.hart c).pc = (s.hart c).pc + 4 ∧
      (t.hart c).rx rd = (if rd = 0 then 0 else
        BitVec.ofNat 64 (2 + 2 ^ 16 * min (s.hart c).nacked 0xFFFF + 2 ^ 32 * e.seq)) ∧
      OtherHarts c s t ∧ t.mem = s.mem ∧ t.regs = s.regs) ∧
  (∀ (c : Core) (f : RFields) (s : State), Runs c s → hsIllegal (s.hart c) = true →
    exec (.hfenceRel c f) s = .next (({ s with trip := none }).putHart c ((s.hart c).trap false 2 0)) ∧
    exec (.hfenceAcq c f) s = .next (s.putHart c ((s.hart c).trap false 2 0)) ∧
    exec (.hfenceCommit c f) s = .next (({ s with trip := none }).putHart c ((s.hart c).trap false 2 0)))

/-- Launching a tile and asking for its outcome. PMX.LAUNCH of a descriptor in the core store for an engine of the hart's bay that
is in service: with a ticket register, a free slot and room, the hart gets the slot and the launch serial, the slot waits for an
outcome, and the tile is the last of the engine's queue; without a slot, or without room, it returns that and launches nothing.
With rd = x0 the launch is detached; without room the hart waits, and resumes when there is room. PMX.WAIT and PMX.POLL of a
final ticket return its outcome and free the slot; of a pending one WAIT waits and POLL returns PENDING; of an unknown ticket
both return NO_TICKET. PMX.ERR returns the published error. PMX.CANCEL of a tile that has ended returns 1. (R55, R72, R73, R74,
R75.) -/
def Obligations.DispatchInstructions : Prop :=
  (∀ (c : Core) (f : RFields) (s : State) (k : Nat) (d : List Byte) (i : Nat) (r : List Nat), Runs c s → hdIllegal (s.hart c) = false →
    AtCoreStore s c ((s.hart c).rn f.rs1) 128 k → s.hasError k 128 = false → d = s.bytesAt k 128 →
    pegOwned s (s.hart c).tenant (descCpeg d) = true → f.rd ≠ 0 → freeSlots (s.hart c) = i :: r →
    dfld d 0 0 4 / 2 = c.val / 128 → s.engFull (dfld d 0 0 4) = false → s.engServing (dfld d 0 0 4) = true →
    Completes (.pmxLaunch c f) s fun t =>
      ∃ slot ∈ freeSlots (s.hart c), ∃ x : Tile,
        (t.hart c).rx f.rd = BitVec.ofNat 64 (slot + 2 ^ 4 * (s.hart c).serial) ∧
        (t.hart c).serial = ((s.hart c).serial + 1) % 4096 ∧ (t.hart c).pc = (s.hart c).pc + 4 ∧
        (t.hart c).slots = tput slot { serial := (s.hart c).serial, outcome := none } (s.hart c).slots ∧
        (t.eng (dfld d 0 0 4)).queue = (s.eng (dfld d 0 0 4)).queue ++ [x] ∧ x.desc = d ∧ x.tenant = (s.hart c).tenant ∧
        x.src = .hart c (some (slot, (s.hart c).serial)) ∧ OtherHarts c s t ∧ SameMemory s t) ∧
  (∀ (c : Core) (f : RFields) (s : State) (k : Nat), Runs c s → hdIllegal (s.hart c) = false →
    AtCoreStore s c ((s.hart c).rn f.rs1) 128 k → s.hasError k 128 = false →
    pegOwned s (s.hart c).tenant (descCpeg (s.bytesAt k 128)) = true → f.rd ≠ 0 → freeSlots (s.hart c) = [] →
    Completes (.pmxLaunch c f) s fun t => OnlyHart c ((s.hart c).wx f.rd (2 * 2 ^ 16)).retire s t ∧ t.engs = s.engs) ∧
  (∀ (c : Core) (f : RFields) (s : State) (k : Nat), Runs c s → hdIllegal (s.hart c) = false →
    AtCoreStore s c ((s.hart c).rn f.rs1) 128 k → s.hasError k 128 = false →
    pegOwned s (s.hart c).tenant (descCpeg (s.bytesAt k 128)) = true → f.rd = 0 → (s.hart c).detached < 255 →
    dfld (s.bytesAt k 128) 0 0 4 / 2 = c.val / 128 → s.engFull (dfld (s.bytesAt k 128) 0 0 4) = true →
    Completes (.pmxLaunch c f) s fun t => OnlyHart c { s.hart c with wait := .launch (s.bytesAt k 128) } s t ∧ t.engs = s.engs) ∧
  (∀ (c : Core) (s : State) (d : List Byte), (s.hart c).wait = .launch d → (s.hart c).detached < 255 →
    dfld d 0 0 4 / 2 = c.val / 128 → s.engFull (dfld d 0 0 4) = false → s.engServing (dfld d 0 0 4) = true →
    Completes (.detachedLaunchResume c) s fun t =>
      (t.hart c).wait = .none ∧ (t.hart c).detached = (s.hart c).detached + 1 ∧ (t.hart c).pc = (s.hart c).pc + 4 ∧
      (t.eng (dfld d 0 0 4)).queue.map Tile.desc = (s.eng (dfld d 0 0 4)).queue.map Tile.desc ++ [d] ∧ SameMemory s t) ∧
  (∀ (c : Core) (f : RFields) (s : State) (sl : Slot) (o e : Nat), Runs c s → hdIllegal (s.hart c) = false →
    ticketSlot (s.hart c) ((s.hart c).rn f.rs1 % 65536) = some sl → sl.outcome = some (o, e) →
    Completes (.pmxWait c f) s (OnlyHart c ({ s.hart c with slots := terase ((s.hart c).rn f.rs1 % 16) (s.hart c).slots }.wx f.rd
      (BitVec.ofNat 64 (o + 2 ^ 16 * e))).retire s) ∧
    Completes (.pmxPoll c f) s (OnlyHart c ({ s.hart c with slots := terase ((s.hart c).rn f.rs1 % 16) (s.hart c).slots }.wx f.rd
      (BitVec.ofNat 64 (o + 2 ^ 16 * e))).retire s)) ∧
  (∀ (c : Core) (f : RFields) (s : State) (sl : Slot), Runs c s → hdIllegal (s.hart c) = false →
    ticketSlot (s.hart c) ((s.hart c).rn f.rs1 % 65536) = some sl → sl.outcome = none →
    Completes (.pmxWait c f) s (OnlyHart c { s.hart c with wait := .pmx ((s.hart c).rn f.rs1 % 65536) f.rd } s) ∧
    Completes (.pmxPoll c f) s (OnlyHart c ((s.hart c).wx f.rd 0xFE).retire s)) ∧
  (∀ (c : Core) (f : RFields) (s : State), Runs c s → hdIllegal (s.hart c) = false →
    ticketSlot (s.hart c) ((s.hart c).rn f.rs1 % 65536) = none →
    Completes (.pmxWait c f) s (OnlyHart c ((s.hart c).wx f.rd 0xFF).retire s) ∧
    Completes (.pmxPoll c f) s (OnlyHart c ((s.hart c).wx f.rd 0xFF).retire s) ∧
    Completes (.pmxCancel c f) s (OnlyHart c ((s.hart c).wx f.rd 0xFF).retire s)) ∧
  (∀ (c : Core) (f : RFields) (s : State) (sl : Slot), Runs c s → hdIllegal (s.hart c) = false →
    ticketSlot (s.hart c) ((s.hart c).rn f.rs1 % 65536) = some sl → sl.outcome ≠ none →
    Completes (.pmxCancel c f) s (OnlyHart c ((s.hart c).wx f.rd 1).retire s)) ∧
  (∀ (c : Core) (f : RFields) (s : State), Runs c s → hdIllegal (s.hart c) = false →
    Completes (.pmxErr c f) s (OnlyHart c ((s.hart c).wx f.rd (BitVec.ofNat 64
      (if nfld ((s.hart c).rn f.rs1) 4 2 = 3 then 0xFFFF
       else s.get (R.PMX_ERR_ERR (nfld ((s.hart c).rn f.rs1) 0 4)
        (nfld ((s.hart c).rn f.rs1) 4 2 + if nbit ((s.hart c).rn f.rs1) 6 then 3 else 0))))).retire s))

/-- What a hart sends to other packages. With a route and an aligned global address: GLD and GAMO send one request with the next
request number and the hart waits for its answer; VGLD sends READs of at most 256 bytes and waits; GST and VGST are posted: rd
gets the sequence number, the tracker gains an entry, the transactions leave, and the hart goes on. A posted request that found
the tracker full issues when an entry is free. CRC32C folds the bytes of rs2 into the state in rs1. Without a route GLD takes
the remote access fault with reason 5. (R76, R77, R79, R80, R81.) -/
def Obligations.RemoteInstructions : Prop :=
  (∀ (c : Core) (f7 : BitVec 7) (rd rs1 : XReg) (s : State) (a n : Nat), Runs c s → hxIllegal (s.hart c) = false → f7.toNat < 8 →
    a = (s.hart c).rn rs1 → n = 2 ^ (f7.toNat % 4) → a % n = 0 → s.hasRoute (nfld a 48 16) = true →
    Completes (.gld c f7 ⟨rd, rs1, 0⟩) s fun t =>
      t.hart c = { s.hart c with reqno := ((s.hart c).reqno + 1) % 2 ^ 32, wait := .gld (s.hart c).reqno a n (nbit f7.toNat 2) rd } ∧
      (∃ x : RoutedXact, t.fabricOut = s.fabricOut ++ [x] ∧ x.dst = nfld a 48 16 ∧ x.cls = 0 ∧ x.x.op = 2 ∧
        x.x.body.size.toNat = n ∧ x.x.body.addr.toNat = a % 2 ^ 48 ∧ x.x.body.core.toNat = c.val) ∧
      OtherHarts c s t ∧ t.regs = s.regs ∧ t.mem = s.mem) ∧
  (∀ (c : Core) (f7 : BitVec 7) (f : RFields) (s : State), Runs c s → hxIllegal (s.hart c) = false → f7.toNat < 4 →
    (s.hart c).rn f.rs1 % 2 ^ f7.toNat = 0 → s.hasRoute (nfld ((s.hart c).rn f.rs1) 48 16) = true → (s.hart c).track.length < 256 →
    Completes (.gst c f7 f) s fun t =>
      (t.hart c).rx f.rd = (if f.rd = 0 then 0 else BitVec.ofNat 64 (s.hart c).hxseq) ∧
      (t.hart c).hxseq = ((s.hart c).hxseq + 1) % 2 ^ 32 ∧ (t.hart c).track.length = (s.hart c).track.length + 1 ∧
      (t.hart c).pc = (s.hart c).pc + 4 ∧ (t.hart c).wait = .none ∧
      (∃ x : RoutedXact, t.fabricOut = s.fabricOut ++ [x] ∧ x.dst = nfld ((s.hart c).rn f.rs1) 48 16 ∧ x.x.op = 1 ∧
        x.x.body.data = leBytes (2 ^ f7.toNat) ((s.hart c).rn f.rs2) ∧
        x.x.body.iseq.toNat = (s.hart c).hxseq % 2 ^ 32) ∧
      OtherHarts c s t ∧ t.regs = s.regs ∧ t.mem = s.mem) ∧
  (∀ (c : Core) (f7 : BitVec 7) (f : RFields) (s : State) (a n op : Nat), Runs c s → hxIllegal (s.hart c) = false →
    op = f7.toNat / 4 → op ≤ 9 → 2 ≤ f7.toNat % 4 → a = (s.hart c).rn f.rs1 → n = 2 ^ (f7.toNat % 4) → a % n = 0 →
    s.hasRoute (nfld a 48 16) = true →
    Completes (.gamo c f7 f) s fun t =>
      t.hart c = { s.hart c with reqno := ((s.hart c).reqno + 1) % 2 ^ 32, wait := .gamo (s.hart c).reqno a n f.rd } ∧
      (∃ x : RoutedXact, t.fabricOut = s.fabricOut ++ [x] ∧ x.dst = nfld a 48 16 ∧ x.x.op = 3 ∧ x.x.body.attr.toNat = op ∧
        x.x.body.data = leBytes n ((s.hart c).rn f.rs2) ++ (if op = 9 then leBytes n ((s.hart c).rn f.rd) else [])) ∧
      OtherHarts c s t ∧ t.regs = s.regs ∧ t.mem = s.mem) ∧
  (∀ (c : Core) (f7 : BitVec 7) (f : RFields) (s : State), Runs c s → hxIllegal (s.hart c) = false → f7.toNat < 4 →
    Completes (.crc32c c f7 f) s (OnlyHart c ((s.hart c).wx f.rd (BitVec.ofNat 64
      (crcBytes 0x82F63B78 ((s.hart c).rn f.rs1 % 2 ^ 32) (leBytes (2 ^ f7.toNat) ((s.hart c).rn f.rs2))))).retire s)) ∧
  (∀ (c : Core) (rd rs1 : XReg) (s : State) (a w : Nat), Runs c s → hxIllegal (s.hart c) = false → vgOk (s.hart c) rd = true →
    a = (s.hart c).rn rs1 → w = sewBytes ((s.hart c).csrVal csrVtype) → a % w = 0 → s.hasRoute (nfld a 48 16) = true →
    0 < (s.hart c).vl →
    Completes (.vgld c 0 ⟨rd, rs1, 0⟩) s fun t =>
      t.hart c = { s.hart c with reqno := ((s.hart c).reqno + 1) % 2 ^ 32, wait := .vgld (s.hart c).reqno a w (s.hart c).vl rd [] } ∧
      t.fabricOut.length = s.fabricOut.length + (w * (s.hart c).vl + 255) / 256 ∧
      OtherHarts c s t ∧ t.regs = s.regs ∧ t.mem = s.mem) ∧
  (∀ (c : Core) (f : RFields) (s : State) (a w : Nat), Runs c s → hxIllegal (s.hart c) = false → vgOk (s.hart c) f.rs2 = true →
    a = (s.hart c).rn f.rs1 → w = sewBytes ((s.hart c).csrVal csrVtype) → a % w = 0 → s.hasRoute (nfld a 48 16) = true →
    0 < (s.hart c).vl → (s.hart c).track.length < 256 →
    Completes (.vgst c 0 f) s fun t =>
      (t.hart c).rx f.rd = (if f.rd = 0 then 0 else BitVec.ofNat 64 (s.hart c).hxseq) ∧
      (t.hart c).hxseq = ((s.hart c).hxseq + 1) % 2 ^ 32 ∧ (t.hart c).track.length = (s.hart c).track.length + 1 ∧
      (t.hart c).pc = (s.hart c).pc + 4 ∧ t.fabricOut.length = s.fabricOut.length + (w * (s.hart c).vl + 255) / 256 ∧
      OtherHarts c s t ∧ t.regs = s.regs ∧ t.mem = s.mem) ∧
  (∀ (c : Core) (s : State) (p : Posted), s.coreOn c = true → (s.hart c).wait = .tracker p → (s.hart c).track.length < 256 →
    s.hasRoute p.dst = true →
    Completes (.trackerStallResume c) s fun t =>
      (t.hart c).wait = .none ∧ (t.hart c).hxseq = ((s.hart c).hxseq + 1) % 2 ^ 32 ∧
      (t.hart c).track.length = (s.hart c).track.length + 1 ∧ (t.hart c).pc = (s.hart c).pc + 4 ∧
      OtherHarts c s t ∧ t.regs = s.regs ∧ t.mem = s.mem) ∧
  (∀ (c : Core) (f7 : BitVec 7) (rd rs1 : XReg) (s : State), Runs c s → hxIllegal (s.hart c) = false → f7.toNat < 8 →
    (s.hart c).rn rs1 % 2 ^ (f7.toNat % 4) = 0 → s.hasRoute (nfld ((s.hart c).rn rs1) 48 16) = false →
    exec (.gld c f7 ⟨rd, rs1, 0⟩) s =
      .next (s.putHart c ({ s.hart c with hxcause := 5 }.trap false 25 ((s.hart c).rn rs1))))

/-- A WRITE, a READ and an AMO of another package act at the home of the address. Within one page that the tenant's cached
translation permits: a WRITE stores exactly its bytes and is answered ACK; a READ is answered with the bytes there and changes
none; an AMO is answered with the old bytes and stores the result of its operation. Each counts in MEM_RCNT of the tenant. A
request whose tag names no tenant is answered NACK with NO_TENANT and counted, and nothing else happens. (R151, R152, R154,
R80.) -/
def Obligations.RemoteMemoryRequests : Prop :=
  (∀ (env : Envelope) (x : XBody) (s : State) (t k : Nat), ServedFor s x.ftag.toNat t → AgentAt s t (sext48 x.addr.toNat) true k →
    0 < x.data.length → sext48 x.addr.toNat % 4096 + x.data.length ≤ 4096 → s.hitsWeights k x.data.length = false →
    Completes (.write env x) s fun u =>
      Stored k x.data s u ∧ Answered env x 0x12 0 [] u ∧
      u.get (R.MEM_RCNT_SERVED t) = (s.get (R.MEM_RCNT_SERVED t) + 1) % 2 ^ 32 ∧ SameRegs (· ≠ 0x500300 + 0x10 * t) s u) ∧
  (∀ (env : Envelope) (x : XBody) (s : State) (t k : Nat), ServedFor s x.ftag.toNat t → AgentAt s t (sext48 x.addr.toNat) false k →
    0 < x.size.toNat → sext48 x.addr.toNat % 4096 + x.size.toNat ≤ 4096 → s.hasError k x.size.toNat = false →
    Completes (.read env x) s fun u =>
      Answered env x 0x11 0 (s.bytesAt k x.size.toNat) u ∧ SameMemory s u ∧ SameHarts s u ∧
      u.get (R.MEM_RCNT_SERVED t) = (s.get (R.MEM_RCNT_SERVED t) + 1) % 2 ^ 32 ∧ SameRegs (· ≠ 0x500300 + 0x10 * t) s u) ∧
  (∀ (env : Envelope) (x : XBody) (s : State) (t k w : Nat), ServedFor s x.ftag.toNat t → AgentAt s t (sext48 x.addr.toNat) true k →
    w = (if x.attr.toNat = 9 then x.data.length / 2 else x.data.length) → w = 4 ∨ w = 8 → x.attr.toNat ≤ 9 →
    x.size.toNat = x.data.length → (x.attr.toNat = 9 → x.data.length % 2 = 0) → sext48 x.addr.toNat % 4096 + w ≤ 4096 →
    s.hasError k w = false → s.hitsWeights k w = false →
    Completes (.amo env x) s fun u =>
      Stored k (leBytes w (amoResult x.attr.toNat w (leNat (s.bytesAt k w)) (leNat (x.data.take w)) (leNat (x.data.drop w)))) s u ∧
      Answered env x 0x14 0 (s.bytesAt k w) u ∧ SameRegs (· ≠ 0x500300 + 0x10 * t) s u) ∧
  (∀ (env : Envelope) (x : XBody) (s : State), s.packageResetting = false → tagTenant s x.ftag.toNat = none →
    Completes (.write env x) s fun u =>
      Answered env x 0x13 4 [] u ∧ SameMemory s u ∧ SameHarts s u ∧
      u.get R.MEM_NOTENANT_COUNT = (s.get R.MEM_NOTENANT_COUNT + 1) % 2 ^ 32 ∧ SameRegs (· ≠ 0x500014) s u)

/-- Peg signals and up-arrivals of other packages. With the generation of its block and a peg of the tenant: PEG_ADD adds,
saturating, and is answered ACK; PEG_SUB subtracts, clamped at 0, and is answered ACK, or ACK_UNDERFLOW with the value before;
an up-arrival that is not the last counts as one arrival and its answer is held. Under another generation a signal is dropped,
acknowledged and counted in GEN_DROP. A peg of another owner is NACKed with PEG_ALLOC. Memory is unchanged. (R67, R154, R158,
R175, R178.) -/
def Obligations.RemotePegRequests : Prop :=
  (∀ (env : Envelope) (x : XBody) (s : State) (t p : Nat), ServedFor s x.ftag.toNat t → p = nfld x.addr.toNat 0 20 →
    nfld x.addr.toNat 20 8 = s.get (R.PEG_BLK_GEN (p / 256)) → pegOwned s t p = true → s.bayDead (p / 8192) = false →
    s.bit (R.PEG_VAL_POISON p) = false → NoTakes s p →
    Completes (.pegAddOp env x) s fun u =>
      u.peg p = min (s.peg p + leNat (x.data.take 3)) pegMax ∧ Answered env x 0x12 0 [] u ∧ SameMemory s u) ∧
  (∀ (env : Envelope) (x : XBody) (s : State) (t p : Nat), ServedFor s x.ftag.toNat t → p = nfld x.addr.toNat 0 20 →
    nfld x.addr.toNat 20 8 = s.get (R.PEG_BLK_GEN (p / 256)) → pegOwned s t p = true → s.bayDead (p / 8192) = false →
    s.bit (R.PEG_VAL_POISON p) = false → NoTakes s p →
    Completes (.pegSubOp env x) s fun u =>
      u.peg p = s.peg p - leNat (x.data.take 3) ∧ SameMemory s u ∧
      (leNat (x.data.take 3) ≤ s.peg p → Answered env x 0x12 0 [] u) ∧
      (s.peg p < leNat (x.data.take 3) → Answered env x 0x15 0 (leBytes 3 (s.peg p)) u)) ∧
  (∀ (env : Envelope) (x : XBody) (s : State) (t p : Nat), ServedFor s x.ftag.toNat t → p = nfld x.addr.toNat 0 20 →
    nfld x.addr.toNat 20 8 = s.get (R.PEG_BLK_GEN (p / 256)) → pegOwned s t p = true → s.bayDead (p / 8192) = false →
    s.bit (R.PEG_VAL_POISON p) = false → s.bit (R.PEG_VAL_POISON (p + 1)) = false → NoTakes s p → p % 2 = 0 →
    s.peg p + 1 < leNat (x.data.take 2) → s.upHeld.length < 1024 →
    Completes (.raiseUp env x) s fun u =>
      u.peg p = s.peg p + 1 ∧ u.peg (p + 1) = s.peg (p + 1) ∧ SameMemory s u ∧
      ⟨p, s.peg (p + 1) % 2, env.src.toNat, env.flow.toNat, x⟩ ∈ u.upHeld) ∧
  (∀ (env : Envelope) (x : XBody) (s : State) (t p : Nat), ServedFor s x.ftag.toNat t → p = nfld x.addr.toNat 0 20 → p < 65536 →
    nfld x.addr.toNat 20 8 ≠ s.get (R.PEG_BLK_GEN (p / 256)) →
    Completes (.pegAddOp env x) s fun u =>
      Answered env x 0x12 0 [] u ∧ SameMemory s u ∧ SameHarts s u ∧
      u.get (R.MEM_RCNT_GEN_DROP t) = (s.get (R.MEM_RCNT_GEN_DROP t) + 1) % 2 ^ 32 ∧ SameRegs (· ≠ 0x500308 + 0x10 * t) s u) ∧
  (∀ (env : Envelope) (x : XBody) (s : State) (t p : Nat), ServedFor s x.ftag.toNat t → p = nfld x.addr.toNat 0 20 →
    nfld x.addr.toNat 20 8 = s.get (R.PEG_BLK_GEN (p / 256)) → pegOwned s t p = false →
    Completes (.pegSubOp env x) s fun u =>
      Answered env x 0x13 6 [] u ∧ SameMemory s u ∧ SameHarts s u ∧ SameRegs (· ≠ 0x500304 + 0x10 * t) s u)

/-- What the answers to this package's requests do. From another package, and not for a request of before a compute reset: READ_DATA
and AMO_DATA that match what the hart waits for give it the value and it runs again; an ACK of the last transaction of a tracked
request frees its tracker entry; a NACK raises the remote access fault at a hart that waits in GLD, and of a posted request
counts for the next commit fence; ACK_UNDERFLOW frees the entry and writes a fault-queue record at exactly its place; the answer
to an up-arrival flips the child's sense peg. (R77, R156, R157, R158, R178.) -/
def Obligations.AnswersOfOtherPackages : Prop :=
  (∀ (env : Envelope) (x : XBody) (s : State) (req addr size : Nat) (u : Bool) (rd : XReg), env.src.toNat ≠ s.pkg → s.stale = [] →
    (s.hart x.core.toNat).wait = .gld req addr size u rd → req = x.iseq.toNat → nfld addr 48 16 = env.src.toNat →
    addr % 2 ^ 48 = x.addr.toNat →
    Completes (.readData env x) s fun t =>
      t.hart x.core.toNat = { ((s.hart x.core.toNat).wx rd
        (BitVec.ofNat 64 (loadValue size u (leNat (x.data.take size))))).retire with wait := .none } ∧
      (∀ j, j ≠ x.core.toNat → t.hart j = s.hart j) ∧ t.regs = s.regs ∧ t.mem = s.mem) ∧
  (∀ (env : Envelope) (x : XBody) (s : State) (req addr size : Nat) (rd : XReg), env.src.toNat ≠ s.pkg → s.stale = [] →
    (s.hart x.core.toNat).wait = .gamo req addr size rd → req = x.iseq.toNat → nfld addr 48 16 = env.src.toNat →
    Completes (.amoData env x) s fun t =>
      t.hart x.core.toNat = { ((s.hart x.core.toNat).wx rd
        (BitVec.ofNat 64 (loadValue size false (leNat (x.data.take size))))).retire with wait := .none } ∧
      (∀ j, j ≠ x.core.toNat → t.hart j = s.hart j) ∧ t.regs = s.regs ∧ t.mem = s.mem) ∧
  (∀ (env : Envelope) (x : XBody) (s : State) (c : Nat) (e : TrackEnt), env.src.toNat ≠ s.pkg → s.stale = [] →
    answerTo env x s = .tracked c e → e.left = 1 → e.reason = none → (s.hart c).wait = .none →
    Completes (.ack env x) s fun t =>
      t.hart c = { s.hart c with track := (s.hart c).track.erase e } ∧ (∀ j, j ≠ c → t.hart j = s.hart j) ∧
      t.regs = s.regs ∧ t.mem = s.mem) ∧
  (∀ (env : Envelope) (x : XBody) (s : State) (req addr size : Nat) (u : Bool) (rd : XReg), env.src.toNat ≠ s.pkg → s.stale = [] →
    (s.hart x.core.toNat).wait = .gld req addr size u rd → req = x.iseq.toNat → nfld addr 48 16 = env.src.toNat →
    addr % 2 ^ 48 = x.addr.toNat →
    Completes (.nack env x) s fun t =>
      t.hart x.core.toNat = { s.hart x.core.toNat with hxcause := x.attr.toNat }.trap false 25 addr ∧
      (∀ j, j ≠ x.core.toNat → t.hart j = s.hart j) ∧ t.regs = s.regs ∧ t.mem = s.mem) ∧
  (∀ (env : Envelope) (x : XBody) (s : State) (c : Nat) (e : TrackEnt), env.src.toNat ≠ s.pkg → s.stale = [] →
    (s.hart x.core.toNat).wait = .none → answerTo env x s = .tracked c e → e.left = 1 → c = x.core.toNat →
    (s.hart c).fqEn = false →
    Completes (.nack env x) s fun t =>
      (t.hart c).track = (s.hart c).track.erase e ∧ (t.hart c).nacked = (s.hart c).nacked + 1 ∧
      (t.hart c).fqDropped = min ((s.hart c).fqDropped + 1) 0xFFFF ∧ t.regs = s.regs ∧ t.mem = s.mem) ∧
  (∀ (env : Envelope) (x : XBody) (s : State) (c k : Nat) (e : TrackEnt), env.src.toNat ≠ s.pkg → s.stale = [] →
    answerTo env x s = .tracked c e → (s.hart c).wait = .none → (s.hart c).fqEn = true →
    ((s.hart c).fqTail + 1) % (s.hart c).fqLen ≠ (s.hart c).fqHead →
    s.place ((s.hart c).fqBase * 4096 + (s.hart c).fqTail * 32) = .mem k → (inHbm k && s.poison.contains (k / 64)) = false →
    s.hitsWeights k 32 = false → s.memStopped k = false →
    Completes (.ackUnderflow env x) s fun t =>
      (t.hart c).track = (s.hart c).track.erase e ∧ (t.hart c).fqTail = ((s.hart c).fqTail + 1) % (s.hart c).fqLen ∧
      Stored k (fqBytes c s.trace (underflowRecord e false (leNat (x.data.take 4)))) s t ∧ t.regs = s.regs) ∧
  (∀ (env : Envelope) (x : XBody) (s : State) (u : UpSent), env.src.toNat ≠ s.pkg → s.stale = [] → linkAnswered env x s = some u →
    NoTakes s (u.count + 1) →
    Completes (.raiseAnswer env x) s fun t =>
      t.peg (u.count + 1) % 2 = 1 - s.peg (u.count + 1) % 2 ∧
      t.get (R.PEG_RLINK_STATE u.entry) = ({ s with upSent := s.upSent.erase u } : State).linkState u.entry ∧ SameMemory s t)

/-- What BAR2 reads and writes. Once the level is written: a PF access within one page of mapped memory reads exactly the bytes at
their home, marked poisoned where one has an uncorrectable error, or stores exactly the bytes written; a VF access goes where
its tenant's cached translation leads. Before the level is written, a read answers Unsupported Request and a write is dropped,
both counted. (R148, R325, R331.) -/
def Obligations.HostAperture : Prop :=
  (∀ (off : BitVec 36) (n a k : Nat) (s : State), s.decodes 0 = true → s.bit R.HUB_LEVEL_STAT_WRITTEN = true →
    s.computeResetting = false → a = s.get (R.MEM_APER_BASE 0) / 16 * 16 * 2 ^ 32 + off.toNat → 0 < n → a % 4096 + n ≤ 4096 →
    s.place a = .mem k → s.memStopped k = false → s.hasError k n = false →
    Completes (.bar2Read 0 off n) s fun t => t.reply = .data (s.bytesAt k n) ∧ t.regs = s.regs ∧ SameMemory s t ∧ SameHarts s t) ∧
  (∀ (off : BitVec 36) (n a k : Nat) (s : State), s.decodes 0 = true → s.bit R.HUB_LEVEL_STAT_WRITTEN = true →
    s.computeResetting = false → a = s.get (R.MEM_APER_BASE 0) / 16 * 16 * 2 ^ 32 + off.toNat → 0 < n → a % 4096 + n ≤ 4096 →
    s.place a = .mem k → s.memStopped k = false → s.hasError k n = true →
    Completes (.bar2Read 0 off n) s fun t => (∃ bs, t.reply = .poisoned bs) ∧ SameMemory s t ∧ SameHarts s t) ∧
  (∀ (off : BitVec 36) (bs : List Byte) (a k : Nat) (s : State), s.decodes 0 = true → s.bit R.HUB_LEVEL_STAT_WRITTEN = true →
    s.computeResetting = false → a = s.get (R.MEM_APER_BASE 0) / 16 * 16 * 2 ^ 32 + off.toNat → bs ≠ [] →
    a % 4096 + bs.length ≤ 4096 → s.place a = .mem k → s.memStopped k = false → s.hitsWeights k bs.length = false →
    Completes (.bar2Write 0 off bs) s fun t => Stored k bs s t ∧ t.regs = s.regs) ∧
  (∀ (f : Fn) (off : BitVec 36) (n va k : Nat) (s : State), f ≠ 0 → f.val < 16 → s.decodes f.val = true →
    s.bit R.HUB_LEVEL_STAT_WRITTEN = true → s.computeResetting = false →
    va = sext48 (s.get (R.MEM_APER_BASE f) * 2 ^ 32 + off.toNat % 2 ^ 32) → 0 < n → va % 4096 + n ≤ 4096 →
    AgentAt s f.val va false k → s.hasError k n = false →
    Completes (.bar2Read f off n) s fun t => t.reply = .data (s.bytesAt k n) ∧ t.regs = s.regs ∧ SameMemory s t ∧ SameHarts s t) ∧
  (∀ (f : Fn) (off : BitVec 36) (n : Nat) (bs : List Byte) (s : State), s.decodes f.val = true →
    s.bit R.HUB_LEVEL_STAT_WRITTEN = false →
    exec (.bar2Read f off n) s = .next (({ s with trip := none }.incSat R.HUB_LEVEL_STAT_PRE_LEVEL).answer .unsupported) ∧
    exec (.bar2Write f off bs) s = .next ({ s with trip := none }.incSat R.HUB_LEVEL_STAT_PRE_LEVEL))

/-- Scrubbing, invalidation, and the fabric tags. A scrub read that corrects counts in MEM_ECC and changes no byte; one that finds
an uncorrectable error in HBM counts and poisons its 64 bytes, so that a read of them fails from then on. INVALIDATE makes its
register BUSY, and a second one is ignored and counted; at its completion STATUS is DONE and no translation of the named tenant
that the argument covers is left in any cache. A new fabric tag is in force once written; a duplicate of another valid tag is
not valid and sets TAG_DUP. (R149, R151, R161, R162, R163.) -/
def Obligations.ScrubInvalidateTags : Prop :=
  (∀ (addr : BitVec 48) (k : Nat) (s : State), s.place addr.toNat = .mem k →
    Completes (.patrolScrub addr .corrected) s fun t =>
      t.get (R.MEM_ECC_CE (eccIndex k)) = (s.get (R.MEM_ECC_CE (eccIndex k)) + 1) % 2 ^ 32 ∧ SameMemory s t ∧ SameHarts s t ∧
      SameRegs (· ≠ 0x500400 + 8 * eccIndex k) s t) ∧
  (∀ (addr : BitVec 48) (k n : Nat) (s : State), s.place addr.toNat = .mem k → inHbm k = true → 0 < n →
    Completes (.patrolScrub addr .uncorrectable) s fun t =>
      t.get (R.MEM_ECC_UE (eccIndex k)) = (s.get (R.MEM_ECC_UE (eccIndex k)) + 1) % 2 ^ 32 ∧ t.hasError k n = true ∧
      (∀ a, t.byte a = s.byte a)) ∧
  (∀ (r : Requester) (s : State), Reaches r 0x500010 s →
    Completes (.invalidate r) s fun t =>
      t.get R.MEM_INVAL_CMD_STATUS = 1 ∧ t.atc = s.atc ∧ SameHarts s t ∧ SameMemory s t ∧ SameRegs (· ≠ 0x500010) s t ∧
      t.get R.MEM_INVAL_CMD_IGNORED = (if s.get R.MEM_INVAL_CMD_STATUS = 1
        then min (s.get R.MEM_INVAL_CMD_IGNORED + 1) 65535 else s.get R.MEM_INVAL_CMD_IGNORED) ∧
      t.inval = (if s.get R.MEM_INVAL_CMD_STATUS = 1 then s.inval else some
        { tenant := s.get R.MEM_INVAL_ARG_TENANT, scope := s.get R.MEM_INVAL_ARG_SCOPE, vpn := s.get R.MEM_INVAL_ARG_VPN,
          asid := s.get R.MEM_INVAL_ARG_ASID })) ∧
  (∀ (s : State) (a : InvalArg), s.get R.MEM_INVAL_CMD_STATUS = 1 → s.inval = some a →
    Completes .invalidateComplete s fun t =>
      t.get R.MEM_INVAL_CMD_STATUS = 2 ∧ (∀ e ∈ t.atc, invalHits a e = false) ∧
      (∀ c, ∀ e ∈ (t.hart c).tlb, invalHits a e = false) ∧ (∀ e ∈ s.atc, invalHits a e = false → e ∈ t.atc) ∧ SameMemory s t) ∧
  (∀ (r : Requester) (v : Tenant) (val : BitVec 32) (s : State), Reaches r (0x500180 + 4 * v.val) s → nfld val.toNat 16 15 = 0 →
    nbit val.toNat 31 = true →
    (∀ u, u < 16 → u ≠ v.val → s.bit (R.MEM_FTAG_VALID u) = true → s.get (R.MEM_FTAG_TAG u) ≠ nfld val.toNat 0 16) →
    Completes (.memFtagWrite r v val) s fun t =>
      t.get (R.MEM_FTAG_TAG v.val) = nfld val.toNat 0 16 ∧ t.get (R.MEM_FTAG_VALID v.val) = 1 ∧ SameMemory s t ∧
      SameRegs (· ≠ 0x500180 + 4 * v.val) s t) ∧
  (∀ (r : Requester) (v : Tenant) (val : BitVec 32) (s : State) (u : Nat), Reaches r (0x500180 + 4 * v.val) s →
    nfld val.toNat 16 15 = 0 → nbit val.toNat 31 = true → u < 16 → u ≠ v.val → s.bit (R.MEM_FTAG_VALID u) = true →
    s.get (R.MEM_FTAG_TAG u) = nfld val.toNat 0 16 →
    Completes (.memFtagWrite r v val) s fun t =>
      t.get (R.MEM_FTAG_VALID v.val) = 0 ∧ t.get R.MEM_STAT_TAG_DUP = 1 ∧ SameRegs (fun a => a ≠ 0x500180 + 4 * v.val ∧ a ≠ 0x500004) s t)

/-- ASSIGN, RELEASE and CLEAR act on every block named, or on none. With the command register free, when every block named meets the
condition of the command: each block's pegs and flags are 0, its generation has advanced by 1 modulo 256, ASSIGN has given it to
the tenant, RELEASE has made it invalid, and STATUS is BUSY. When one block does not, no block changes and STATUS is REFUSED. At
completion STATUS is DONE and a hart that waits at a peg of such a block that its tenant no longer owns takes the peg access
fault. (R171, R172, R173.) -/
def Obligations.PegBlockCommands : Prop :=
  (∀ (r : Requester) (cmd : Fin 3) (s : State), Reaches r 0x600404 s → s.get R.PEG_BLKCMD_STATUS ≠ 1 →
    0 < s.get R.PEG_BLKARG_COUNT → s.get R.PEG_BLKARG_COUNT ≤ 256 →
    (∀ j, j < s.get R.PEG_BLKARG_COUNT →
      blockCond (cmd.val + 1) (s.get R.PEG_BLKARG_TENANT) (j + s.get R.PEG_BLKARG_FIRST) s = true) →
    Completes (if cmd = 0 then .assign r else if cmd = 1 then .release r else .clear r) s fun t =>
      t.get R.PEG_BLKCMD_STATUS = 1 ∧
      (∀ b, s.get R.PEG_BLKARG_FIRST ≤ b → b < s.get R.PEG_BLKARG_FIRST + s.get R.PEG_BLKARG_COUNT →
        t.get (R.PEG_BLK_GEN b) = (s.get (R.PEG_BLK_GEN b) + 1) % 256 ∧
        (∀ p, p / 256 = b → t.peg p = 0 ∧ t.bit (R.PEG_VAL_POISON p) = false) ∧
        (cmd = 0 → t.get (R.PEG_BLK_OWNER b) = s.get R.PEG_BLKARG_TENANT ∧ t.get (R.PEG_BLK_VALID b) = 1) ∧
        (cmd = 1 → t.get (R.PEG_BLK_VALID b) = 0) ∧
        (cmd = 2 → t.get (R.PEG_BLK_OWNER b) = s.get (R.PEG_BLK_OWNER b) ∧ t.get (R.PEG_BLK_VALID b) = 1)) ∧
      SameMemory s t ∧ SameHarts s t) ∧
  (∀ (r : Requester) (cmd : Fin 3) (s : State) (j : Nat), Reaches r 0x600404 s → s.get R.PEG_BLKCMD_STATUS ≠ 1 →
    j < s.get R.PEG_BLKARG_COUNT →
    blockCond (cmd.val + 1) (s.get R.PEG_BLKARG_TENANT) (j + s.get R.PEG_BLKARG_FIRST) s = false →
    Completes (if cmd = 0 then .assign r else if cmd = 1 then .release r else .clear r) s fun t =>
      t.get R.PEG_BLKCMD_STATUS = 3 ∧ SameRegs (· ≠ 0x600404) s t ∧ SameMemory s t ∧ SameHarts s t) ∧
  (∀ (s : State) (cmd first count tn : Nat), s.blkCmd = some (cmd, first, count, tn) → HartsOk s →
    (∀ w ∈ s.queues, ∀ x ∈ w.2.tasks, x.st ≠ .ready) →
    Completes .blockCommandComplete s fun t =>
      t.get R.PEG_BLKCMD_STATUS = 2 ∧ t.blkCmd = none ∧ SameMemory s t ∧
      ∀ (c : Nat) (take : Bool) (op n : Nat) (rd : XReg), (s.hart c).wait = .peg take op n rd → first ≤ op % 65536 / 256 →
        op % 65536 / 256 < first + count → pegOwned s (s.hart c).tenant (op % 65536) = false →
        t.hart c = (s.hart c).trap false 24 op)

/-- Enabling a queue, and what a doorbell and a doorbell peg do. A write of DSP_QBASE with EN = 1 to a disabled queue takes the
fields and enables it, or with a reserved TYPE leaves it disabled with ERR 4. EN is cleared only once RETIRE = TAIL. A doorbell
of PF0 gives an enabled queue its TAIL; one beyond the ring stops the queue with ERR 1; one that writes its reserved bits is
case 1 of Table 14.1 (R8; log entry 163); one to a queue that takes none is dropped and counted. A doorbell take subtracts one
from the peg and advances TAIL by one. A queue with a task to fetch begins the fetch. (R181, R182, R183, R184.) -/
def Obligations.QueuesAndDoorbells : Prop :=
  (∀ (r : Requester) (t : Tenant) (q : QNum) (base : BitVec 64) (s : State), Reaches r (qbaseAddr t.val q.val) s →
    s.get (R.DSP_Q_EN t q) = 0 → nfld base.toNat 1 2 ≤ 1 → nfld base.toNat 3 1 = 0 → nfld base.toNat 7 1 = 0 →
    nfld base.toNat 48 16 = 0 → s.bayIn (nfld base.toNat 4 3) = true →
    Completes (.queueEnable r t q base) s fun u =>
      u.get (R.DSP_Q_EN t q) = 1 ∧ u.get (R.DSP_Q_TYPE t q) = nfld base.toNat 1 2 ∧ u.get (R.DSP_Q_HOME t q) = nfld base.toNat 4 3 ∧
      u.get (R.DSP_Q_LOG2SIZE t q) = nfld base.toNat 8 4 ∧ u.get (R.DSP_Q_BASE t q) = nfld base.toNat 12 36 ∧
      SameRegs (· ≠ qbaseAddr t.val q.val) s u ∧ SameMemory s u) ∧
  (∀ (r : Requester) (t : Tenant) (q : QNum) (base : BitVec 64) (s : State), Reaches r (qbaseAddr t.val q.val) s →
    s.get (R.DSP_Q_EN t q) = 0 → 1 < nfld base.toNat 1 2 → nfld base.toNat 7 1 = 0 → nfld base.toNat 48 16 = 0 →
    Completes (.queueEnable r t q base) s fun u => u.get (R.DSP_Q_EN t q) = 0 ∧ u.get (R.DSP_Q_ERR t q) = 4 ∧ SameMemory s u) ∧
  (∀ (r : Requester) (t : Tenant) (q : QNum) (s : State), Reaches r (qbaseAddr t.val q.val) s →
    Completes (.queueDisable r t q) s fun u =>
      u.get (R.DSP_Q_EN t q) = (if s.get (R.DSP_Q_RETIRE t q) = s.get (R.DSP_Q_TAIL t q) then 0 else s.get (R.DSP_Q_EN t q)) ∧
      SameRegs (· ≠ qbaseAddr t.val q.val) s u ∧ SameMemory s u) ∧
  (∀ (t : Tenant) (q : QNum) (off : BitVec 24) (v : BitVec 32) (s : State), s.decodes 0 = true → s.bit R.HUB_LEVEL_STAT_WRITTEN = true →
    off.toNat = t.val * 0x10000 + q.val * 0x100 → s.bit (R.DSP_Q_EN t q) = true → s.bit (R.DSP_Q_PEGDB t q) = false →
    s.bit (R.DSP_Q_STOPPED t q) = false →
    (65535 < v.toNat → exec (.doorbell 0 off v) s = .fault (.undefinedCase 1)) ∧
    (v.toNat ≤ 65535 → Completes (.doorbell 0 off v) s fun u =>
      SameMemory s u ∧
      ((v.toNat % 65536 + 65536 - s.get (R.DSP_Q_RETIRE t q)) % 65536 ≤ s.qSize t q →
        u.get (R.DSP_Q_TAIL t q) = v.toNat % 65536 ∧ SameRegs (· ≠ 0x420014 + 0x4000 * t.val + 0x40 * q.val) s u) ∧
      (s.qSize t q < (v.toNat % 65536 + 65536 - s.get (R.DSP_Q_RETIRE t q)) % 65536 →
        u.get (R.DSP_Q_ERR t q) = 1 ∧ u.get (R.DSP_Q_STOPPED t q) = 1 ∧ u.get (R.DSP_Q_TAIL t q) = s.get (R.DSP_Q_TAIL t q)))) ∧
  (∀ (t : Tenant) (q : QNum) (off : BitVec 24) (v : BitVec 32) (s : State), s.decodes 0 = true → s.bit R.HUB_LEVEL_STAT_WRITTEN = true →
    off.toNat = t.val * 0x10000 + q.val * 0x100 → s.bit (R.DSP_Q_EN t q) = false →
    exec (.doorbell 0 off v) s = .next ({ s with trip := none }.incSat (R.DSP_DBDROP_COUNT t))) ∧
  (∀ (t : Tenant) (q : QNum) (s : State) (p : Nat), s.bayRuns (s.get (R.DSP_Q_HOME t q)) = true → s.bit (R.DSP_Q_EN t q) = true →
    s.bit (R.DSP_Q_PEGDB t q) = true → s.bit (R.DSP_Q_STOPPED t q) = false → p = s.get (R.DSP_Q_DBPEG t q) →
    pegOwned s t p = true → s.bit (R.PEG_VAL_POISON p) = false → 0 < s.peg p → NoTakes s p →
    (s.get (R.DSP_Q_TAIL t q) + 65536 - s.get (R.DSP_Q_RETIRE t q)) % 65536 ≠ s.qSize t q →
    Completes (.pegDoorbellTake t q) s fun u =>
      u.peg p = s.peg p - 1 ∧ u.get (R.DSP_Q_TAIL t q) = (s.get (R.DSP_Q_TAIL t q) + 1) % 65536 ∧ SameMemory s u) ∧
  (∀ (t : Tenant) (q : QNum) (s : State), s.bayRuns (s.get (R.DSP_Q_HOME t q)) = true → s.bit (R.DSP_Q_EN t q) = true →
    s.bit (R.DSP_Q_STOPPED t q) = false → s.wq (qKey t q) = ⟨[], false, none⟩ →
    s.get (R.DSP_Q_HEAD t q) ≠ s.get (R.DSP_Q_TAIL t q) → fetchesOf s (s.get (R.DSP_Q_HOME t q)) < 16 → s.bit R.HUB_SOLO_EN = false →
    Completes (.descriptorFetch t q) s fun u =>
      (u.wq (qKey t q)).fetching = true ∧ (u.wq (qKey t q)).tasks = [] ∧ u.regs = s.regs ∧ SameMemory s u ∧ SameHarts s u)

/-- From a fetched descriptor to the end of a DMA task. A fetched descriptor of a DMA task that passes its checks is READY and HEAD
has moved past it; a tile that a queue holds joins the engine queue once there is room. NOP ends DONE. COPY runs, and at its
completion its destination holds the bytes of its source; overlapping ranges are the undefined case 7. A local SIGNAL adds to
its peg, a remote one sends a PEG_ADD and waits for its answer, and times out with TIMEOUT. Each end writes the status word at
exactly its place, counts in COMPLETED and signals the completion peg. (R184, R187, R188, R189, R190.) -/
def Obligations.TasksOfQueues : Prop :=
  (∀ (t : Tenant) (q : QNum) (s : State) (k : Nat) (d : List Byte), s.bayRuns (s.get (R.DSP_Q_HOME t q)) = true →
    s.wq (qKey t q) = ⟨[], true, none⟩ → s.bit (R.DSP_Q_STOPPED t q) = false → s.get (R.DSP_Q_HEAD t q) ≠ s.get (R.DSP_Q_TAIL t q) →
    AgentAt s t (sext48 (s.get (R.DSP_Q_BASE t q) * 4096 + s.get (R.DSP_Q_HEAD t q) % s.qSize t q * 128)) false k →
    s.hasError k 128 = false → d = s.bytesAt k 128 → pegOwned s t (descCpeg d) = true → s.get (R.DSP_Q_TYPE t q) = 1 →
    dmaFieldOk d = true → dmaKind d = 0 → dmaWaitEn d = false →
    Completes (.descriptorReceived t q) s fun u =>
      (u.wq (qKey t q)).tasks = [⟨s.get (R.DSP_Q_HEAD t q), .ready, d, [], [], none⟩] ∧ (u.wq (qKey t q)).fetching = false ∧
      u.get (R.DSP_Q_HEAD t q) = (s.get (R.DSP_Q_HEAD t q) + 1) % 65536 ∧ SameMemory s u ∧ SameHarts s u) ∧
  (∀ (t : Tenant) (q : QNum) (s : State) (x : Tile), s.bayRuns (s.get (R.DSP_Q_HOME t q)) = true →
    (s.wq (qKey t q)).held = some x → s.engFull x.engine = false → s.engServing x.engine = true →
    Completes (.engineQueueAccept t q) s fun u =>
      (u.eng x.engine).queue = (s.eng x.engine).queue ++ [x] ∧ SameMemory s u ∧ SameHarts s u ∧
      (x.src = .queue t q 0 → (u.wq (qKey t q)).held = none)) ∧
  (∀ (t : Tenant) (q : QNum) (i : BitVec 16) (s : State) (x : Task) (k : Nat), DmaRuns s t q x → x.idx = i.toNat → dmaKind x.desc = 0 →
    StatusAt s t q i.toNat k → CpegTakes s t x.desc →
    Completes (.dmaNop t q i) s fun u => TaskEnded s u t q i.toNat k 0 0 x.desc) ∧
  (∀ (t : Tenant) (q : QNum) (i : BitVec 16) (s : State) (x : Task), DmaRuns s t q x → x.idx = i.toNat → dmaKind x.desc = 1 →
    piecesMeet x.src x.dst = false → copiesInFlight s = [] →
    Completes (.dmaCopy t q i) s fun u =>
      { x with st := .running } ∈ (u.wq (qKey t q)).tasks ∧ u.regs = s.regs ∧ SameMemory s u ∧ SameHarts s u) ∧
  (∀ (t : Tenant) (q : QNum) (i : BitVec 16) (s : State) (x : Task), DmaRuns s t q x → x.idx = i.toNat → dmaKind x.desc = 1 →
    piecesMeet x.src x.dst = true → exec (.dmaCopy t q i) s = .fault (.undefinedCase 7)) ∧
  (∀ (t : Tenant) (q : QNum) (i : BitVec 16) (s : State) (x : Task) (k a b : Nat), s.bayRuns (s.get (R.DSP_Q_HOME t q)) = true →
    (s.wq (qKey t q)).tasks.find? (fun y => y.idx == i.toNat && y.st == .running && !y.dst.isEmpty) = some x → x.src = [(a, 64)] →
    x.dst = [(b, 64)] → s.hasError a 64 = false → s.memStopped a = false → s.hitsWeights b 64 = false → s.memStopped b = false →
    StatusAt s t q i.toNat k → (k + 8 ≤ b ∨ b + 64 ≤ k) → CpegTakes s t x.desc →
    Completes (.dmaCopyComplete t q i) s fun u =>
      (∀ j, j < 64 → u.byte (b + j) = s.byte (a + j)) ∧
      (∀ c, ¬(b ≤ c ∧ c < b + 64) → ¬(k ≤ c ∧ c < k + 8) → u.byte c = s.byte c) ∧
      (∀ j, j < 8 → u.byte (k + j) = (leBytes 8 (statusWord 0 3 0 i.toNat 0)).getD j 0) ∧
      u.get (R.DSP_Q_COMPLETED t q) = (s.get (R.DSP_Q_COMPLETED t q) + 1) % 2 ^ 32 ∧
      u.peg (descCpeg x.desc) = min (s.peg (descCpeg x.desc) + 1) pegMax) ∧
  (∀ (t : Tenant) (q : QNum) (i : BitVec 16) (s : State) (x : Task) (k p : Nat), DmaRuns s t q x → x.idx = i.toNat →
    dmaKind x.desc = 2 → pegRemote (dmaSig x.desc) = false → p = dmaSig x.desc % 65536 → p ≠ descCpeg x.desc →
    pegOwned s t p = true → s.bit (R.PEG_VAL_POISON p) = false → NoTakes s p → StatusAt s t q i.toNat k → CpegTakes s t x.desc →
    Completes (.dmaSignal t q i) s fun u =>
      u.peg p = min (s.peg p + dmaSigN x.desc) pegMax ∧ TaskEnded s u t q i.toNat k 0 0 x.desc) ∧
  (∀ (t : Tenant) (q : QNum) (i : BitVec 16) (s : State) (x : Task), DmaRuns s t q x → x.idx = i.toNat →
    dmaKind x.desc = 2 → pegRemote (dmaSig x.desc) = true → s.hasRoute (nfld (dmaSig x.desc) 32 16) = true →
    Completes (.dmaSignal t q i) s fun u =>
      (∃ y : RoutedXact, u.fabricOut = s.fabricOut ++ [y] ∧ y.dst = nfld (dmaSig x.desc) 32 16 ∧ y.x.op = 4) ∧
      { x with st := .running, signal := some (s.dispSeq, dmaSig x.desc % 2 ^ 28, nfld (dmaSig x.desc) 32 16) } ∈
        (u.wq (qKey t q)).tasks ∧ u.regs = s.regs ∧ SameMemory s u ∧ SameHarts s u) ∧
  (∀ (t : Tenant) (q : QNum) (i : BitVec 16) (s : State) (x : Task) (k : Nat), s.bayRuns (s.get (R.DSP_Q_HOME t q)) = true →
    (s.wq (qKey t q)).tasks.find? (fun y => y.idx == i.toNat && y.signal.isSome) = some x →
    StatusAt s t q i.toNat k → CpegTakes s t x.desc →
    Completes (.dmaSignalTimeout t q i) s fun u => TaskEnded s u t q i.toNat k 6 0 x.desc)

/-- Cancelling, resuming, and the peg watches. CANCEL_FROM with INDEX at TAIL stops the queue and cancels nothing; CANCEL_ONE of a
READY DMA task ends it as CANCELLED; RESUME clears ERR and STOPPED. Each answers DONE. A peg watch of PF0 on a peg of T0 whose
value is below the threshold is registered; at the threshold it fires at once: FIRED is set, EN is 0 and its vector is sent; on
another tenant's peg it is REFUSED. Writing EN = 0 ends it. (R191, R192, R335.) -/
def Obligations.CancelAndWatch : Prop :=
  (∀ (r : Requester) (s : State) (t q : Nat), Reaches r 0x402004 s → s.get R.DSP_QCMD_STATUS ≠ 1 → t = s.get R.DSP_QCMDARG_TENANT →
    q = s.get R.DSP_QCMDARG_QUEUE → s.get R.DSP_QCMDARG_INDEX = s.get (R.DSP_Q_TAIL t q) →
    Completes (.cancelFrom r) s fun u =>
      u.get (R.DSP_Q_STOPPED t q) = 1 ∧ u.get (R.DSP_Q_ERR t q) = s.get (R.DSP_Q_ERR t q) ∧ u.get R.DSP_QCMD_STATUS = 2 ∧
      u.queues = s.queues ∧ SameMemory s u ∧ SameHarts s u) ∧
  (∀ (r : Requester) (s : State) (t q i k : Nat) (x : Task), Reaches r 0x402004 s → s.get R.DSP_QCMD_STATUS ≠ 1 →
    t = s.get R.DSP_QCMDARG_TENANT → q = s.get R.DSP_QCMDARG_QUEUE → i = s.get R.DSP_QCMDARG_INDEX →
    (s.wq (qKey t q)).task i = some x → x.st = .ready → cancellable t q i s = true → (removeTile t q i s).1 = none →
    StatusAt s t q i k → CpegTakes s t x.desc →
    Completes (.cancelOne r) s fun u => TaskEnded s u t q i k 3 0 x.desc ∧ u.get R.DSP_QCMD_STATUS = 2) ∧
  (∀ (r : Requester) (s : State) (t q : Nat), Reaches r 0x402004 s → s.get R.DSP_QCMD_STATUS ≠ 1 → t = s.get R.DSP_QCMDARG_TENANT →
    q = s.get R.DSP_QCMDARG_QUEUE →
    Completes (.resume r) s fun u =>
      u.get (R.DSP_Q_STOPPED t q) = 0 ∧ u.get (R.DSP_Q_ERR t q) = 0 ∧ u.get R.DSP_QCMD_STATUS = 2 ∧
      SameRegs (fun a => a ≠ 0x402004 ∧ a ≠ 0x42001C + 0x4000 * t + 0x40 * q) s u ∧ SameMemory s u ∧ SameHarts s u) ∧
  (∀ (w : Fin 8) (v : BitVec 64) (s : State) (p : Nat), Reaches (.fn 0) (pwatchAddr 0 w.val) s → p = nfld v.toNat 0 20 →
    p < 65536 → nfld v.toNat 24 8 = 0 → nfld v.toNat 56 8 = 0 → pegOwned s 0 p = true → s.bit (R.PEG_VAL_POISON p) = false →
    s.peg p < nfld v.toNat 32 24 →
    Completes (.pegWatchEnable 0 w v) s fun t =>
      t.get (R.HUB_PWATCH_EN 0 w) = 1 ∧ t.get (R.HUB_PWATCH_PEG 0 w) = p ∧ t.get (R.HUB_PWATCH_THRESH 0 w) = nfld v.toNat 32 24 ∧
      t.get (R.HUB_PWATCH_REFUSED 0 w) = 0 ∧ SameMemory s t ∧ SameHarts s t) ∧
  (∀ (w : Fin 8) (v : BitVec 64) (s : State) (p : Nat), Reaches (.fn 0) (pwatchAddr 0 w.val) s → p = nfld v.toNat 0 20 →
    p < 65536 → nfld v.toNat 24 8 = 0 → nfld v.toNat 56 8 = 0 → pegOwned s 0 p = true → s.bit (R.PEG_VAL_POISON p) = false →
    nfld v.toNat 32 24 ≤ s.peg p → (s.cfg 0).msixEnable = true → (s.cfg 0).busMaster = true → (s.cfg 0).msixFnMask = false →
    s.bit (R.MSIX_TABLE_CTL_MASK 0 (2 + w.val)) = false →
    Completes (.pegWatchEnable 0 w v) s fun t =>
      t.get (R.HUB_PWATCH_EN 0 w) = 0 ∧ t.get (R.HUB_PWATCH_FIRED 0 w) = 1 ∧ (0, 2 + w.val) ∈ t.msix ∧ SameMemory s t) ∧
  (∀ (w : Fin 8) (v : BitVec 64) (s : State) (p : Nat), Reaches (.fn 0) (pwatchAddr 0 w.val) s → p = nfld v.toNat 0 20 →
    p < 65536 → nfld v.toNat 24 8 = 0 → nfld v.toNat 56 8 = 0 → pegOwned s 0 p = false →
    Completes (.pegWatchEnable 0 w v) s fun t =>
      t.get (R.HUB_PWATCH_EN 0 w) = 0 ∧ t.get (R.HUB_PWATCH_REFUSED 0 w) = 1 ∧ SameMemory s t) ∧
  (∀ (f : Fn) (w : Fin 8) (s : State), Reaches (.fn f) (pwatchAddr f.val w.val) s →
    Completes (.pegWatchDisable f w) s fun t =>
      t.get (R.HUB_PWATCH_EN f w) = 0 ∧ t.get (R.HUB_PWATCH_REFUSED f w) = 0 ∧ t.get (R.HUB_PWATCH_REVOKED f w) = 0 ∧
      SameRegs (· ≠ pwatchAddr f.val w.val) s t ∧ SameMemory s t)

/-- From the head of an engine queue to streaming. Staging begins with the head of the queue of an idle engine that runs; a
descriptor with a wrong field ends as BAD_DESC with its reason and its tenant. The weights arrive clamped to the format of the
tile, and the clamped ones are counted. A staged tile whose ceiling admits the published error starts: LOADING, its weights in
the rings, and one tile more is counted; one whose ceiling does not, and is not STRICT, is routed to the digital path. The end
of a reload is STREAMING. No other engine, no memory and no hart changes. (R94, R111, R112, R113, R114, R134.) -/
def Obligations.StagingAndStarting : Prop :=
  (∀ (e : Sys2Proof.Eng) (s : State) (x : Tile) (r : List Tile) (m : List (Nat × Nat)), EngRuns s e → s.engServing e = true →
    (s.eng e).running = false → (s.eng e).queue = x :: r → x.staging = false → x.digital = false → x.pages = some m →
    Completes (.stagingStart e) s fun t =>
      t.eng e = { s.eng e with queue := { x with staging := true } :: r } ∧ OtherEngines e s t ∧
      SameRegs (· ≠ 0x400004 + 0x100 * e.val) s t ∧ SameMemory s t ∧ SameHarts s t) ∧
  (∀ (e : Sys2Proof.Eng) (s : State) (x : Tile) (r : List Tile) (c : Nat), EngRuns s e → s.engServing e = true →
    (s.eng e).running = false → (s.eng e).queue = x :: r → x.staging = false → x.digital = false → x.pages = none →
    x.engine = e.val → x.engine / 2 = x.bay → x.fieldOk = false → x.src = .hart c none → CpegTakes s x.tenant x.desc →
    Completes (.stagingStart e) s fun t =>
      (t.eng e).queue = r ∧ t.get (R.PMX_BADDESC_REASON e) = 2 ∧ t.get (R.PMX_BADDESC_TENANT e) = x.tenant % 16 ∧
      t.get (R.PMX_BADDESC_TAG e) = x.tag % 65536 ∧ t.peg (descCpeg x.desc) = min (s.peg (descCpeg x.desc) + 1) pegMax ∧
      OtherEngines e s t ∧ SameMemory s t) ∧
  (∀ (e : Sys2Proof.Eng) (s : State) (x : Tile) (m : List (Nat × Nat)), EngRuns s e →
    (s.eng e).queue.find? (fun t => t.staging && t.staged.isNone && !t.digital) = some x → x.pages = some m →
    (∀ p ∈ areaPieces m x.rowArea ++ areaPieces m x.scaleArea, s.hasError p.1 p.2 = false ∧ s.memStopped p.1 = false) →
    Completes (.weightsArrived e) s fun t =>
      ∃ st : Staged, (t.eng e).queue = (s.eng e).queue.map (fun u => if u.id == x.id then { u with staged := some st } else u) ∧
        st.weights = ((areaPieces m x.rowArea).flatMap fun p => s.bytesAt p.1 p.2).map (fun b =>
          max (-(2 ^ (3 + x.wbits) - 1 : Int)) (min (2 ^ (3 + x.wbits) - 1) (toSigned 8 b.toNat))) ∧
        st.bad = false ∧ st.mode = x.mode ∧ st.sparse = x.sparse ∧
        t.get (R.PMX_CLAMPCNT_W_CLAMP e) = min (s.get (R.PMX_CLAMPCNT_W_CLAMP e) +
          (((areaPieces m x.rowArea).flatMap fun p => s.bytesAt p.1 p.2).countP fun b =>
            decide ((2 ^ (3 + x.wbits) - 1 : Int) < (toSigned 8 b.toNat).natAbs))) 65535 ∧
        OtherEngines e s t ∧ SameMemory s t ∧ SameHarts s t) ∧
  (∀ (e : Sys2Proof.Eng) (s : State) (x : Tile) (r : List Tile) (st : Staged), EngRuns s e → s.engState e = 2 →
    (s.eng e).running = false → (s.eng e).queue = x :: r → x.staged = some st → x.digital = false → (s.eng e).drain = none →
    nbit (s.get R.DSP_REPRO_TENANT_MASK) x.tenant = false → x.ceiling ≠ 0 →
    (x.ceiling = 0xFFFF ∨ s.get (R.PMX_ERR_ERR e (combo x.mode x.sparse)) ≤ x.ceiling) →
    Completes (.tileStart e) s fun t =>
      t.engState e = 3 ∧ (t.eng e).running = true ∧ (t.eng e).queue = { x with started := true } :: r ∧ (t.eng e).vec = 0 ∧
      (t.eng e).rings = some st ∧ t.get (R.PMX_TILECNT_TILES e) = (s.get (R.PMX_TILECNT_TILES e) + 1) % 2 ^ 32 ∧
      OtherEngines e s t ∧ SameMemory s t ∧ SameHarts s t) ∧
  (∀ (e : Sys2Proof.Eng) (s : State) (x : Tile) (r : List Tile) (st : Staged), EngRuns s e → s.engState e = 2 →
    (s.eng e).running = false → (s.eng e).queue = x :: r → x.staged = some st → x.digital = false → (s.eng e).drain = none →
    nbit (s.get R.DSP_REPRO_TENANT_MASK) x.tenant = false → x.ceiling ≠ 0 → x.ceiling ≠ 0xFFFF →
    x.ceiling < s.get (R.PMX_ERR_ERR e (combo x.mode x.sparse)) → x.strict = false →
    Completes (.tileStart e) s fun t =>
      t.engState e = 2 ∧ (t.eng e).running = false ∧ (t.eng e).queue = { x with digital := true } :: r ∧
      t.get (R.PMX_FB_START_COUNT e) = (s.get (R.PMX_FB_START_COUNT e) + 1) % 2 ^ 32 ∧
      OtherEngines e s t ∧ SameMemory s t ∧ SameHarts s t) ∧
  (∀ (e : Sys2Proof.Eng) (s : State), EngRuns s e → s.engState e = 3 →
    Completes (.reloadComplete e) s fun t =>
      t.engState e = 4 ∧ t.engs = s.engs ∧ SameRegs (fun a => a ≠ 0x400004 + 0x100 * e.val ∧ a ≠ 0x204) s t ∧
      SameMemory s t ∧ SameHarts s t)

/-- Vector slots, probe slots, and the end of a tile. In STREAMING a slot without data is an idle slot, 64 of them in a row count in
STARVE; a slot beyond the cap applies nothing. Otherwise the next vector is applied: its record of 64 values is written to
exactly its place, and one vector more is counted. A probe slot at a probe position advances the probe register by one step per
element and counts. When the last record is written the tile ends DONE: its outcome stands in its ticket slot, its completion
peg is signalled once, and the engine is IDLE. (R74, R97, R106, R116, R121, R130, R131.) -/
def Obligations.VectorsAndProbes : Prop :=
  (∀ (e : Sys2Proof.Eng) (codes : List Byte) (s : State) (x : Tile) (st : Staged), EngRuns s e → Streams s e x st →
    Completes (.vectorSlot e false codes) s fun t =>
      t.get (R.PMX_STARVE_SLOTS64 e) = min (s.get (R.PMX_STARVE_SLOTS64 e) + (if (s.eng e).idleRun = 63 then 1 else 0)) (2 ^ 32 - 1) ∧
      t.eng e = { s.eng e with idleRun := if (s.eng e).idleRun = 63 then 0 else (s.eng e).idleRun + 1 } ∧
      OtherEngines e s t ∧ SameMemory s t ∧ SameHarts s t) ∧
  (∀ (e : Sys2Proof.Eng) (codes : List Byte) (s : State) (x : Tile) (st : Staged), EngRuns s e → Streams s e x st →
    capLets (s.eng e) (if x.mode = 2 then 2 else 1) = false →
    Completes (.vectorSlot e true codes) s fun t =>
      t.eng e = { s.eng e with withheld := true } ∧ OtherEngines e s t ∧ SameRegs (· ≠ 0x400004 + 0x100 * e.val) s t ∧
      SameMemory s t ∧ SameHarts s t) ∧
  (∀ (e : Sys2Proof.Eng) (codes : List Byte) (s : State) (x : Tile) (st : Staged) (m : List (Nat × Nat)) (c : CalSet) (k : Nat),
    EngRuns s e → Streams s e x st → capLets (s.eng e) (if x.mode = 2 then 2 else 1) = true → x.pages = some m → st.bad = false →
    (s.eng e).act = some c →
    (∀ p ∈ homePieces m ((x.inAddr + (s.eng e).vec * x.inStride) % 2 ^ 64) (packedLen x.mode x.sparse) ++
      homePieces m ((x.isAddr + 2 * (s.eng e).vec) % 2 ^ 64) 2, s.hasError p.1 p.2 = false ∧ s.memStopped p.1 = false) →
    homePieces m ((x.outAddr + (s.eng e).vec * x.outStride) % 2 ^ 64) 128 = [(k, 128)] → s.hitsWeights k 128 = false →
    s.memStopped k = false →
    Completes (.vectorSlot e true codes) s fun t =>
      Stored k ((List.range 64).flatMap fun r => leBytes 2 (engineOut x.bf (toSigned 8 (codes.getD r 0).toNat)
        (c.field e (calBeta r (combo x.mode x.sparse))) (c.field e (calGamma r (combo x.mode x.sparse))).toNat (codeO x.mode)
        (codeQ st.bw) st.g (st.sums.getD r 0) (st.scales.getD r 0)
        (leNat ((homePieces m ((x.isAddr + 2 * (s.eng e).vec) % 2 ^ 64) 2).flatMap fun p => s.bytesAt p.1 p.2)))) s t ∧
      (t.eng e).vec = (s.eng e).vec + 1 ∧ (t.eng e).slotCnt = (s.eng e).slotCnt + 1 ∧
      t.get (R.PMX_VECCNT_VECTORS e) = (s.get (R.PMX_VECCNT_VECTORS e) + 1) % 2 ^ 64 ∧ (t.eng e).queue = (s.eng e).queue ∧
      OtherEngines e s t) ∧
  (∀ (e : Sys2Proof.Eng) (codes : List Byte) (s : State) (c : CalSet), EngRuns s e → s.engServing e = true → s.engState e ≠ 3 →
    (s.eng e).act = some c → (s.eng e).slotCnt = 4095 → (s.eng e).probesDue = 0 →
    capLets (s.eng e) (if (s.eng e).rings.map Staged.mode = some 2 then 2 else 1) = true →
    Completes (.probeSlot e codes) s fun t =>
      t.get (R.PMX_PROBECNT_PROBES e) = (s.get (R.PMX_PROBECNT_PROBES e) + 1) % 2 ^ 64 ∧ (t.eng e).slotCnt = 0 ∧
      (t.eng e).lfsr = (List.range (if (s.eng e).rings.map Staged.sparse = some true then 32 else 64)).foldl
        (fun x _ => lfsrStep x) (s.eng e).lfsr ∧
      (t.eng e).vec = (s.eng e).vec ∧ (t.eng e).queue = (s.eng e).queue ∧
      s.get (R.PMX_PROBEREJ_ROWS e) ≤ t.get (R.PMX_PROBEREJ_ROWS e) ∧ OtherEngines e s t ∧ SameMemory s t ∧ SameHarts s t) ∧
  (∀ (e : Sys2Proof.Eng) (s : State) (x : Tile) (r : List Tile) (c slot serial i : Nat) (sl : Slot), EngRuns s e → s.engState e = 4 →
    (s.eng e).running = true → (s.eng e).queue = x :: r → x.nvec ≤ (s.eng e).vec → x.engine = e.val → (s.eng e).drain = none →
    x.src = .hart c (some (slot, serial)) → (s.hart c).slots.find? (fun y => y.1 == slot) = some (i, sl) → sl.serial = serial →
    (s.hart c).wait = .none → CpegTakes s x.tenant x.desc → s.bit (R.PMX_CTL_SVC_OUT e) = false → (s.eng e).selftest = none →
    Completes (.tileComplete e) s fun t =>
      t.engState e = 2 ∧ (t.eng e).running = false ∧ (t.eng e).queue = r ∧
      (t.hart c).slots = tput slot { sl with outcome := some (0, s.get (R.PMX_ERR_ERR e (combo x.mode x.sparse))) } (s.hart c).slots ∧
      t.peg (descCpeg x.desc) = min (s.peg (descCpeg x.desc) + 1) pegMax ∧ OtherEngines e s t ∧ SameMemory s t)

/-- The ends of a window and of a sub-window of the weir. At the end of a window of an engine in service D is the time driven in it,
the next cap is D and an eighth of a window more, at most a whole window and the power cap of the group, and the next floor is D
less an eighth, at least the keep-warm duty that the cap lets it have; each published error with 1,024 scored rows or more is
renewed, and each other one ages. A running tile whose ceiling the error now exceeds leaves for the digital path. Out of service
D stays 0 and the window joins the history empty or as far as it was scored. A sub-window fills up to the floor, and counts a
microsecond withheld when the cap held a tile back. (R120, R121, R122, R132, R135, R411.) -/
def Obligations.WeirWindows : Prop :=
  (∀ (e : Sys2Proof.Eng) (s : State), EngRuns s e → s.engServing e = true → (s.eng e).running = false →
    Completes (.weirWindowEnd e) s fun t =>
      (t.eng e).duty = min (s.eng e).driven 1280000 ∧
      (t.eng e).cap = min (min 1280000 ((t.eng e).duty + 160000)) (160000 * dutyCap e s) ∧
      (t.eng e).floor = max ((t.eng e).duty - 160000)
        (if s.bit (R.PMX_CTL_KW_EN e) then min (t.eng e).cap (160000 * s.get (R.PMX_CTL_KW_DUTY e)) else 0) ∧
      (t.eng e).driven = 0 ∧ t.get (R.PMX_STAT_DUTY e) = (t.eng e).duty * 8 / 1280000 ∧
      t.get (R.PMX_STAT_WEIR_CAP e) = (t.eng e).cap * 8 / 1280000 ∧
      (∀ i : Fin 6, (((s.eng e).cur :: (s.eng e).hist).take 16).foldl (fun a w => a + (w.getD i (0, 0)).2) 0 < 1024 →
        t.get (R.PMX_ERR_ERR e i) = s.get (R.PMX_ERR_ERR e i) ∧
        t.get (R.PMX_ERR_AGE e i) = min (s.get (R.PMX_ERR_AGE e i) + 1) 255) ∧
      (∀ i : Fin 6, 1024 ≤ (((s.eng e).cur :: (s.eng e).hist).take 16).foldl (fun a w => a + (w.getD i (0, 0)).2) 0 →
        t.get (R.PMX_ERR_AGE e i) = 0 ∧ t.get (R.PMX_ERR_SEEDED e i) = 0 ∧ t.get (R.PMX_ERR_ERR e i) ≤ 0xFFFE) ∧
      t.engState e = s.engState e ∧ OtherEngines e s t ∧ SameMemory s t ∧ SameHarts s t) ∧
  (∀ (e : Sys2Proof.Eng) (s : State), EngRuns s e → s.engServing e = false →
    Completes (.weirWindowEnd e) s fun t =>
      (t.eng e).duty = 0 ∧ (t.eng e).floor = 0 ∧ t.get (R.PMX_STAT_DUTY e) = 0 ∧
      (t.eng e).hist = ((s.eng e).cur :: (s.eng e).hist).take 15 ∧ (t.eng e).cur = [] ∧
      SameRegs (fun a => a ≠ 0x400004 + 0x100 * e.val ∧ a ≠ 0x400064 + 0x100 * e.val) s t ∧
      OtherEngines e s t ∧ SameMemory s t ∧ SameHarts s t) ∧
  (∀ (e : Sys2Proof.Eng) (s : State) (x : Tile) (r : List Tile), EngRuns s e → s.engState e = 4 → (s.eng e).running = true →
    (s.eng e).queue = x :: r → (s.eng e).vec < x.nvec → (s.eng e).cur = [] → (s.eng e).hist = [] → x.ceiling ≠ 0xFFFF →
    x.ceiling < s.get (R.PMX_ERR_ERR e (combo x.mode x.sparse)) → x.strict = false → s.bit (R.PMX_CTL_SVC_OUT e) = false →
    (s.eng e).selftest = none → x.mode < 3 →
    Completes (.weirWindowEnd e) s fun t =>
      t.engState e = 2 ∧ (t.eng e).running = false ∧ (t.eng e).queue = { x with digital := true } :: r ∧
      t.get (R.PMX_FB_RUN_COUNT e) = (s.get (R.PMX_FB_RUN_COUNT e) + 1) % 2 ^ 32 ∧ OtherEngines e s t ∧ SameMemory s t) ∧
  (∀ (e : Sys2Proof.Eng) (s : State) (pad : Nat), EngRuns s e → s.engServing e = true →
    pad = (if s.engState e = 3 then 0 else (s.eng e).floor / 64 - (s.eng e).subDriven) →
    Completes (.weirSubwindow e) s fun t =>
      (t.eng e).driven = (s.eng e).driven + pad ∧ (t.eng e).subDriven = 0 ∧ (t.eng e).withheld = false ∧
      (t.eng e).padRest = ((s.eng e).padRest + pad) % 20000 ∧
      t.get (R.PMX_WEIRCNT_PADDED_US e) = min (s.get (R.PMX_WEIRCNT_PADDED_US e) + ((s.eng e).padRest + pad) / 20000) 65535 ∧
      t.get (R.PMX_WEIRCNT_WITHHELD_US e) = min (s.get (R.PMX_WEIRCNT_WITHHELD_US e) + (if (s.eng e).withheld then 1 else 0)) 65535 ∧
      (t.eng e).queue = (s.eng e).queue ∧ t.engState e = s.engState e ∧ OtherEngines e s t ∧ SameMemory s t ∧ SameHarts s t)

/-- A tile on the digital path. A tile routed to the digital path leaves its engine queue for the fallback queue of its bay when
that has room. The fallback cores write, for each vector, 64 values computed exactly from the stored weights and inputs and
rounded once; the tile ends FALLBACK in its ticket slot, its vectors are counted, and its completion peg is signalled once.
(R97, R116, R137, R138.) -/
def Obligations.FallbackPath : Prop :=
  (∀ (b : Bay) (s : State) (x : Tile) (r : List Tile), s.bayRuns b = true → (s.fallback b).length < 1024 →
    (s.eng (2 * b.val)).queue = x :: r → x.digital = true → (s.eng (2 * b.val)).running = false → (s.eng (2 * b.val + 1)).queue = [] →
    Completes (.fallbackQueueAccept b) s fun t =>
      (t.eng (2 * b.val)).queue = r ∧
      t.fallback b = s.fallback b ++ [{ x with started := x.started || (s.fallback b).isEmpty }] ∧
      t.get (R.DSP_FBSTAT_QDEPTH b) = (s.fallback b).length + 1 ∧ OtherEngines (2 * b.val) s t ∧ SameMemory s t ∧ SameHarts s t) ∧
  (∀ (b : Bay) (s : State) (x : Tile) (m : List (Nat × Nat)) (k c slot serial i n : Nat) (sl : Slot) (w v : List Byte),
    s.bayRuns b = true → s.fallback b = [x] → x.pages = some m → x.nvec = 1 → n = (if x.sparse then 32 else 64) →
    (∀ p ∈ areaPieces m x.rowArea ++ areaPieces m x.scaleArea ++ homePieces m (x.inAddr % 2 ^ 64) (packedLen x.mode x.sparse) ++
      homePieces m (x.isAddr % 2 ^ 64) 2, s.hasError p.1 p.2 = false ∧ s.memStopped p.1 = false) →
    homePieces m (x.outAddr % 2 ^ 64) 128 = [(k, 128)] → s.hitsWeights k 128 = false → s.memStopped k = false →
    (s.eng x.engine).drain = none → x.src = .hart c (some (slot, serial)) →
    (s.hart c).slots.find? (fun y => y.1 == slot) = some (i, sl) → sl.serial = serial → (s.hart c).wait = .none →
    CpegTakes s x.tenant x.desc →
    w = (areaPieces m x.rowArea).flatMap (fun p => s.bytesAt p.1 p.2) →
    v = (homePieces m (x.inAddr % 2 ^ 64) (packedLen x.mode x.sparse)).flatMap (fun p => s.bytesAt p.1 p.2) →
    Completes (.fallbackComplete b) s fun t =>
      Stored k ((List.range 64).flatMap fun r => leBytes 2 (fallbackOut x.bf
        ((List.range n).foldl (fun a j => a + (clampW (codeQ (4 + x.wbits)) (w.getD (r * n + j) 0)).1 *
          (unpackInputs x.mode n v).1.getD j 0) 0)
        (leNat ((((areaPieces m x.scaleArea).flatMap fun p => s.bytesAt p.1 p.2).drop (2 * r)).take 2))
        (leNat ((homePieces m (x.isAddr % 2 ^ 64) 2).flatMap fun p => s.bytesAt p.1 p.2)))) s t ∧
      t.fallback b = [] ∧ t.get (R.PMX_FB_VEC_VECTORS x.engine) = (s.get (R.PMX_FB_VEC_VECTORS x.engine) + 1) % 2 ^ 64 ∧
      (t.hart c).slots = tput slot { sl with outcome := some (1, s.get (R.PMX_ERR_ERR x.engine (combo x.mode x.sparse))) }
        (s.hart c).slots ∧
      t.peg (descCpeg x.desc) = min (s.peg (descCpeg x.desc) + 1) pegMax)

/-- Engines leave and return to service. SVC_OUT = 1 takes an idle engine OUT: it is no longer in service, every ERR reads 0xFFFF,
its weir starts again from D = 0; SVC_OUT = 0 brings it back to IDLE with the errors it kept, or to ACQUIRING when a ring has
lost lock. KW_EN and KW_DUTY are what was written. A driver that stops, or a die-to-die link that does not train again, marks
the engine out until a package reset, with an alert and one Logbook record; the loss of the link alone takes it OUT and does not
mark it. A self-test claims its permit and takes the engine OUT; a pass returns it, and the permit is free. (R118, R119, R123,
R124, R126, R127, R133.) -/
def Obligations.EngineService : Prop :=
  (∀ (r : Requester) (e : Sys2Proof.Eng) (s : State), Reaches r (0x400000 + 0x100 * e.val) s → s.engState e = 2 →
    (s.eng e).queue = [] → (s.eng e).running = false →
    Completes (.svcOutWrite r e 1) s fun t =>
      t.get (R.PMX_CTL_SVC_OUT e) = 1 ∧ t.engState e = 6 ∧ nbit (t.get R.HUB_ENG_MAP_ENG_IN_SERVICE) e = false ∧
      (∀ i : Fin 6, t.get (R.PMX_ERR_ERR e i) = 0xFFFF) ∧ (t.eng e).duty = 0 ∧
      (t.eng e).errs = (List.range 6).map (fun i => s.get (R.PMX_ERR_ERR e i)) ∧
      SameRegs (fun a => ¬EngBlock e a ∧ a ≠ 0x204) s t ∧ OtherEngines e s t ∧ SameMemory s t ∧ SameHarts s t) ∧
  (∀ (r : Requester) (e : Sys2Proof.Eng) (s : State), Reaches r (0x400000 + 0x100 * e.val) s → s.engState e = 6 →
    s.engMarked e = false → (s.eng e).selftest = none →
    Completes (.svcOutWrite r e 0) s fun t =>
      t.get (R.PMX_CTL_SVC_OUT e) = 0 ∧ t.engState e = (if s.bit (R.PMX_STAT_LOCKED e) then 2 else 1) ∧
      (s.bit (R.PMX_STAT_LOCKED e) = true → ∀ i : Fin 6, t.get (R.PMX_ERR_ERR e i) = (s.eng e).errs.getD i 0xFFFF % 65536) ∧
      SameRegs (fun a => ¬EngBlock e a ∧ a ≠ 0x204) s t ∧ OtherEngines e s t ∧ SameMemory s t ∧ SameHarts s t) ∧
  (∀ (r : Requester) (e : Sys2Proof.Eng) (en : BitVec 1) (duty : BitVec 3) (s : State), Reaches r (0x400000 + 0x100 * e.val) s →
    Completes (.keepWarmWrite r e en duty) s fun t =>
      t.get (R.PMX_CTL_KW_EN e) = en.toNat ∧ t.get (R.PMX_CTL_KW_DUTY e) = duty.toNat ∧
      t.get (R.PMX_CTL_SVC_OUT e) = s.get (R.PMX_CTL_SVC_OUT e) ∧ SameRegs (· ≠ 0x400000 + 0x100 * e.val) s t ∧
      t.engs = s.engs ∧ SameMemory s t ∧ SameHarts s t) ∧
  (∀ (e : Sys2Proof.Eng) (s : State), s.engMarked e = false → s.engServing e = true → (s.eng e).queue = [] → (s.eng e).running = false →
    s.scbQueue = [] → s.scbRun = none → LogOpen s →
    Completes (.driverHeartbeatStop e) s (fun t =>
      t.engState e = 6 ∧ t.engMarked e = true ∧ 24 + e.val ∈ t.deadDies ∧ t.bit (alertFld 2) = true ∧
      Logged (2 + 256 * e.val) 0x0200 (leBytes 1 e ++ leBytes 1 2) s t ∧ OtherEngines e s t ∧ SameMemory s t ∧ SameHarts s t) ∧
    Completes (.ucieRetrainTimeout e) s fun t =>
      t.engState e = 6 ∧ t.engMarked e = true ∧ t.deadDies = s.deadDies ∧ t.bit (alertFld 2) = true ∧
      Logged (2 + 256 * e.val) 0x0200 (leBytes 1 e ++ leBytes 1 1) s t ∧ OtherEngines e s t ∧ SameMemory s t ∧ SameHarts s t) ∧
  (∀ (e : Sys2Proof.Eng) (s : State), s.engServing e = true → (s.eng e).queue = [] → (s.eng e).running = false →
    Completes (.ucieLinkLost e) s fun t =>
      t.engState e = 6 ∧ t.get R.HUB_ENG_MAP_ENG_OUT = s.get R.HUB_ENG_MAP_ENG_OUT ∧
      SameRegs (fun a => ¬EngBlock e a ∧ a ≠ 0x204) s t ∧ OtherEngines e s t ∧ SameMemory s t ∧ SameHarts s t) ∧
  (∀ (tag : BitVec 16) (e : Byte) (s : State), e.toNat < 16 → MbxFree tag 4 0x40 s → s.get (R.HUB_PERMIT_HOLDER (32 + e.toNat)) = 0 →
    s.engServing e.toNat = true → (s.eng e.toNat).queue = [] → (s.eng e.toNat).running = false →
    Completes (.engineSelftest (.mbx 0 tag) e) s fun t =>
      t.engState e.toNat = 6 ∧ t.get (R.HUB_PERMIT_HOLDER (32 + e.toNat)) = 0x106 ∧ (t.eng e.toNat).selftest = some 1 ∧
      MbxAnswer 0 t ∧ OtherEngines e.toNat s t ∧ SameMemory s t ∧ SameHarts s t) ∧
  (∀ (e : Sys2Proof.Eng) (s : State) (path : Nat), (s.eng e).selftest = some path → (s.eng e).running = false → s.engState e = 6 →
    s.engMarked e = false → s.bit (R.PMX_CTL_SVC_OUT e) = false → s.bit (R.PMX_STAT_LOCKED e) = true →
    Completes (.selftestComplete e .pass) s fun t =>
      t.engState e = 2 ∧ (t.eng e).selftest = none ∧ t.get (R.HUB_PERMIT_HOLDER (32 + e.val)) = 0 ∧
      t.odGet 2 (0x50 + e.val) 0 = 1 ∧ OtherEngines e s t ∧ SameMemory s t ∧ SameHarts s t)

/-- A frame that is sent reads back as the frame it was. For every frame of class 0 to 2 that fits the frame format, with any header
fields and one to eight transactions of any operation codes and fields, the bytes that a port sends read back as exactly that
frame with its LSEQ; no bit is dropped and the CRC passes, also when HOPS and LSEQ have been changed on the way. A link-local
body reads back as that body. (R202, R203, R204.) -/
def Obligations.FramesReadBack : Prop :=
  (∀ (f : Frame) (lseq : Nat), f.cls < 3 → f.dst < 2 ^ 20 → f.src < 2 ^ 20 → f.flow < 2 ^ 16 → f.hops < 16 → lseq < 2 ^ 16 →
    1 ≤ f.xs.length → f.xs.length ≤ 8 → (∀ x ∈ f.xs, x.body.data.length = if x.op = 2 then 0 else x.body.size.toNat) →
    (f.xs.flatMap xactBytes).length ≤ 492 →
    (f.bytes lseq).length = 8 * frameLen (f.xs.flatMap xactBytes).length ∧ readFrame (f.bytes lseq) = some (.frame f lseq) ∧
    ∀ hops lseq' : Nat, hops < 16 → lseq' < 2 ^ 16 →
      (Frame.bytes { f with hops := hops } lseq').drop 16 = (f.bytes lseq).drop 16) ∧
  (∀ (hops dst src : Nat) (body : List Byte), hops < 16 → dst < 2 ^ 20 → src < 2 ^ 20 → body.length = 16 →
    readFrame (sealFrame 0 3 hops dst src 0 0 body) = some (.body body))

/-- Sending, receiving, forwarding, acknowledging, replaying. A port that is UP sends a waiting frame for which it holds the credit:
its bytes go onto the fibre with the next LSEQ, and it stays in the replay buffer. A frame that fails its CRC is counted and
NAKed at once with the LSEQ that is expected. A frame for another package is forwarded with HOPS one less, or dropped and
counted when HOPS is 0. A frame with another LSEQ than the one expected does nothing. An acknowledgement takes the acknowledged
frames out of the replay buffer; a NAK makes the others leave again in order, and at the eighth of one LSEQ in a row the port
goes DOWN. (R205, R206, R207, R219.) -/
def Obligations.FramesAndAcknowledgements : Prop :=
  (∀ (p : Port) (s : State) (h : RoutedXact) (f : Frame), s.portUp p = true → s.draining p = false → s.transit = [] → s.fabricOut = [h] →
    h.cls < 3 → h.dst ≠ s.pkg → s.selectPort h.dst h.flow = some p.val → (xactBytes h.x).length ≤ 492 →
    f = ⟨h.cls, h.dst, s.get R.LNK_GLOBAL_PKG, h.flow, s.get R.LNK_GLOBAL_HOPS_INIT, [h.x]⟩ → f.credits ≤ (s.port p).credit h.cls →
    Completes (.frameTransmit p) s fun t =>
      t.wire = s.wire ++ [(p.val, f.bytes (s.port p).txSeq)] ∧ t.fabricOut = [] ∧
      (t.port p).replay = (s.port p).replay ++ [((s.port p).txSeq, f)] ∧ (t.port p).txSeq = ((s.port p).txSeq + 1) % 65536 ∧
      OtherPorts p s t ∧ t.regs = s.regs ∧ SameMemory s t ∧ SameHarts s t) ∧
  (∀ (p : Port) (s : State) (q n : Nat) (f : Frame), s.portUp p = true → s.draining p = false → s.transit = [(q, n, f)] →
    s.fabricOut = [] → f.cls < 3 → s.selectPort (f.dst % 65536) f.flow = some p.val → f.credits ≤ (s.port p).credit f.cls →
    Completes (.frameTransmit p) s fun t =>
      t.wire = s.wire ++ [(p.val, f.bytes (s.port p).txSeq)] ∧ t.transit = [] ∧
      (t.port p).replay = (s.port p).replay ++ [((s.port p).txSeq, f)] ∧
      tget 0 (t.port q).freedOwn f.cls = (tget 0 (s.port q).freedOwn f.cls + n) % 65536 ∧ t.regs = s.regs ∧ SameMemory s t) ∧
  (∀ (p : Port) (bytes : List Byte) (s : State), readFrame bytes = none → s.portUp p = true →
    Completes (.frameReceived p bytes true) s fun t =>
      t.get (R.LNK_CRC_ERR p) = (s.get (R.LNK_CRC_ERR p) + 1) % 2 ^ 32 ∧
      (∃ bs b : List Byte, t.wire = s.wire ++ [(p.val, bs)] ∧ readFrame bs = some (.body b) ∧ nfld (leNat b) 0 9 = 0x101 ∧
        nfld (leNat b) 16 16 = (s.port p).rxSeq % 65536) ∧
      SameRegs (· ≠ 0x700030 + 0x100 * p.val) s t ∧ SamePorts s t ∧ t.fabricOut = s.fabricOut ∧ SameMemory s t ∧ SameHarts s t) ∧
  (∀ (p : Port) (bytes : List Byte) (s : State) (f : Frame) (lseq : Nat), readFrame bytes = some (.frame f lseq) → s.portUp p = true →
    lseq = (s.port p).rxSeq → f.dst % 65536 ≠ s.pkg →
    Completes (.frameReceived p bytes true) s fun t =>
      (t.port p).rxSeq = ((s.port p).rxSeq + 1) % 65536 ∧ t.fabricOut = s.fabricOut ∧ t.wire = s.wire ∧ SameMemory s t ∧ SameHarts s t ∧
      (f.hops = 0 → t.transit = s.transit ∧ t.get (R.LNK_HOPDROP p) = min (s.get (R.LNK_HOPDROP p) + 1) 65535) ∧
      (0 < f.hops → s.usablePorts (f.dst % 65536) ≠ [] → t.transit = s.transit ++ [(p.val, f.credits, { f with hops := f.hops - 1 })] ∧
        t.get (R.LNK_TRANSIT p) = (s.get (R.LNK_TRANSIT p) + 1) % 2 ^ 32)) ∧
  (∀ (p : Port) (bytes : List Byte) (s : State) (f : Frame) (lseq : Nat), readFrame bytes = some (.frame f lseq) →
    lseq ≠ (s.port p).rxSeq → exec (.frameReceived p bytes true) s = .next { s with trip := none }) ∧
  (∀ (p : Port) (b : LinkAckBody) (s : State) (n : Nat), s.portUp p = true →
    n = (b.ackseq.toNat + 65536 - ((s.port p).replay.head?.map Prod.fst).getD (s.port p).txSeq) % 65536 → n ≤ (s.port p).replay.length →
    b.nak = false →
    Completes (.linkAck p b) s fun t =>
      (t.port p).replay = (s.port p).replay.drop n ∧ t.wire = s.wire ∧ t.regs = s.regs ∧ OtherPorts p s t ∧ SameMemory s t) ∧
  (∀ (p : Port) (b : LinkAckBody) (s : State) (n : Nat), s.portUp p = true →
    n = (b.ackseq.toNat + 65536 - ((s.port p).replay.head?.map Prod.fst).getD (s.port p).txSeq) % 65536 → n ≤ (s.port p).replay.length →
    b.nak = true →
    ((s.port p).nakSeq ≠ b.ackseq.toNat ∨ (s.port p).nakRun < 7 →
      Completes (.linkAck p b) s fun t =>
        (t.port p).replay = (s.port p).replay.drop n ∧
        t.wire = s.wire ++ ((s.port p).replay.drop n).map (fun e => (p.val, e.2.bytes e.1)) ∧
        t.get (R.LNK_REPLAY p) = (s.get (R.LNK_REPLAY p) + ((s.port p).replay.length - n)) % 2 ^ 32 ∧
        OtherPorts p s t ∧ SameMemory s t) ∧
    ((s.port p).nakSeq = b.ackseq.toNat → n = 0 → 7 ≤ (s.port p).nakRun →
      Completes (.linkAck p b) s fun t => t.ptState p = 1 ∧ (t.port p).replay = [] ∧ SameMemory s t)) ∧
  (∀ (p : Port) (s : State), s.portUp p = true →
    Completes (.linkAckTimer p) s fun t =>
      (∃ bs b : List Byte, t.wire = s.wire ++ [(p.val, bs)] ∧ readFrame bs = some (.body b) ∧ nfld (leNat b) 0 9 = 1 ∧
        nfld (leNat b) 16 16 = (s.port p).rxSeq % 65536) ∧
      t.regs = s.regs ∧ SamePorts s t ∧ SameMemory s t ∧ SameHarts s t)

/-- How a port comes UP. Light makes a DOWN port that may train begin a training, which is counted. The TRAIN body of the other end
is kept. A training with lines on both ends ends UP when the epochs agree, with those lines of whole groups, the identity and
the level of the other end, and full credits; or in EPOCH_WAIT when they differ. Without a group of four lines, or at the time
limit, it fails: the port is DOWN and waits to try again, and after that wait trains again. On a link that is UP a TRAIN body
that lacks lines of a group drops the group. (R195, R208, R209, R210, R211, R213.) -/
def Obligations.Training : Prop :=
  (∀ (p : Port) (s : State), s.mayTrain p = true → s.ptState p = 1 →
    (s.bit (R.LNK_CFG_AUTO_RETRAIN p) = true → (s.port p).needRise = false → (s.port p).retryWait = false →
      Completes (.trainingStart p .light) s fun t =>
        t.ptState p = 2 ∧ t.get (R.LNK_TRAIN_START p) = min (s.get (R.LNK_TRAIN_START p) + 1) 65535 ∧ (t.port p).peer = none ∧
        OtherPorts p s t ∧ SameMemory s t ∧ SameHarts s t) ∧
    ((s.port p).retryWait = true →
      Completes (.trainingRetry p) s fun t =>
        t.ptState p = 2 ∧ (t.port p).retryWait = false ∧ OtherPorts p s t ∧ SameMemory s t ∧ SameHarts s t)) ∧
  (∀ (p : Port) (b : TrainBody) (s : State), s.ptState p = 2 →
    Completes (.train p b) s fun t =>
      t.port p = { s.port p with peer := some b } ∧ t.regs = s.regs ∧ t.wire = s.wire ∧ OtherPorts p s t ∧ SameMemory s t) ∧
  (∀ (p : Port) (b : TrainBody) (s : State) (left : Nat), s.ptState p = 4 →
    left = wholeGroups (s.get (R.LNK_LINES_ACTIVE p) &&& b.linesOk.toNat) → left ≠ 0 → left ≠ s.get (R.LNK_LINES_ACTIVE p) →
    Completes (.train p b) s fun t =>
      t.get (R.LNK_LINES_ACTIVE p) = left ∧ t.get (R.LNK_STAT_WIDTH p) = lineCount left ∧
      t.get (R.LNK_LANE_DROPS p) = min (s.get (R.LNK_LANE_DROPS p) + 1) 65535 ∧ t.ptState p = 4 ∧
      t.get (R.LNK_PEER_EPOCH p) = b.epoch.toNat ∧ SameMemory s t ∧ SameHarts s t) ∧
  (∀ (p : Port) (m : TrainMeasure) (s : State) (b : TrainBody) (lines : Nat), s.ptState p = 2 → (s.port p).peer = some b →
    (s.port p).keep = false → m.delayPs ≤ 10000000 →
    lines = wholeGroups (m.linesLocked.toNat &&& s.linesMax p &&& s.termMask p &&& b.linesOk.toNat) → lines ≠ 0 →
    s.bit (R.LNK_CFG_NBR_CHECK p) = false → s.bit (R.LNK_CFG_LIGHT p) = false →
    Completes (.trainingComplete p m) s fun t =>
      t.ptState p = (if b.epoch.toNat = s.get R.LNK_EPOCH_EPOCH then 4 else 3) ∧ t.get (R.LNK_LINES_ACTIVE p) = lines ∧
      t.get (R.LNK_STAT_WIDTH p) = lineCount lines ∧ t.get (R.LNK_PEER_PKG p) = b.pkg.toNat ∧
      t.get (R.LNK_PEER_PORT p) = b.port.toNat ∧ t.get (R.LNK_STAT_LEVEL p) = min s.level b.level.toNat ∧
      t.get (R.LNK_DELAY p) = m.delayPs ∧
      (b.epoch.toNat = s.get R.LNK_EPOCH_EPOCH → t.get (R.LNK_STAT_FEC p) = 1 ∧ t.get (R.LNK_PEER_VALID p) = 1) ∧
      ((s.port p).replay = [] → ∀ c : Fin 3, (t.port p).credit c = classCredits c) ∧ SameMemory s t ∧ SameHarts s t) ∧
  (∀ (p : Port) (m : TrainMeasure) (s : State) (b : TrainBody), s.ptState p = 2 → (s.port p).peer = some b → m.delayPs ≤ 10000000 →
    wholeGroups (m.linesLocked.toNat &&& s.linesMax p &&& s.termMask p &&& b.linesOk.toNat) = 0 →
    Completes (.trainingComplete p m) s fun t => t.ptState p = 1 ∧ (t.port p).retryWait = true ∧
      t.get (R.LNK_TRAIN_FAILS p) = min (s.get (R.LNK_TRAIN_FAILS p) + 1) 65535 ∧ SameMemory s t ∧ SameHarts s t) ∧
  (∀ (p : Port) (s : State), s.ptState p = 2 →
    Completes (.trainingTimeout p) s fun t =>
      t.ptState p = 1 ∧ (t.port p).retryWait = true ∧ t.get (R.LNK_TRAIN_FAILS p) = min (s.get (R.LNK_TRAIN_FAILS p) + 1) 65535 ∧
      (7 ≤ (s.port p).fails → t.get (R.LNK_STAT_TRAIN_FAIL p) = 1) ∧ SameMemory s t ∧ SameHarts s t)

/-- What takes a port down, out, or into a training. RETRAIN of a port that is UP starts a training that keeps its frames, and
answers DONE; DOWN takes it down until light rises anew; EN = 0 disables it and EN = 1 of a disabled port makes it DOWN; loss of
signal takes it down. Both commands are ignored and counted while one is in progress. A failed line is marked and logged, and
its group of four drops. Light mode that fails trains again with FEC. A link die whose heartbeat stops takes its four ports and
its two planes out. (R38, R201, R208, R212, R213, R360.) -/
def Obligations.PortStates : Prop :=
  (∀ (r : Requester) (p : Port) (s : State), Reaches r (0x700004 + 0x100 * p.val) s → s.get (R.LNK_CMD_STATUS p) ≠ 1 → s.ptState p = 4 →
    (s.mayTrain p = true →
      Completes (.retrain r p) s fun t =>
        t.ptState p = 2 ∧ t.get (R.LNK_CMD_STATUS p) = 2 ∧ (t.port p).keep = true ∧ (t.port p).replay = (s.port p).replay ∧
        t.get (R.LNK_TRAIN_START p) = min (s.get (R.LNK_TRAIN_START p) + 1) 65535 ∧ OtherPorts p s t ∧ SameMemory s t ∧ SameHarts s t) ∧
    Completes (.down r p) s fun t =>
      t.ptState p = 1 ∧ t.get (R.LNK_CMD_STATUS p) = 2 ∧ (t.port p).needRise = true ∧ (t.port p).replay = [] ∧
      t.get (R.LNK_STAT_WIDTH p) = 0 ∧ t.get (R.LNK_PEER_VALID p) = 0 ∧
      t.get (R.LNK_DOWNS p) = min (s.get (R.LNK_DOWNS p) + 1) 65535 ∧ SameMemory s t ∧ SameHarts s t) ∧
  (∀ (r : Requester) (p : Port) (s : State), Reaches r (0x700004 + 0x100 * p.val) s → s.get (R.LNK_CMD_STATUS p) = 1 →
    exec (.retrain r p) s = .next (s.incSat (R.LNK_CMD_IGNORED p)) ∧ exec (.down r p) s = .next (s.incSat (R.LNK_CMD_IGNORED p))) ∧
  (∀ (r : Requester) (p : Port) (s : State), Reaches r (0x700000 + 0x100 * p.val) s → s.ptState p ≠ 5 →
    Completes (.lnkCfgEnWrite r p 0) s (fun t => t.get (R.LNK_CFG_EN p) = 0 ∧ t.ptState p = 0 ∧ SameMemory s t ∧ SameHarts s t) ∧
    Completes (.lnkCfgEnWrite r p 1) s fun t =>
      t.get (R.LNK_CFG_EN p) = 1 ∧ t.ptState p = (if s.ptState p = 0 then 1 else s.ptState p) ∧ SameMemory s t ∧ SameHarts s t) ∧
  (∀ (p : Port) (l : Line) (cause : LineCause) (s : State) (left : Nat), s.ptState p = 4 →
    nbit (s.get (R.LNK_LINES_FAILED p)) l = false → nbit (s.get (R.LNK_LINES_ACTIVE p)) l = true → LogOpen s →
    left = wholeGroups (s.get (R.LNK_LINES_ACTIVE p) &&& (0xFFFF ^^^ 15 * 2 ^ (l.val / 4 * 4))) → left ≠ 0 →
    Completes (.lineFailure p l cause) s fun t =>
      nbit (t.get (R.LNK_LINES_FAILED p)) l = true ∧ t.get (R.LNK_LINES_ACTIVE p) = left ∧ t.get (R.LNK_STAT_WIDTH p) = lineCount left ∧
      t.ptState p = 4 ∧ Logged (6 + 256 * p.val) 0x0700 (leBytes 1 p ++ leBytes 1 l) s t ∧ SameMemory s t ∧ SameHarts s t) ∧
  (∀ (p : Port) (s : State), s.ptState p = 4 ∨ s.ptState p = 2 ∨ s.ptState p = 3 →
    Completes (.lossOfSignal p) s fun t =>
      t.ptState p = 1 ∧ (t.port p).needRise = false ∧ (t.port p).replay = [] ∧ t.get (R.LNK_LINES_ACTIVE p) = 0 ∧ SameMemory s t ∧
      SameHarts s t) ∧
  (∀ (p : Port) (s : State), s.ptState p = 4 → s.bit (R.LNK_STAT_FEC p) = false →
    Completes (.lightFallback p) s fun t =>
      t.ptState p = 2 ∧ t.get (R.LNK_STAT_LIGHT_FALLBACK p) = 1 ∧ (t.port p).noLight = true ∧ (t.port p).keep = true ∧
      OtherPorts p s t ∧ SameMemory s t ∧ SameHarts s t) ∧
  (∀ (k : Pair) (s : State), nbit s.pairsOut k = false →
    Completes (.linkDieHeartbeatStop k) s fun t =>
      nbit t.pairsOut k = true ∧ 8 + k.val ∈ t.deadDies ∧ t.bit (alertFld 3) = true ∧
      (∀ p : Port, p.val / 4 = k.val → t.ptState p = 5 ∧ nbit (t.get R.HUB_PORT_MAP_PORT_PRESENT) p = false) ∧
      (∀ p : Port, p.val / 4 ≠ k.val → t.ptState p = s.ptState p) ∧
      nbit (t.get R.HUB_PLANE_MAP_PLANE_IN_SERVICE) (2 * k.val) = false ∧
      nbit (t.get R.HUB_PLANE_MAP_PLANE_IN_SERVICE) (2 * k.val + 1) = false ∧ SameMemory s t ∧ SameHarts s t)

/-- Gangs, the package identifier, and the beacon. A gang takes a set of ports that no other gang holds, and its UP bits are those
of its ports that are UP; a set that meets another gang changes nothing but GANG_DUP. The last drained port ends the draining of
its gang. PKG is written while no port is UP or in EPOCH_WAIT, and counted as ignored otherwise; an identifier above 65,535 is
the undefined case 1. A second good beacon frame in a row with the same identity makes the neighbour valid; a bad one is
counted. A port with light sends beacon frames that carry its identity and a good CRC. (R9, R215, R221, R222, R223, R224.) -/
def Obligations.GangsAndIdentity : Prop :=
  (∀ (r : Requester) (g : Fin 16) (ports : BitVec 32) (s : State), Reaches r (0x704100 + 8 * g.val) s →
    ((∀ h : Fin 16, h ≠ g → s.get (R.LNK_GANG_PORTS h) &&& ports.toNat = 0) →
      Completes (.gangWrite r g ports) s fun t =>
        t.get (R.LNK_GANG_PORTS g) = ports.toNat ∧
        (∀ p : Port, nbit (t.get (R.LNK_GANG_UP g)) p = (nbit ports.toNat p && s.portUp p)) ∧
        SameRegs (· ≠ 0x704100 + 8 * g.val) s t ∧ t.ports = s.ports ∧ SameMemory s t ∧ SameHarts s t) ∧
    (∀ h : Fin 16, h ≠ g → s.get (R.LNK_GANG_PORTS h) &&& ports.toNat ≠ 0 →
      exec (.gangWrite r g ports) s = .next (s.setBit R.LNK_GLOBAL_GANG_DUP true))) ∧
  (∀ (p : Port) (s : State) (g old : Nat), (s.port p).replay = [] → s.gangDrain = [(g, old, [p.val])] → s.transit = [] →
    Completes (.gangDrainComplete p) s fun t => t.gangDrain = [] ∧ t.regs = s.regs ∧ t.ports = s.ports ∧ SameMemory s t) ∧
  (∀ (r : Requester) (v : BitVec 20) (s : State), Reaches r 0x704000 s →
    (v.toNat ≤ 65535 → (∀ p : Port, s.ptState p ≠ 4 ∧ s.ptState p ≠ 3) →
      Completes (.pkgWrite (.reg r) v) s fun t =>
        t.get R.LNK_GLOBAL_PKG = v.toNat ∧ SameRegs (· ≠ 0x704000) s t ∧
        t.get R.LNK_GLOBAL_HOPS_INIT = s.get R.LNK_GLOBAL_HOPS_INIT ∧ SameMemory s t) ∧
    (∀ p : Port, v.toNat ≤ 65535 → s.ptState p = 4 ∨ s.ptState p = 3 →
      Completes (.pkgWrite (.reg r) v) s fun t =>
        t.get R.LNK_GLOBAL_PKG = s.get R.LNK_GLOBAL_PKG ∧
        t.get R.LNK_GLOBAL_PKG_IGNORED = min (s.get R.LNK_GLOBAL_PKG_IGNORED + 1) 65535 ∧ SameRegs (· ≠ 0x704000) s t) ∧
    (65535 < v.toNat → exec (.pkgWrite (.reg r) v) s = .fault (.undefinedCase 1))) ∧
  (∀ (p : Port) (n : BitVec 128) (rise : Bool) (depth : Nat) (s : State), rise = false ∨ 150 ≤ depth →
    (n.toNat % 65536 = 0xB5C3 → nfld n.toNat 120 8 = beaconCrc n.toNat → s.bit (R.LNK_STAT_AMBIENT p) = false →
      (s.port p).beacon = some (nfld n.toNat 20 20, nfld n.toNat 40 7, nfld n.toNat 48 32) →
      Completes (.beaconFrame p n rise depth) s fun t =>
        t.get (R.LNK_NBR_VALID p) = 1 ∧ t.get (R.LNK_NBR_OFFER p) = 1 ∧ t.get (R.LNK_NBR_PKG p) = nfld n.toNat 20 20 ∧
        t.get (R.LNK_NBR_PORT p) = nfld n.toNat 40 7 ∧ t.get (R.LNK_NBR_EPOCH p) = nfld n.toNat 48 32 ∧
        t.get (R.LNK_BEACON_OK p) = min (s.get (R.LNK_BEACON_OK p) + 1) 65535 ∧
        SameRegs (fun a => ¬PortBlock p a) s t ∧ OtherPorts p s t ∧ SameMemory s t) ∧
    (n.toNat % 65536 ≠ 0xB5C3 ∨ nfld n.toNat 120 8 ≠ beaconCrc n.toNat →
      Completes (.beaconFrame p n rise depth) s fun t =>
        t.get (R.LNK_BEACON_BAD p) = min (s.get (R.LNK_BEACON_BAD p) + 1) 65535 ∧ (t.port p).beacon = none ∧
        SameRegs (· ≠ 0x700040 + 0x100 * p.val) s t ∧ OtherPorts p s t ∧ SameMemory s t)) ∧
  (∀ (p : Port) (s : State), s.bit (R.LNK_CFG_BEACON_EN p) = true → s.feedLit p = true → s.ptState p ≠ 0 → s.ptState p ≠ 5 →
    Completes (.beaconSend p) s fun t =>
      (∃ bs : List Byte, t.wire = s.wire ++ [(p.val, bs)] ∧ bs.length = 16 ∧ leNat bs % 65536 = 0xB5C3 ∧
        nfld (leNat bs) 20 20 = s.get R.LNK_GLOBAL_PKG ∧ nfld (leNat bs) 40 7 = p.val ∧ nfld (leNat bs) 48 32 = s.get R.LNK_EPOCH_EPOCH ∧
        nfld (leNat bs) 120 8 = beaconCrc (leNat bs)) ∧
      t.regs = s.regs ∧ t.ports = s.ports ∧ SameMemory s t ∧ SameHarts s t)

/-- The life of a map from staging to arming. A write to SLC_STAGE changes exactly the bytes it names, and is ignored and counted
while a plan is made. PLAN needs an active headgate. A map that fails a check is rejected with the reason of the first check
that fails; one that passes is PLANNED with its entry and exit switches as the map says; two sources on one output line are the
undefined case 2. ARM of a planned map before its instant claims the planes it changes and is ARMED; DISARM frees them and is
PLANNED again, and is too late once the activation runs; DISCARD empties the staging. Without a planned map ARM is refused.
(R235, R237, R238, R241, R242, R253, R257, R258.) -/
def Obligations.StagingAndPlanning : Prop :=
  (∀ (r : Requester) (off : Fin 2048) (data : List Byte) (s : State), data ≠ [] → off.val % 4 + data.length ≤ 4 →
    off.val + data.length ≤ 0x440 → Reaches r (0x800000 + off.val / 4 * 4) s →
    (s.slcStatus ≠ 1 →
      Completes (.stageWrite r off data) s fun t =>
        (∀ j, j < 4 → t.get (R.SLC_STAGE_WORD (off.val / 4)) / 256 ^ j % 256 =
          if off.val % 4 ≤ j ∧ j < off.val % 4 + data.length then (data.getD (j - off.val % 4) 0).toNat
          else s.get (R.SLC_STAGE_WORD (off.val / 4)) / 256 ^ j % 256) ∧
        SameRegs (· ≠ 0x800000 + off.val / 4 * 4) s t ∧ SamePlan s t ∧ SameMemory s t ∧ SameHarts s t) ∧
    (s.slcStatus = 1 → exec (.stageWrite r off data) s = .next (s.incSat R.SLC_CNT_STAGE_IGNORED))) ∧
  (∀ (r : Requester) (s : State), Reaches r 0x808000 s → s.get R.HDG_CMD_STATUS ≠ 1 → s.slcStatus ≠ 4 → s.slcStatus ≠ 5 →
    Completes (.plan r) s fun t =>
      t.slcPlan = none ∧ SamePorts s t ∧ SameMemory s t ∧ SameHarts s t ∧ SameRegs (fun a => a < 0x800000 ∨ 0x808004 ≤ a) s t ∧
      (s.activeHdg ≠ none → t.slcStatus = 1 ∧ t.get R.HDG_CMD_STATUS = 1) ∧
      (s.activeHdg = none → t.slcStatus = 3 ∧ t.get R.SLC_PLAN_REASON = 10 ∧ t.get R.HDG_CMD_STATUS = 3)) ∧
  (∀ (s : State) (es cs : List Nat), s.slcStatus = 1 → es = mapEntries s.stagedMap → cs = mapEntries s.committedMap →
    (∀ reason, planChecks s.stagedMap es cs s = some reason →
      Completes .planComplete s fun t =>
        t.slcStatus = 3 ∧ t.get R.SLC_PLAN_REASON = reason ∧ t.get R.HDG_CMD_STATUS = 2 ∧
        t.get R.SLC_CNT_REJECTS = min (s.get R.SLC_CNT_REJECTS + 1) 65535 ∧ t.slcPlan = none ∧ SamePorts s t ∧ SameMemory s t) ∧
    (planChecks s.stagedMap es cs s = none → mapClash es = false →
      ((makePlan s.stagedMap es cs s).coll.any fun k => entKeep (es.getD k 0)) = false →
      Completes .planComplete s fun t =>
        t.slcStatus = 2 ∧ t.get R.HDG_CMD_STATUS = 2 ∧ SamePorts s t ∧ SameMemory s t ∧
        ∃ p : SlcPlan, t.slcPlan = some p ∧ p.words = s.stagedMap ∧
          (∀ m q : Nat, m < 16 → q < 32 → p.state m (144 + q) = (entAction (es.getD (16 * q + m) 0) != 0) ∧
            p.state m (176 + q) = !(expressTo es q m).isEmpty)) ∧
    (planChecks s.stagedMap es cs s = none → mapClash es = true → exec .planComplete s = .fault (.undefinedCase 2))) ∧
  (∀ (r : Requester) (s : State) (p : SlcPlan), Reaches r 0x808000 s → s.get R.HDG_CMD_STATUS ≠ 1 → s.slcPlan = some p → s.slcStatus = 2 →
    s.activeHdg ≠ none → (∀ m : Fin 16, s.get (R.HUB_PERMIT_HOLDER (58 + m.val)) = 0) → mapImmediate p.words = false →
    timeDiff s.time64 (mapActTime p.words) < 0 →
    Completes (.arm r) s fun t =>
      t.slcStatus = 4 ∧ t.get R.SLC_PLAN_REASON = 0 ∧ t.get R.HDG_CMD_STATUS = 2 ∧ t.slcPlan = some p ∧
      (∀ m ∈ p.planes s, t.get (R.HUB_PERMIT_HOLDER (58 + m)) = reqPath r * 256 + 9) ∧
      t.get R.HDG_CKPT_CKPT_SEQ = (s.get R.HDG_CKPT_CKPT_SEQ + 1) % 2 ^ 32 ∧ SamePorts s t ∧ SameMemory s t ∧ SameHarts s t) ∧
  (∀ (r : Requester) (s : State), Reaches r 0x808000 s → s.get R.HDG_CMD_STATUS ≠ 1 →
    (s.slcStatus = 4 →
      Completes (.disarm r) s fun t =>
        t.slcStatus = 2 ∧ t.get R.HDG_CMD_STATUS = 2 ∧ t.slcPlan = s.slcPlan ∧
        (∀ k : Fin 80, s.get (R.HUB_PERMIT_HOLDER k) % 256 = 9 → t.get (R.HUB_PERMIT_HOLDER k) = 0) ∧
        (∀ k : Fin 80, s.get (R.HUB_PERMIT_HOLDER k) % 256 ≠ 9 →
          t.get (R.HUB_PERMIT_HOLDER k) = s.get (R.HUB_PERMIT_HOLDER k)) ∧ SamePorts s t ∧ SameMemory s t ∧ SameHarts s t) ∧
    (s.slcStatus = 5 → exec (.disarm r) s = .next (s.set R.HDG_CMD_STATUS 4)) ∧
    (s.slcStatus = 2 ∨ s.slcStatus = 3 →
      Completes (.discard r) s fun t =>
        t.slcStatus = 0 ∧ t.slcPlan = none ∧ t.get R.HDG_CMD_STATUS = 2 ∧ SamePorts s t ∧ SameMemory s t ∧ SameHarts s t) ∧
    (s.slcPlan = none → exec (.arm r) s = .next (s.set R.HDG_CMD_STATUS 3)))

/-- The activation of an armed map. At its instant an armed map whose units are in service activates: the instant is recorded, its
outputs are shuttered, its epoch is in force, and every element is driven to the code of its planned state; the committed map is
still the old one. A map whose units are not in service is rejected, and its permits are free. At the commit the map, its
identifier and all element states are the new ones at once. At its end the outputs of the planes in service are open, and the
permits are free. A port that the activation disturbed trains again after it. (R241, R243, R244, R245, R249.) -/
def Obligations.Activation : Prop :=
  (∀ (s : State) (p : SlcPlan), s.slcPlan = some p → s.slcStatus = 4 → s.activeHdg ≠ none → s.actDue = false →
    0 ≤ timeDiff s.time64 (mapActTime p.words) →
    (unitChecks (mapEntries p.words) s = none →
      Completes .activation s fun t =>
        t.slcStatus = 5 ∧ t.slcPlan = some p ∧ t.get R.SLC_ACTTIME_START = s.time64 ∧
        t.get R.SLC_MAPID_MAP_ID = s.get R.SLC_MAPID_MAP_ID ∧ t.committedMap = s.committedMap ∧
        (∀ k ∈ p.shutters, k ∈ t.shuttered) ∧ (∀ k ∈ s.shuttered, k ∈ t.shuttered) ∧
        (mapEpoch p.words ≠ 0 → t.get R.LNK_EPOCH_EPOCH = mapEpoch p.words % 2 ^ 32) ∧
        (∀ m j : Nat, m < 16 → j < 208 → t.get (R.SLC_ELEM_CODE m j) = s.elemCode m j (p.state m j) ∧
          t.elemState m j = s.elemState m j) ∧ SameMemory s t ∧ SameHarts s t) ∧
    (∀ reason, unitChecks (mapEntries p.words) s = some reason →
      Completes .activation s fun t =>
        t.slcStatus = 3 ∧ t.get R.SLC_PLAN_REASON = reason ∧ t.get R.SLC_ACT_REFUSED = 1 ∧ t.slcPlan = none ∧
        (∀ k : Fin 80, s.get (R.HUB_PERMIT_HOLDER k) % 256 = 9 → t.get (R.HUB_PERMIT_HOLDER k) = 0) ∧
        t.shuttered = s.shuttered ∧ SamePorts s t ∧ SameMemory s t ∧ SameHarts s t)) ∧
  (∀ (s : State) (p : SlcPlan), s.slcPlan = some p → s.slcStatus = 5 →
    (s.get R.SLC_MAPID_MAP_ID ≠ mapId p.words →
      Completes .activationCommit s fun t =>
        t.get R.SLC_MAPID_MAP_ID = mapId p.words % 2 ^ 32 ∧
        (∀ i, i < 272 → t.get (R.SLC_COMMIT_WORD i) = p.words.getD i 0 % 2 ^ 32) ∧
        (∀ m j : Nat, m < 16 → j < 208 → t.elemState m j = p.state m j) ∧
        t.get R.SLC_CNT_ACTIVATIONS = (s.get R.SLC_CNT_ACTIVATIONS + 1) % 65536 ∧ t.slcStatus = 5 ∧ SamePorts s t ∧ SamePlan s t ∧
        SameMemory s t ∧ SameHarts s t) ∧
    (s.get R.SLC_MAPID_MAP_ID = mapId p.words →
      Completes .activationComplete s fun t =>
        t.slcStatus = 6 ∧ t.slcPlan = none ∧
        (∀ k ∈ p.shutters, nbit (s.get R.HUB_PLANE_MAP_PLANE_IN_SERVICE) (k % 16) = true → k ∉ t.shuttered) ∧
        (∀ k ∈ s.shuttered, k ∉ p.shutters → k ∈ t.shuttered) ∧
        (∀ k : Fin 80, s.get (R.HUB_PERMIT_HOLDER k) % 256 = 9 → t.get (R.HUB_PERMIT_HOLDER k) = 0) ∧ SamePorts s t ∧
        SameMemory s t ∧ SameHarts s t)) ∧
  (∀ (p : Port) (s : State), p.val ∈ s.relight → s.slcStatus ≠ 5 → s.ptState p = 4 → s.mayTrain p = true →
    Completes (.postRelightRetrain p) s fun t =>
      t.ptState p = 2 ∧ (t.port p).keep = true ∧ p.val ∉ t.relight ∧ OtherPorts p s t ∧ SameMemory s t ∧ SameHarts s t)

/-- The lease, failover, SWAP, RESYNC and the sill checker. SWAP passes the lease to a standby headgate. RESYNC of a faulty one
claims the permit of the headgates; passed, it is STANDBY, failed, FAULTY with an alert, and the permit is free. A renewal gives
the holder the whole lease again, and nothing without an active headgate. A lapse, a self-fault or a sill mismatch makes the
active headgate faulty: with an alert and one Logbook record the standby takes the lease and drives every element to the code of
its state; without a standby none holds it. The sill checker classifies every element of the planes in service. (R248, R249,
R250, R251, R252, R254, R255.) -/
def Obligations.Headgates : Prop :=
  (∀ (r : Requester) (g o : Nat) (s : State), Reaches r 0x808000 s → s.get R.HDG_CMD_STATUS ≠ 1 → (g = 0 ∧ o = 1 ∨ g = 1 ∧ o = 0) →
    s.hdg g = 1 → s.hdg o = 0 → s.slcStatus ≠ 1 → s.slcStatus ≠ 5 → s.get (R.HUB_PERMIT_HOLDER 74) = 0 →
    Completes (.swap (.reg r)) s fun t =>
      t.hdg o = 1 ∧ t.hdg g = 0 ∧ t.get R.HDG_LEASE_HOLDER = o + 1 ∧ t.get R.HDG_LEASE_REMAIN_US = 10000 ∧
      t.get R.HDG_FAIL_CAUSE = 4 ∧ t.get R.HDG_FAIL_FAILOVERS = (s.get R.HDG_FAIL_FAILOVERS + 1) % 65536 ∧
      t.get R.HDG_CMD_STATUS = 2 ∧ t.get (R.HUB_PERMIT_HOLDER 74) = 0 ∧ SamePorts s t ∧ SameMemory s t ∧ SameHarts s t) ∧
  (∀ (r : Requester) (g : Gate) (s : State), Reaches r 0x808000 s → s.get R.HDG_CMD_STATUS ≠ 1 →
    (s.hdg g = 2 → s.get (R.HUB_PERMIT_HOLDER 74) = 0 →
      Completes (.resync (.reg r) g) s fun t =>
        t.hdg g = 3 ∧ t.get R.HDG_CMD_STATUS = 1 ∧ t.get (R.HUB_PERMIT_HOLDER 74) = reqPath r * 256 + 8 ∧
        t.hdg (1 - g.val) = s.hdg (1 - g.val) ∧ SamePorts s t ∧ SamePlan s t ∧ SameMemory s t ∧ SameHarts s t) ∧
    (s.hdg g ≠ 2 → Completes (.resync (.reg r) g) s fun t =>
      t.get R.HDG_CMD_STATUS = 3 ∧ t.hdg 0 = s.hdg 0 ∧ t.hdg 1 = s.hdg 1 ∧ SameRegs (· ≠ 0x808000) s t)) ∧
  (∀ (g o : Nat) (s : State), (g = 0 ∧ o = 1 ∨ g = 1 ∧ o = 0) → s.hdg g = 3 → s.hdg o = 1 →
    Completes (.resyncComplete true) s (fun t =>
      t.hdg g = 0 ∧ t.hdg o = 1 ∧ t.get R.HDG_CMD_STATUS = 2 ∧ t.get (R.HUB_PERMIT_HOLDER 74) = 0 ∧ SamePlan s t ∧ SameMemory s t) ∧
    Completes (.resyncComplete false) s fun t =>
      t.hdg g = 2 ∧ t.hdg o = 1 ∧ t.get R.HDG_CMD_STATUS = 5 ∧ t.get (R.HUB_PERMIT_HOLDER 74) = 0 ∧ t.bit (alertFld 4) = true ∧
      SamePlan s t ∧ SameMemory s t) ∧
  (∀ s : State, (s.activeHdg ≠ none → Completes .leaseRenewal s fun t =>
      t.get R.HDG_LEASE_REMAIN_US = 10000 ∧ t.get R.HDG_LEASE_RENEWALS = (s.get R.HDG_LEASE_RENEWALS + 1) % 65536 ∧
      SameRegs (· ≠ 0x808008) s t ∧ SamePlan s t ∧ SameMemory s t) ∧
    (s.activeHdg ≠ none → Completes .heaterCodeUpdate s fun t =>
      (∀ m j : Nat, m < 16 → j < 208 → t.get (R.SLC_ELEM_CODE m j) = s.elemCode m j (s.driveState m j) ∧
        t.elemState m j = s.elemState m j) ∧
      SameRegs (fun a => a < 0x804000 ∨ 0x808000 ≤ a) s t ∧ SamePlan s t ∧ SameMemory s t ∧ SameHarts s t) ∧
    (s.activeHdg = none → exec .leaseRenewal s = .next s ∧ exec .heaterCodeUpdate s = .next s)) ∧
  (∀ (g o : Nat) (s : State) (self : Bool), (g = 0 ∧ o = 1 ∨ g = 1 ∧ o = 0) → s.hdg g = 1 → s.hdg o ≠ 1 → s.slcStatus ≠ 4 → LogOpen s →
    Completes (if self then .headgateSelfFault else .leaseLapse) s fun t =>
      t.hdg g = 2 ∧ t.get R.HDG_FAIL_CAUSE = (if self then 3 else 2) ∧
      t.get R.HDG_FAIL_FAILOVERS = (s.get R.HDG_FAIL_FAILOVERS + 1) % 65536 ∧ t.bit (alertFld 4) = true ∧
      (∃ v : Nat, Logged (8 + 256 * g) 0x0600 (leBytes 1 (if self then 3 else 2) ++ leBytes 2 v) s t) ∧
      (s.hdg o = 0 → t.hdg o = 1 ∧ t.get R.HDG_LEASE_HOLDER = o + 1 ∧ t.get R.HDG_LEASE_REMAIN_US = 10000 ∧
        t.get R.HDG_STAT_NONE = 0 ∧
        ∀ m j : Nat, m < 16 → j < 208 → t.get (R.SLC_ELEM_CODE m j) = s.elemCode m j (s.driveState m j)) ∧
      (s.hdg o ≠ 0 → t.hdg o = s.hdg o ∧ t.get R.HDG_LEASE_HOLDER = 0 ∧ t.get R.HDG_STAT_NONE = 1) ∧
      t.committedMap = s.committedMap ∧ SamePorts s t ∧ SameMemory s t ∧ SameHarts s t) ∧
  (∀ s : State, (∀ m j : Nat, m < 16 → j < 208 → nbit (s.get R.HUB_PLANE_MAP_PLANE_IN_SERVICE) m = true →
      s.get (R.SLC_ELEM_SILL m j) = s.sillClass m j (s.get (R.SLC_ELEM_CODE m j))) →
    (s.sillPlanes.findSome? (fun m => (planeMismatch s (mapEntries s.committedMap) m).map fun j => (m, j)) = none →
      Completes (.sillScan []) s fun t =>
        t.get R.HDG_SILLSCAN_SCANS = (s.get R.HDG_SILLSCAN_SCANS + 1) % 2 ^ 32 ∧ SameRegs (· ≠ 0x808018) s t ∧ SamePlan s t ∧
        SameMemory s t ∧ SameHarts s t) ∧
    (∀ m j : Nat, m < 16 → j < 208 →
      s.sillPlanes.findSome? (fun m => (planeMismatch s (mapEntries s.committedMap) m).map fun j => (m, j)) = some (m, j) →
      s.hdg 0 = 1 → s.hdg 1 = 0 → s.slcStatus ≠ 4 →
      Completes (.sillScan []) s fun t =>
        t.get R.HDG_SILL_PLANE = m ∧ t.get R.HDG_SILL_ELEM = j ∧
        t.get R.HDG_SILL_MISMATCHES = min (s.get R.HDG_SILL_MISMATCHES + 1) 65535 ∧ t.hdg 0 = 2 ∧ t.hdg 1 = 1 ∧
        t.get R.HDG_FAIL_CAUSE = 1 ∧ SameMemory s t ∧ SameHarts s t))

/-- What a failing laser does, and how its spare takes over. A laser that fails while its spare is WARM is FAILED and raises an
alert; its ports fall, its engines acquire again, and the spare is LIGHTING: the takeover is counted. Without a spare its two
engines are marked out. A selector that does not light in time gives the takeover up: the spare is WARM again and the engines
are marked out. When light returns the spare serves the feeds; once every ring is locked the takeover ends with its outage
recorded and logged. A laser that a power domain brought up serves the feeds it served. (R31, R39, R262, R263, R264, R408.) -/
def Obligations.LaserFailures : Prop :=
  (∀ (j : Fin 8) (s : State), s.las j = 3 → s.get (R.LAS_STAT_SERVES j) = j.val → s.takeovers.find? (fun x => x.1 == j.val / 4) = none →
    (∀ e, e / 2 = j.val → (s.eng e).queue = [] ∧ (s.eng e).running = false) →
    (s.las (8 + j.val / 4) = 1 →
      Completes (.laserFailure (j.castLE (by decide))) s fun t =>
        t.las j = 4 ∧ nbit (t.get R.HUB_LASER_MAP_LASER_FAILED) j = true ∧ nbit (t.get R.HUB_LASER_MAP_LASER_LIT) j = false ∧
        t.las (8 + j.val / 4) = 2 ∧ t.bit (alertFld 1) = true ∧
        t.get R.LAS_CNT_TAKEOVERS = (s.get R.LAS_CNT_TAKEOVERS + 1) % 256 ∧
        t.takeovers.find? (fun x => x.1 == j.val / 4) = some (j.val / 4, ⟨j, 0, s.time64, none⟩) ∧
        (∀ e : Sys2Proof.Eng, e.val / 2 = j.val → s.engServing e = true → t.engState e = 1) ∧
        (∀ p : Port, p.val / 4 = j.val → s.ptState p = 4 → t.ptState p = 1) ∧ SameMemory s t ∧ SameHarts s t) ∧
    (s.las (8 + j.val / 4) ≠ 1 →
      Completes (.laserFailure (j.castLE (by decide))) s fun t =>
        t.las j = 4 ∧ t.bit (alertFld 1) = true ∧ (∀ e : Sys2Proof.Eng, e.val / 2 = j.val → t.engMarked e = true) ∧
        (∀ p : Port, p.val / 4 = j.val → s.ptState p = 4 → t.ptState p = 1) ∧ SameMemory s t ∧ SameHarts s t)) ∧
  (∀ (b : Bank) (s : State) (x : Takeover), s.takeovers.find? (fun x => x.1 == b.val) = some (b.val, x) → x.litAt = none → x.laser < 8 →
    (∀ e, e / 2 = x.laser → (s.eng e).queue = [] ∧ (s.eng e).running = false) →
    Completes (.selectorTimeout b) s (fun t =>
      t.las (x.incoming b) = 1 ∧ t.takeovers.find? (fun x => x.1 == b.val) = none ∧
      (∀ e : Sys2Proof.Eng, e.val / 2 = x.laser → t.engMarked e = true) ∧ SameMemory s t ∧ SameHarts s t) ∧
    (s.feedLocked x.laser = false →
      Completes (.spareLit b) s fun t =>
        t.las (x.incoming b) = 3 ∧ t.get (R.LAS_STAT_SERVES (x.incoming b)) = x.laser ∧
        t.takeovers.find? (fun x => x.1 == b.val) = some (b.val, { x with litAt := some s.time64 }) ∧ SameMemory s t ∧ SameHarts s t) ∧
    (s.feedLocked x.laser = true → x.planned = 0 → LogOpen s →
      Completes (.spareLit b) s fun t =>
        t.las (8 + b.val) = 3 ∧ t.takeovers.find? (fun x => x.1 == b.val) = none ∧ t.get R.LAS_TAKEOVER_FAILED = x.laser ∧
        t.get R.LAS_TAKEOVER_SPARE = 8 + b.val ∧
        t.get R.LAS_TAKEOVER_OUTAGE_US = min ((timeDiff s.time64 x.start).toNat * 1000000 / 2 ^ 32) 16383 ∧
        Logged (9 + 256 * (8 + b.val)) 0x0300 (leBytes 1 x.laser ++ leBytes 1 (8 + b.val) ++
          leBytes 2 (min ((timeDiff s.time64 x.start).toNat * 1000000 / 2 ^ 32) 16383)) s t ∧ SameMemory s t ∧ SameHarts s t)) ∧
  (∀ (j : Laser) (f : Nat) (s : State), s.lasTarget.find? (fun x => x.1 == j.val) = some (j.val, f) → f < 16 → s.las j = 2 →
    Completes (.laserBringUpComplete j) s fun t =>
      t.las j = 3 ∧ t.get (R.LAS_STAT_SERVES j) = f ∧ t.lasTarget.find? (fun x => x.1 == j.val) = none ∧ SameRings s t ∧ SameMemory s t ∧
      SameHarts s t)

/-- SWAP_TO_SPARE, RETURN, SPARE_TEST and VERIFY_LASER. With its permits free, a planned swap of a laser that serves its own feeds
makes it WARM and its spare LIGHTING, and RETURN the other way round; both hold the permits of Table 10.5 while BUSY. A permit
that is held, or a laser in another state, refuses the command and changes no laser. SPARE_TEST lights a WARM spare; when it
passes, the spare is WARM, when it fails, FAILED and counted, and the permit is free. VERIFY_LASER of a lit laser runs for 16
slots; of another it is refused. (R259, R261, R265, R282, R353.) -/
def Obligations.LaserCommands : Prop :=
  (∀ (r : Requester) (j : Fin 8) (s : State), Reaches r 0x880040 s → s.get R.LAS_CMD_STATUS ≠ 1 →
    (∀ e, e / 2 = j.val → (s.eng e).queue = [] ∧ (s.eng e).running = false) →
    (s.las (8 + j.val / 4) = 1 → s.las j = 3 → s.get (R.LAS_STAT_SERVES j) = j.val →
      (∀ k ∈ swapPermits j, s.get (R.HUB_PERMIT_HOLDER k) = 0) →
      Completes (.swapToSpare (.reg r) (j.castLE (by decide))) s fun t =>
        t.las j = 1 ∧ t.las (8 + j.val / 4) = 2 ∧ t.get R.LAS_CMD_STATUS = 1 ∧
        (∀ k ∈ swapPermits j, t.get (R.HUB_PERMIT_HOLDER k) = reqPath r * 256 + 3) ∧
        t.takeovers.find? (fun x => x.1 == j.val / 4) = some (j.val / 4, ⟨j, 1, s.time64, none⟩) ∧ SameMemory s t ∧ SameHarts s t) ∧
    (s.las j = 1 → s.las (8 + j.val / 4) = 3 → s.get (R.LAS_STAT_SERVES (8 + j.val / 4)) = j.val →
      (∀ k ∈ swapPermits j, s.get (R.HUB_PERMIT_HOLDER k) = 0) →
      Completes (.laserReturn (.reg r) (j.castLE (by decide))) s fun t =>
        t.las (8 + j.val / 4) = 1 ∧ t.las j = 2 ∧ t.get R.LAS_CMD_STATUS = 1 ∧
        (∀ k ∈ swapPermits j, t.get (R.HUB_PERMIT_HOLDER k) = reqPath r * 256 + 3) ∧
        t.takeovers.find? (fun x => x.1 == j.val / 4) = some (j.val / 4, ⟨j, 2, s.time64, none⟩) ∧ SameMemory s t ∧ SameHarts s t) ∧
    (s.las j ≠ 3 ∨ (∃ k ∈ swapPermits j, s.get (R.HUB_PERMIT_HOLDER k) ≠ 0) →
      Completes (.swapToSpare (.reg r) (j.castLE (by decide))) s fun t =>
        t.get R.LAS_CMD_STATUS = 3 ∧ SameRegs (· ≠ 0x880040) s t ∧ SameRings s t ∧ SameMemory s t ∧ SameHarts s t)) ∧
  (∀ (r : Requester) (b : Bank) (s : State), Reaches r 0x880040 s → s.get R.LAS_CMD_STATUS ≠ 1 → s.las (8 + b.val) = 1 →
    s.get (R.HUB_PERMIT_HOLDER (56 + b.val)) = 0 →
    Completes (.spareTest (.reg r) ⟨8 + b.val, by omega⟩) s fun t =>
      t.las (8 + b.val) = 2 ∧ t.get R.LAS_CMD_STATUS = 1 ∧ t.get (R.HUB_PERMIT_HOLDER (56 + b.val)) = reqPath r * 256 + 4 ∧
      SameRings s t ∧ SamePorts s t ∧ SameMemory s t ∧ SameHarts s t) ∧
  (∀ (b : Bank) (s : State), s.spareTesting b = true →
    Completes (.spareTestComplete b true) s (fun t =>
      t.las (8 + b.val) = 1 ∧ t.get R.LAS_CMD_STATUS = 2 ∧
      (∀ k : Fin 80, s.get (R.HUB_PERMIT_HOLDER k) % 256 = 4 → t.get (R.HUB_PERMIT_HOLDER k) = 0) ∧
      SameRings s t ∧ SamePorts s t ∧ SameMemory s t ∧ SameHarts s t) ∧
    Completes (.spareTestComplete b false) s fun t =>
      t.las (8 + b.val) = 4 ∧ t.get R.LAS_CMD_STATUS = 4 ∧ t.get R.LAS_CNT_TEST_FAILS = (s.get R.LAS_CNT_TEST_FAILS + 1) % 256 ∧
      (∀ k : Fin 80, s.get (R.HUB_PERMIT_HOLDER k) % 256 = 4 → t.get (R.HUB_PERMIT_HOLDER k) = 0) ∧ t.bit (alertFld 1) = true ∧
      SameMemory s t ∧ SameHarts s t) ∧
  (∀ (r : Requester) (j : Laser) (s : State), Reaches r 0x890200 s → s.get R.LPE_VERIFY_STATUS ≠ 1 →
    Completes (.verifyLaser (.reg r) j) s fun t =>
      t.get R.LPE_VERIFY_STATUS = (if s.las j = 3 then 1 else 3) ∧ (s.las j = 3 → t.verifyLeft = 16) ∧
      (s.las j ≠ 3 → t.verifyLeft = s.verifyLeft) ∧ SameRegs (· ≠ 0x890200) s t ∧ SameRings s t ∧ SameMemory s t ∧ SameHarts s t)

/-- The compensator, hold, loss, recapture and shutters of a ring. A sample of a LOCKED ring whose error is within the threshold
moves its heater code to what the compensator gives, rounded once and saturated. The sample that completes LOSS_N errors in a
row above the threshold loses the ring; a dark line makes it hold its code. APPLY marks the shadow set for the next sample. A
recapture that does not lock in time loses the ring. A shutter saves the code and detunes by the steps towards the nearer end;
opened, the ring starts again from its saved code. A loop engine that stops takes its two engines out, or fails every line of
its eight ports. (R266, R267, R268, R270, R271, R272, R273, R274.) -/
def Obligations.RingLoops : Prop :=
  (∀ (r : Ring) (adc refv : BitVec 12) (s : State) (l : Loop) (e v : Int) (c : Coefs), l = s.loop (ringId r) → l.st = 2 → l.apply = false →
    s.bit (R.LPE_ENG_STOPPED (ringEngine (ringId r))) = false →
    e = errSample (l.polarity (ringId r)) adc.toNat (if ringClass (ringId r) = 5 then refv.toNat else l.setpoint) →
    c = l.activeSet (ringId r) → e.natAbs ≤ s.get (R.LPE_CLASS_LOSS_THR (ringClass (ringId r))) →
    v = max (-32768) (min 32767 (divRne ((toSigned 16 c.b0 * (e * 8) + toSigned 16 c.b1 * l.x.getD 0 0 + toSigned 16 c.b2 * l.x.getD 1 0 +
      toSigned 16 c.a1 * l.v.getD 0 0 + toSigned 16 c.a2 * l.v.getD 1 0 +
      (if c.form = 1 then toSigned 16 c.b3 * l.x.getD 2 0 + toSigned 16 c.a3 * l.v.getD 2 0 else 0)) * 2 ^ c.shift) 32768)) →
    -32768 < v → v < 32767 →
    Completes (.loopSample r adc refv false) s fun t =>
      (t.loop (ringId r)).code = (v + 32768).toNat ∧ (t.loop (ringId r)).st = 2 ∧ (t.loop (ringId r)).err = e ∧
      (t.loop (ringId r)).overRun = 0 ∧ (∀ i, i ≠ ringId r → t.loop i = s.loop i) ∧ SameMemory s t ∧ SameHarts s t) ∧
  (∀ (r : Ring) (adc refv : BitVec 12) (s : State) (l : Loop), l = s.loop (ringId r) → l.st = 2 → l.apply = false → l.verify = false →
    s.bit (R.LPE_ENG_STOPPED (ringEngine (ringId r))) = false →
    s.get (R.LPE_CLASS_LOSS_THR (ringClass (ringId r))) <
      (errSample (l.polarity (ringId r)) adc.toNat (if ringClass (ringId r) = 5 then refv.toNat else l.setpoint)).natAbs →
    s.get (R.LPE_CLASS_LOSS_N (ringClass (ringId r))) ≤ l.overRun + 1 →
    (∀ e, 32 + e = ringUser (ringId r) → (s.eng e).queue = [] ∧ (s.eng e).running = false) →
    Completes (.loopSample r adc refv false) s fun t =>
      (t.loop (ringId r)).st = 6 ∧ t.get R.LPE_CNT_LOST = min (s.get R.LPE_CNT_LOST + 1) 65535 ∧ SameMemory s t ∧ SameHarts s t) ∧
  (∀ (r : Ring) (adc refv : BitVec 12) (s : State) (l : Loop), l = s.loop (ringId r) → l.st = 2 → l.apply = false →
    s.bit (R.LPE_ENG_STOPPED (ringEngine (ringId r))) = false →
    Completes (.loopSample r adc refv true) s fun t =>
      (t.loop (ringId r)).st = 3 ∧ (t.loop (ringId r)).code = l.code ∧ SameMemory s t ∧ SameHarts s t) ∧
  (∀ (q : Requester) (r : Ring) (s : State), Reaches q (0x100000C + 32 * ringId r) s →
    Completes (.loopApply q r) s fun t =>
      t.loop (ringId r) = { s.loop (ringId r) with apply := true } ∧ (∀ i, i ≠ ringId r → t.loop i = s.loop i) ∧ SameMemory s t ∧
      SameHarts s t) ∧
  (∀ (r : Ring) (s : State), (s.loop (ringId r)).st = 5 →
    (∀ e, 32 + e = ringUser (ringId r) → (s.eng e).queue = [] ∧ (s.eng e).running = false) →
    Completes (.recaptureTimeout r) s fun t =>
      (t.loop (ringId r)).st = 6 ∧ t.get R.LPE_CNT_LOST = min (s.get R.LPE_CNT_LOST + 1) 65535 ∧ SameMemory s t ∧ SameHarts s t) ∧
  (∀ (p : Port) (l : Line) (steps : BitVec 16) (s : State) (id : Nat), id = ringId (.link 3 p l) → (s.loop id).st = 2 →
    Completes (.shutterClose p l steps) s fun t =>
      (t.loop id).st = 4 ∧ (t.loop id).saved = some (s.loop id).code ∧
      (t.loop id).code = (if (s.loop id).code < 32768 then (s.loop id).code - steps.toNat
        else min 65535 ((s.loop id).code + steps.toNat)) ∧
      (∀ i, i ≠ id → t.loop i = s.loop i) ∧ t.regs = s.regs ∧ SameMemory s t ∧ SameHarts s t) ∧
  (∀ (p : Port) (l : Line) (s : State) (id c : Nat), id = ringId (.link 3 p l) → (s.loop id).st = 4 → (s.loop id).saved = some c →
    Completes (.shutterOpen p l) s fun t =>
      (t.loop id).st = 5 ∧ (t.loop id).code = c ∧ (t.loop id).saved = none ∧ (∀ i, i ≠ id → t.loop i = s.loop i) ∧
      t.regs = s.regs ∧ SameMemory s t ∧ SameHarts s t) ∧
  (∀ (n : Fin 8) (s : State), (∀ e, e / 2 = n.val → (s.eng e).queue = [] ∧ (s.eng e).running = false) →
    Completes (.loopEngineStop (n.castLE (by decide))) s fun t =>
      t.get (R.LPE_ENG_STOPPED n) = 1 ∧ (∀ e : Sys2Proof.Eng, e.val / 2 = n.val → t.engMarked e = true) ∧ SameMemory s t ∧
      SameHarts s t) ∧
  (∀ (n : Fin 4) (s : State),
    Completes (.loopEngineStop ⟨8 + n.val, by omega⟩) s fun t =>
      t.get (R.LPE_ENG_STOPPED (8 + n.val)) = 1 ∧
      (∀ (p : Port) (l : Line), p.val / 8 = n.val → nbit (t.get (R.LNK_LINES_FAILED p)) l = true) ∧ SameMemory s t ∧ SameHarts s t)

/-- Acquiring and verifying rings. Of a chain with one ring to acquire, a sweep that assigns a resonance to its line locks the ring
at that resonance and half its depth; one that assigns none counts as a failed acquisition. A verification that succeeds leaves
no ring of the chain to be verified. A verification slot that finds the tone of another line on a verified ring takes the ring
out as WRONG_LINE; a slot of line 15 ends a cycle of the pilot, and the last slot of VERIFY_LASER is its end. (R275, R277, R278,
R279, R280, R282.) -/
def Obligations.Acquisition : Prop :=
  (∀ (ch : Chain) (sw : List RingSweep) (s : State) (k id : Nat), k < 16 → (chainRings ch).getD k 0 = id → (s.loop id).st = 1 →
    (∀ i ∈ chainRings ch, i ≠ id → (s.loop i).st = 2) →
    s.bit (R.LPE_ENG_STOPPED (ringEngine ((chainRings ch).headD 0))) = false →
    (∀ (w : RingSweep) (x : Resonance), sw[k]? = some w → assigned k w = some x → (s.loop id).shutter = none →
      Completes (.acquireChain ch sw) s fun t =>
        (t.loop id).st = 2 ∧ (t.loop id).code = x.code.toNat ∧ (t.loop id).acqCode = x.code.toNat ∧
        (t.loop id).setpoint = x.halfDepth.toNat ∧ (t.loop id).verify = true ∧ (∀ i, i ≠ id → t.loop i = s.loop i) ∧ SameMemory s t ∧
        SameHarts s t) ∧
    ((∀ w, sw[k]? = some w → assigned k w = none) → tget 0 s.ringFails id < 2 →
      Completes (.acquireChain ch sw) s fun t =>
        (∀ i, t.loop i = s.loop i) ∧ tget 0 t.ringFails id = tget 0 s.ringFails id + 1 ∧
        t.get R.LPE_CNT2_ACQ_FAIL = min (s.get R.LPE_CNT2_ACQ_FAIL + 1) 4095 ∧ SameMemory s t ∧ SameHarts s t)) ∧
  (∀ (ch : Chain) (s : State), (∀ e, (s.eng e).queue = [] ∧ (s.eng e).running = false) →
    Completes (.acquisitionComplete ch true) s fun t =>
      (∀ i ∈ chainRings ch, (t.loop i).verify = false ∧ ((s.loop i).verify = true → (t.loop i).wrong = false)) ∧ SameMemory s t ∧
      SameHarts s t) ∧
  (∀ (l : Line) (r : Ring) (d : Nat) (s : State), ringLine (ringId r) ≠ l.val → 2000 ≤ d → s.maybeScored (ringId r) = true →
    s.farLight (ringId r) = false → (s.loop (ringId r)).verify = false → s.verifyLeft = 0 →
    (∀ e, 32 + e = ringUser (ringId r) → (s.eng e).queue = [] ∧ (s.eng e).running = false) →
    Completes (.verificationSlot l [(r, d)]) s fun t =>
      (t.loop (ringId r)).st = 6 ∧ (t.loop (ringId r)).wrong = true ∧
      t.get R.LPE_CNT_WRONG_LINE = min (s.get R.LPE_CNT_WRONG_LINE + 1) 65535 ∧ SameMemory s t ∧ SameHarts s t) ∧
  (∀ (l : Line) (s : State), 0 < s.verifyLeft →
    Completes (.verificationSlot l []) s fun t =>
      t.verifyLeft = s.verifyLeft - 1 ∧
      t.get R.LPE_VERIFY_STATUS = (if s.verifyLeft = 1 then 2 else s.get R.LPE_VERIFY_STATUS) ∧
      t.get R.LPE_PILOT_CYCLES = (if l.val = 15 then (s.get R.LPE_PILOT_CYCLES + 1) % 65536 else s.get R.LPE_PILOT_CYCLES) ∧
      t.loops = s.loops ∧ SameRegs (fun a => a ≠ 0x890200 ∧ a ≠ 0x89020C ∧ a ≠ 0x890208) s t ∧ SameMemory s t ∧ SameHarts s t)

/-- Asking for a calibration, and how it comes to run. A request for an idle unit that can be measured, with its permits free, joins
the queue with its arguments and holds the permits of its unit; an unknown unit is refused with reason 5, a unit that is not
idle with reason 1. ABORT of a queued request ends it ABORTED and frees its permits; of a RUNNING one it is too late; of none it
is refused with reason 6. Taken, a request in DRAIN waits for the tiles its engines hold; when its unit is ready it is RUNNING
and its unit is interrupted; at the time limit it ends TIMEOUT and frees its permits. (R287, R288, R289, R290, R353.) -/
def Obligations.CalibrationRequests : Prop :=
  (∀ (r : Requester) (a : CalArg) (s : State) (u : Nat), Reaches r 0x8C0000 s → s.get R.SCB_CMD_STATUS ≠ 1 → u = s.get R.SCB_ARG_UNIT →
    (u ≤ 73 → s.scbState u = 0 → scbAvail u s = true → (u < 32 → s.termMask u = 0xFFFF) → s.scbQueue.length < 16 →
      (∀ k ∈ scbPermits u s, s.get (R.HUB_PERMIT_HOLDER k) = 0) → s.bit R.SCB_ARG_TIMED = false →
      Completes (.calibrate (.reg r) a) s fun t =>
        t.scbState u = 1 ∧ t.get R.SCB_CMD_STATUS = 2 ∧ t.get R.SCB_STAT_QDEPTH = s.scbQueue.length + 1 ∧
        (∃ q : ScbReq, t.scbQueue = s.scbQueue ++ [q] ∧ q.unit = u ∧ q.force = s.bit R.SCB_ARG_FORCE ∧ q.timed = false ∧
          q.timeoutMs = (if s.get R.SCB_ARG_TIMEOUT_MS = 0 then 100 else s.get R.SCB_ARG_TIMEOUT_MS) ∧ q.res = scbPermits u s) ∧
        (∀ k ∈ scbPermits u s, t.get (R.HUB_PERMIT_HOLDER k) = reqPath r * 256 + 2) ∧ t.scbRun = s.scbRun ∧ t.engs = s.engs ∧
        SamePorts s t ∧ SameRings s t ∧ SameMemory s t ∧ SameHarts s t) ∧
    (73 < u ∨ s.scbState u ≠ 0 →
      Completes (.calibrate (.reg r) a) s fun t =>
        t.get R.SCB_CMD_STATUS = 3 ∧ t.get R.SCB_CMD_REASON = (if 73 < u then 5 else 1) ∧ SameRegs (· ≠ 0x8C0000) s t ∧
        SameCal s t ∧ SameMemory s t)) ∧
  (∀ (r : Requester) (b : Byte) (s : State) (u : Nat) (q : ScbReq), Reaches r 0x8C0000 s → s.get R.SCB_CMD_STATUS ≠ 1 →
    u = s.get R.SCB_ARG_UNIT → u ≤ 73 → (∀ k ∈ q.res, k < 80) →
    (s.scbQueue = [q] → q.unit = u →
      Completes (.abort (.reg r) b) s fun t =>
        t.scbQueue = [] ∧ t.scbState u = 0 ∧ t.get (R.SCB_UNIT_RESULT u) = 5 ∧ t.get R.SCB_CMD_STATUS = 2 ∧
        t.get R.SCB_CNT_ABORTS = min (s.get R.SCB_CNT_ABORTS + 1) 65535 ∧ (∀ k ∈ q.res, t.get (R.HUB_PERMIT_HOLDER k) = 0) ∧
        t.scbRun = s.scbRun ∧ SamePorts s t ∧ SameMemory s t ∧ SameHarts s t) ∧
    (s.scbQueue = [] → s.scbRun = some q → q.unit = u → s.scbState u = 3 →
      exec (.abort (.reg r) b) s = .next (s.set R.SCB_CMD_STATUS 4)) ∧
    (s.scbQueue = [] → s.scbRun = none →
      exec (.abort (.reg r) b) s = .next ((s.set R.SCB_CMD_STATUS 3).set R.SCB_CMD_REASON 6))) ∧
  (∀ (s : State) (q : ScbReq), s.scbRun = none → s.scbQueue = [q] → q.timed = false → q.force = false → q.unit ≤ 73 →
    Completes .calibrationTaken s fun t =>
      t.scbQueue = [] ∧ t.scbRun = some q ∧ t.scbState q.unit = 2 ∧ t.get R.SCB_STAT_RUN_VALID = 1 ∧ t.get R.SCB_STAT_RUN_UNIT = q.unit ∧
      t.get R.SCB_STAT_QDEPTH = 0 ∧ (∀ e ∈ q.engines, (t.eng e).drain = some ((s.eng e).queue.map Tile.id) ∧
        (t.eng e).queue = (s.eng e).queue ∧ t.engState e = s.engState e) ∧ SamePorts s t ∧ SameMemory s t ∧ SameHarts s t) ∧
  (∀ (s : State) (q : ScbReq), s.scbRun = some q → s.scbState q.unit = 2 → q.force = false → q.unit ≤ 73 →
    (∀ k ∈ q.res, k < 80) →
    (q.ready s = true → s.scbQueue = [] → ¬(48 ≤ q.unit ∧ q.unit < 58) →
      Completes .drainReady s fun t =>
        t.scbState q.unit = 3 ∧ (∃ x : ScbReq, t.scbRun = some x ∧ x.unit = q.unit ∧ x.res = q.res) ∧
        (q.unit < 32 → s.ptState q.unit = 4 → t.ptState q.unit = 1) ∧
        (32 ≤ q.unit → q.unit < 48 → t.engState (q.unit - 32) = 5) ∧
        (58 ≤ q.unit → nbit (t.get R.HUB_PLANE_MAP_PLANE_IN_SERVICE) (q.unit - 58) = false) ∧ SameMemory s t ∧ SameHarts s t) ∧
    (q.ready s = false →
      Completes .drainTimeout s fun t =>
        t.scbRun = none ∧ t.scbState q.unit = 0 ∧ t.get (R.SCB_UNIT_RESULT q.unit) = 4 ∧
        t.get R.SCB_CNT_ABORTS = min (s.get R.SCB_CNT_ABORTS + 1) 65535 ∧ (∀ k ∈ q.res, t.get (R.HUB_PERMIT_HOLDER k) = 0) ∧
        t.calPts = s.calPts ∧ t.calSmall = s.calSmall ∧ SamePorts s t ∧ SameMemory s t ∧ SameHarts s t))

/-- What the end of a calibration leaves. A result that fails a check changes no value: its unit is idle with the result and the
number of the first check that fails, the failure is counted, and an alert is raised. One that passes every check is counted
with its time, and its permits are free; written to NVM or, failing that, marked NOT_STORED with an alert. A LASER result in
range is the mean of its runs, with the runs, the REF power and the temperature. A set is rebuilt for the present temperature
once that has moved by 0.5 °C, and not before. (R284, R291, R292, R298, R299, R300, R301.) -/
def Obligations.CalibrationResults : Prop :=
  (∀ (m : CalMeasure) (stored : Bool) (s : State) (q : ScbReq) (cs : List CalCheck), s.scbRun = some q → s.scbState q.unit = 3 →
    q.unit ≤ 73 → (∀ k ∈ q.res, k < 80) → (∀ e, 32 + e = q.unit → (s.eng e).queue = [] ∧ (s.eng e).running = false) →
    scbChecks q.unit m s = some cs →
    (∀ (c : CalCheck) (v : Int), cs.findSome? (fun c => c.bad.map fun v => (c, v)) = some (c, v) →
      Completes (.calibrationComplete m stored) s fun t =>
        t.scbRun = none ∧ t.scbState q.unit = 0 ∧ t.get (R.SCB_UNIT_RESULT q.unit) = c.result % 16 ∧
        t.get (R.SCB_UNIT_LIMIT q.unit) = c.num % 16 ∧
        t.get (R.SCB_UNIT_FAILS q.unit) = (s.get (R.SCB_UNIT_FAILS q.unit) + 1) % 2 ^ 32 ∧
        t.get (R.SCB_UNIT_COUNT q.unit) = s.get (R.SCB_UNIT_COUNT q.unit) ∧ t.bit (alertFld 10) = true ∧
        (∀ k ∈ q.res, t.get (R.HUB_PERMIT_HOLDER k) = 0) ∧
        t.calPts = s.calPts ∧ t.calMask = s.calMask ∧ t.calSmall = s.calSmall ∧ t.nvmPts = s.nvmPts ∧ t.nvmSmall = s.nvmSmall ∧
        t.nvmInfo = s.nvmInfo ∧ SameHarts s t) ∧
    (cs.findSome? (fun c => c.bad.map fun v => (c, v)) = none → ¬(32 ≤ q.unit ∧ q.unit < 48) →
      Completes (.calibrationComplete m stored) s fun t =>
        t.scbRun = none ∧ t.scbState q.unit = 0 ∧ t.get (R.SCB_UNIT_RESULT q.unit) = 1 ∧ t.get (R.SCB_UNIT_LIMIT q.unit) = 0 ∧
        t.get (R.SCB_UNIT_COUNT q.unit) = (s.get (R.SCB_UNIT_COUNT q.unit) + 1) % 2 ^ 32 ∧
        t.get (R.SCB_UNIT_LAST q.unit) = s.time64 ∧ t.get (R.SCB_UNIT_MISSING q.unit) = 0 ∧
        t.get (R.SCB_UNIT_NOT_STORED q.unit) = (if stored then 0 else 1) ∧ (stored = false → t.bit (alertFld 7) = true ∧
          t.nvmSmall = s.nvmSmall ∧ t.nvmInfo = s.nvmInfo) ∧
        (∀ k ∈ q.res, t.get (R.HUB_PERMIT_HOLDER k) = 0) ∧ SamePorts s t ∧ SameMemory s t ∧ SameHarts s t)) ∧
  (∀ (j : Laser) (r1 r2 pwr temp : Int) (s : State) (q : ScbReq), s.scbRun = some q → q.unit = 48 + j.val → s.scbState q.unit = 3 →
    (r1 - r2).natAbs ≤ 800000 → (r1 + r2 - 2 * s.small 0 j 0).natAbs ≤ 2400000 → trising s.calSmall = true →
    Completes (.calibrationComplete (.laser true r1 r2 pwr temp) true) s fun t =>
      t.small 0 j 0 = divRne (r1 + r2) 2 ∧ t.small 0 j 1 = r1 ∧ t.small 0 j 2 = r2 ∧ t.small 0 j 3 = pwr ∧ t.small 0 j 4 = temp ∧
      (∀ k u f : Nat, k ≠ 0 ∨ u ≠ j.val → u < 128 → f < 65536 → t.small k u f = s.small k u f) ∧
      (∀ f, f < 5 → tget 0 t.nvmSmall (smallKey 0 j f) = t.small 0 j f) ∧ t.calPts = s.calPts ∧ SamePorts s t ∧ SameMemory s t ∧
      SameHarts s t) ∧
  (∀ (e : Sys2Proof.Eng) (temp : Int) (s : State) (c : CalSet), (s.eng e).shadow = none → (s.eng e).act = some c →
    (128 ≤ (temp - c.temp256).natAbs →
      Completes (.shadowRebuild e temp) s fun t =>
        (∃ x : CalSet, (t.eng e).shadow = some x ∧ x.temp256 = temp ∧ ∀ f, f < 131072 → x.field e f = s.calAt e temp f) ∧
        (t.eng e).act = some c ∧ (t.eng e).queue = (s.eng e).queue ∧ OtherEngines e s t ∧
        SameRegs (· ≠ 0x400004 + 0x100 * e.val) s t ∧ SameMemory s t ∧ SameHarts s t) ∧
    ((temp - c.temp256).natAbs < 128 → exec (.shadowRebuild e temp) s = .next s))

/-- The time exchange of a child with its parent. The first SYNC of a parent opens an exchange with its corrected receive stamp. A
SYNC that follows a finished exchange gives it t1: undisturbed and with a delay that agrees, the exchange is accepted and moves
the first OFFSET by a sixteenth of its distance; disturbed, it is discarded as an outlier and moves nothing. A SYNC that names
another grandmaster starts the tracker again. The parent sends one SYNC on every port of its list that is UP, and answers a
DELAY_REQ with its receive stamp in domain time; the child sends a DELAY_REQ with its transmit stamp, and a DELAY_RESP gives its
exchange t4, or ends it where the grandmasters differ. (R305, R306, R307, R308, R309.) -/
def Obligations.TimeExchanges : Prop :=
  (∀ (p : Port) (b : TimeBody) (raw : BitVec 64) (s : State) (d : Nat), d = b.domain.val → b.trn = false → b.msg = 0 →
    s.childOn d p = true →
    (b.gmPkg.toNat = s.get (R.FTM_DOM_GM_PKG d) → s.get (R.FTM_DOM_STATE d) ≠ 3 →
      ((s.dom d).exch = [] →
        Completes (.sync p b raw) s fun t =>
          (t.dom d).exch = [⟨b.seqid.toNat, b.gmPkg.toNat, s.rxStamped p raw.toNat, none, none, none, b.hopsGm.toNat, false⟩] ∧
          t.bit (R.FTM_DOM_GM_LOCKED d) = b.gmLocked ∧ t.get (R.FTM_DOM_OFFSET d) = s.get (R.FTM_DOM_OFFSET d) ∧
          t.ftime = s.ftime ∧ SamePorts s t ∧ SameMemory s t ∧ SameHarts s t) ∧
      (∀ (e : Exch) (t3 t4 : Nat), (s.dom d).exch = [e] → (e.seq + 1) % 65536 = b.seqid.toNat → e.gm = b.gmPkg.toNat → e.t3 = some t3 →
        e.t4 = some t4 → (s.dom d).updated = false → (s.dom d).good < 15 →
        (e.disturbed = false →
          delayAgrees (exchSums b.stamp.toNat e.t2 t3 t4).1 (s.get (R.LNK_DELAY (s.get (R.FTM_DOM_PARENT d)))) = true →
          Completes (.sync p b raw) s fun t =>
            t.get (R.FTM_DOM_ACCEPTED d) = min (s.get (R.FTM_DOM_ACCEPTED d) + 1) 65535 ∧
            t.get (R.FTM_DOM_OFFSET d) =
              ofSigned 64 (s.domOffset d + divRne (-(exchSums b.stamp.toNat e.t2 t3 t4).2 - 2 * s.domOffset d) 16) ∧
            t.get (R.FTM_DOM_HOPS d) = min 15 (e.hops + 1) ∧ (t.dom d).updated = true ∧ t.ftime = s.ftime ∧ SameMemory s t ∧
            SameHarts s t) ∧
        (e.disturbed = true →
          Completes (.sync p b raw) s fun t =>
            t.get (R.FTM_DOM_OUTLIERS d) = min (s.get (R.FTM_DOM_OUTLIERS d) + 1) 65535 ∧
            t.get (R.FTM_DOM_OFFSET d) = s.get (R.FTM_DOM_OFFSET d) ∧ (t.dom d).updated = false ∧ t.ftime = s.ftime ∧ SameMemory s t ∧
            SameHarts s t))) ∧
    (b.gmPkg.toNat ≠ s.get (R.FTM_DOM_GM_PKG d) → (s.dom d).exch = [] →
      Completes (.sync p b raw) s fun t =>
        t.get (R.FTM_DOM_GM_PKG d) = b.gmPkg.toNat ∧ t.get (R.FTM_DOM_STATE d) = 1 ∧ (t.dom d).updated = false ∧
        (t.dom d).good = 0 ∧ SameMemory s t ∧ SameHarts s t)) ∧
  (∀ (d : Domain) (s : State), s.bit (R.FTM_DOM_EN d) = true → s.bit (R.FTM_DOM_GM d) = true →
    Completes (.syncSend d) s fun t =>
      (∃ fs : List (Nat × List Byte), t.wire = s.wire ++ fs ∧
        fs.map Prod.fst = (bitList (s.get (R.FTM_DOM_DOWN_PORTS d)) 32).filter s.portUp) ∧
      (t.dom d).outSeq = ((s.dom d).outSeq + 1) % 65536 ∧ t.regs = s.regs ∧ t.ftime = s.ftime ∧ SamePorts s t ∧ SameMemory s t) ∧
  (∀ (p : Port) (b : TimeBody) (raw : BitVec 64) (s : State) (d : Nat), d = b.domain.val → b.trn = false → b.msg = 1 →
    s.bit (R.FTM_DOM_EN d) = true → nbit (s.get (R.FTM_DOM_DOWN_PORTS d)) p = true → s.portUp p = true →
    Completes (.delayReq p b raw) s fun t =>
      (∃ f y : List Byte, t.wire = s.wire ++ [(p.val, f)] ∧ readFrame f = some (.body y) ∧
        (readTime (leNat (y.take 8)) (leNat ((y.drop 8).take 8))).msg = 2 ∧
        (readTime (leNat (y.take 8)) (leNat ((y.drop 8).take 8))).seqid = b.seqid ∧
        (readTime (leNat (y.take 8)) (leNat ((y.drop 8).take 8))).stamp.toNat = s.domTime d (s.rxStamped p raw.toNat)) ∧
      t.regs = s.regs ∧ SameTime s t ∧ SamePorts s t ∧ SameMemory s t) ∧
  (∀ (d : Domain) (raw : BitVec 64) (s : State) (e : Exch), (s.dom d).exch = [e] → e.t3 = none → e.seq < 65536 →
    s.childOn d (s.get (R.FTM_DOM_PARENT d)) = true →
    Completes (.delayReqSend d raw) s fun t =>
      (t.dom d).exch = [{ e with t3 := some (s.txStamped (s.get (R.FTM_DOM_PARENT d)) raw.toNat) }] ∧
      (∃ f y : List Byte, t.wire = s.wire ++ [(s.get (R.FTM_DOM_PARENT d), f)] ∧ readFrame f = some (.body y) ∧
        (readTime (leNat (y.take 8)) (leNat ((y.drop 8).take 8))).msg = 1 ∧
        (readTime (leNat (y.take 8)) (leNat ((y.drop 8).take 8))).seqid.toNat = e.seq) ∧
      t.regs = s.regs ∧ SamePorts s t ∧ SameMemory s t) ∧
  (∀ (p : Port) (b : TimeBody) (s : State) (d : Nat) (e : Exch) (t3 : Nat), d = b.domain.val → b.trn = false → b.msg = 2 →
    s.childOn d p = true → (s.dom d).exch = [e] → e.seq = b.seqid.toNat → e.t3 = some t3 → e.t1 = none →
    (b.gmPkg.toNat = s.get (R.FTM_DOM_GM_PKG d) →
      Completes (.delayResp p b) s fun t =>
        (t.dom d).exch = [{ e with t4 := some b.stamp.toNat }] ∧ t.regs = s.regs ∧ SamePorts s t ∧ SameMemory s t) ∧
    (b.gmPkg.toNat ≠ s.get (R.FTM_DOM_GM_PKG d) →
      Completes (.delayResp p b) s fun t =>
        (t.dom d).exch = [] ∧ t.get (R.FTM_DOM_OUTLIERS d) = min (s.get (R.FTM_DOM_OUTLIERS d) + 1) 65535 ∧
        SameRegs (· ≠ 0x900118 + 0x40 * d) s t ∧ SamePorts s t ∧ SameMemory s t))

/-- The output of FabricTime, its trackers, and the PPS pins. A locked tracker that is lost counts. The primary that has returned is
followed again when it is within 20 ns. A slew ends within 20 ns of its tracker, in TRACKING. The configuration of a domain
makes its tracker OFF, a grandmaster, or ACQUIRING anew; a parent that no port has is the undefined case 1. SET gives the output
the value of FTM_SETVAL and ADJUST adds it; with no tracker locked the output is in HOLDOVER then. A PPS edge is stamped and
counted while PPS_IN_EN = 1, a timeout ends the run of good edges, and a PPS pulse leaves while PPS_OUT_EN = 1. (R302, R309,
R310, R311, R312, R315, R316.) -/
def Obligations.TimeOutput : Prop :=
  (∀ (d : Domain) (s : State), s.domLocked d = true → s.bit (R.FTM_DOM_GM d) = false → s.slcPlan = none →
    Completes (.trackerLoss d) s fun t =>
      t.get (R.FTM_DOM_STATE d) = 3 ∧ t.get (R.FTM_DOM_LOSSES d) = min (s.get (R.FTM_DOM_LOSSES d) + 1) 65535 ∧ SamePorts s t ∧
      SameMemory s t ∧ SameHarts s t) ∧
  (∀ (s : State) (p : Nat), p = s.get R.FTM_CFG_PRIMARY → s.domLocked p = true → s.get R.FTM_STAT_STATE = 1 →
    s.get R.FTM_STAT_FOLLOWING ≠ p → withinNs (s.domOffset p) 20 = true → s.slcPlan = none →
    Completes .primaryReturn s fun t =>
      t.get R.FTM_STAT_FOLLOWING = p ∧ t.get R.FTM_STAT_STATE = 1 ∧ t.get R.FTM_STAT_SYNCED = 1 ∧ t.awayPrimary = false ∧ SamePorts s t ∧
      SameMemory s t ∧ SameHarts s t) ∧
  (∀ (s : State) (d : Nat), d = s.get R.FTM_STAT_FOLLOWING → s.get R.FTM_STAT_STATE = 2 → s.bit (R.FTM_DOM_GM d) = false →
    s.get (R.FTM_DOM_STATE d) ≠ 0 →
    Completes .slewComplete s fun t =>
      t.get R.FTM_STAT_STATE = 1 ∧ t.get R.FTM_STAT_SYNCED = 1 ∧ t.get R.LPE_PILOT_SYNCED = 1 ∧
      withinNs (t.domOffset d) 20 = true ∧ SamePorts s t ∧ SameMemory s t ∧ SameHarts s t) ∧
  (∀ (r : Requester) (d : Domain) (v : BitVec 32) (s : State), Reaches r (0x900100 + 0x40 * d.val) s →
    (v.toNat < 128 → s.slcPlan = none →
      Completes (.domainConfigWrite r d v) s fun t =>
        t.get (R.FTM_DOM_EN d) = v.toNat % 2 ∧ t.get (R.FTM_DOM_GM d) = v.toNat / 2 % 2 ∧ t.get (R.FTM_DOM_PARENT d) = v.toNat / 4 ∧
        t.get (R.FTM_DOM_STATE d) = (if v.toNat % 2 = 0 then 0 else if v.toNat / 2 % 2 = 1 then 2 else 1) ∧ (t.dom d).exch = [] ∧
        (v.toNat % 4 = 3 → t.get (R.FTM_DOM_OFFSET d) = 0 ∧ t.get (R.FTM_DOM_HOPS d) = 0) ∧ SamePorts s t ∧ SameMemory s t ∧
        SameHarts s t) ∧
    (128 ≤ v.toNat → exec (.domainConfigWrite r d v) s = .fault (.undefinedCase 1))) ∧
  (∀ (r : Requester) (s : State), Reaches r 0x90000C s → s.get R.FTM_CMD_STATUS ≠ 1 → s.domLocked 0 = false → s.domLocked 1 = false →
    s.slcPlan = none →
    Completes (.ftmSet r) s (fun t =>
      t.time64 = s.get R.FTM_SETVAL_VALUE ∧ t.get R.FTM_STAT_STATE = 3 ∧ t.get R.FTM_STAT_STEPPED = 1 ∧ t.get R.FTM_STAT_SYNCED = 0 ∧
      t.get R.FTM_CMD_STATUS = 2 ∧ SamePorts s t ∧ SameMemory s t ∧ SameHarts s t) ∧
    Completes (.ftmAdjust r) s fun t =>
      t.time64 = (s.time64 + s.get R.FTM_SETVAL_VALUE) % 2 ^ 64 ∧ t.get R.FTM_STAT_STATE = 3 ∧ t.get R.FTM_STAT_STEPPED = 1 ∧
      t.get R.FTM_CMD_STATUS = 2 ∧ SamePorts s t ∧ SameMemory s t ∧ SameHarts s t) ∧
  (∀ s : State,
    (s.bit R.FTM_CFG_PPS_IN_EN = true → Completes .ppsInEdge s fun t =>
      t.get R.FTM_PPSIN_EDGE = s.time64 ∧ t.get R.FTM_PPSCNT_EDGES = (s.get R.FTM_PPSCNT_EDGES + 1) % 2 ^ 32 ∧
      t.ppsGood = (if withinNs (toSigned 32 s.time64) 20 then s.ppsGood + 1 else 0) ∧
      SameRegs (fun a => a < 0x900200 ∨ 0x90020C ≤ a) s t ∧ SameMemory s t) ∧
    (s.bit R.FTM_CFG_PPS_IN_EN = false → exec .ppsInEdge s = .next s) ∧
    exec .ppsInTimeout s = .next { s with ppsGood := 0 } ∧
    exec .ppsOutPulse s = .next (if s.bit R.FTM_CFG_PPS_OUT_EN then { s with ppsOut := s.ppsOut + 1 } else s))

/-- Resets and configuration of the functions. A hot reset takes the link down and resets the registers and the configuration of
every function. FLR of PF0 resets PF0, disables SR-IOV and frees the explicit claims made through PF0; FLR of a VF resets that
VF alone. PERST# with the package running triggers a package reset of cause PERST#. A link that comes up below 16 GT/s or below
x4 raises the alert PCIE_DEGRADED. Configuration changes one function: bus mastering and MSI-X control send the vectors that
nothing masks any more; VF Enable is PF0's. (R317, R318, R319, R321, R333, R354, R361.) -/
def Obligations.HostFunctions : Prop :=
  (∀ s : State,
    Completes .hotReset s fun t =>
      t.pcieLink = none ∧ t.vfEnable = false ∧ t.numVfs = 0 ∧ (∀ f, f < 17 → t.cfg f = fnCfgReset) ∧
      (∀ (f : Nat) (g : Fld), f < 17 → OfFunction f g.addr → g.lo < 64 → t.get g = g.reset % 2 ^ g.width) ∧
      SameRegs (fun a => ∀ f, f < 17 → ¬OfFunction f a) s t ∧ SameMemory s t ∧ SameHarts s t ∧ SameEngines s t ∧ SamePorts s t) ∧
  (∀ s : State,
    Completes .flrPf0 s fun t =>
      t.vfEnable = false ∧ t.numVfs = 0 ∧ t.cfg 0 = fnCfgReset ∧ t.pcieLink = s.pcieLink ∧
      (∀ g : Fld, OfFunction 0 g.addr → g.lo < 64 → t.get g = g.reset % 2 ^ g.width) ∧
      (∀ r, r < 80 → t.get (R.HUB_PERMIT_HOLDER r) =
        if s.get (R.HUB_PERMIT_HOLDER r) = 0x101 then 0 else s.get (R.HUB_PERMIT_HOLDER r)) ∧
      SameRegs (fun a => ¬OfFunction 0 a ∧ (a < 0x400 ∨ 0x540 ≤ a)) s t ∧ SameMemory s t ∧ SameHarts s t) ∧
  (∀ (n : Fin 16) (s : State),
    Completes (.flrVf n) s fun t =>
      t.cfg (n.val + 1) = fnCfgReset ∧ (∀ f, f ≠ n.val + 1 → t.cfg f = s.cfg f) ∧
      (∀ g : Fld, OfFunction (n.val + 1) g.addr → g.lo < 64 → t.get g = g.reset % 2 ^ g.width) ∧
      t.vfEnable = s.vfEnable ∧ t.numVfs = s.numVfs ∧ t.pcieLink = s.pcieLink ∧ SameRegs (fun a => ¬OfFunction (n.val + 1) a) s t ∧
      SameMemory s t ∧ SameHarts s t) ∧
  (∀ s : State, s.powered = true → s.tripped = false → s.packageResetting = false → s.computeResetting = false →
    Completes .perstAssert s fun t =>
      t.perst = true ∧ t.pcieLink = none ∧ t.packageResetting = true ∧ t.get R.HUB_RESET_STAT_CAUSE = 4 ∧
      t.get R.HUB_RESET_STAT_PHASE = 1 ∧ t.get R.HUB_RESET_TIME_TRIGGER = s.time64 ∧ t.presetBusy = true ∧ SameMemory s t ∧
      SameHarts s t) ∧
  (∀ (g : Fin 7) (w : Fin 17) (s : State), s.powered = true → s.tripped = false → s.perst = false → 1 ≤ s.get R.HUB_BOOT_STEP →
    g ≠ 0 → w ≠ 0 →
    (4 ≤ g.val → 4 ≤ w.val → exec (.pcieLinkUp g w) s = .next { s with pcieLink := some (g.val, w.val) }) ∧
    (g.val < 4 ∨ w.val < 4 →
      Completes (.pcieLinkUp g w) s fun t =>
        t.pcieLink = some (g.val, w.val) ∧ t.bit (alertFld 9) = true ∧ SameRegs (fun a => a ≠ 0x300 ∧ a ≠ 0x9000) s t ∧
        SameMemory s t)) ∧
  (∀ (f : Fn) (s : State), s.configured f = true →
    (∀ d : Bool, Completes (.configurationWrite f (.powerState d)) s fun t =>
      t.cfg f = { s.cfg f with d3hot := d } ∧ (∀ g, g ≠ f.val → t.cfg g = s.cfg g) ∧ t.regs = s.regs ∧ t.msix = s.msix ∧
      t.vfEnable = s.vfEnable) ∧
    (∀ (w : CfgWrite) (c : FnCfg), (∃ on, w = .busMaster on ∧ c = { s.cfg f with busMaster := on }) ∨
        (∃ en m, w = .msixControl en m ∧ c = { s.cfg f with msixEnable := en, msixFnMask := m }) →
      Completes (.configurationWrite f w) s fun t =>
        t.cfg f = c ∧ (∀ g, g ≠ f.val → t.cfg g = s.cfg g) ∧
        (∀ v, v < 16 → nbit (t.get (R.MSIX_PBA_PENDING f)) v = (nbit (s.get (R.MSIX_PBA_PENDING f)) v &&
          !(c.msixEnable && c.busMaster && !c.msixFnMask && !s.bit (R.MSIX_TABLE_CTL_MASK f v)))) ∧
        t.msix = s.msix ++ ((List.range 16).filter fun v => nbit (s.get (R.MSIX_PBA_PENDING f)) v && c.msixEnable && c.busMaster &&
          !c.msixFnMask && !s.bit (R.MSIX_TABLE_CTL_MASK f v)).map (fun v => (f.val, v)) ∧
        SameRegs (· ≠ 0x10000000 * f.val + 0x9000) s t ∧ SameMemory s t) ∧
    (∀ n : Fin 17,
      (f ≠ 0 → exec (.configurationWrite f (.vfEnable true n)) s = .next s) ∧
      (f = 0 → s.vfEnable = false → exec (.configurationWrite f (.vfEnable true n)) s = .next { s with vfEnable := true, numVfs := n.val }) ∧
      (f = 0 → Completes (.configurationWrite f (.vfEnable false n)) s fun t =>
        t.vfEnable = false ∧ t.numVfs = 0 ∧ t.cfg 0 = s.cfg 0 ∧ (∀ g, g ≠ 0 → t.cfg g = fnCfgReset) ∧ t.regs = s.regs))) ∧
  (∀ (f : Fn) (w : CfgWrite) (s : State), s.configured f = false → exec (.configurationWrite f w) s = .next s)

/-- Requests in a mailbox and their responses. A READ answers the bytes of its entry's value from OFFSET on; a persisting setting
that is written is in force and in the store, and is refused while another path holds the store; DESCRIBE answers type, access,
total, and the class, default and unit where they are stated; NEXT answers the least entry after the one named. An unknown entry
answers NO_ENTRY, and a mailbox that is BUSY counts the request as ignored. A claim is granted whole or refused with the lowest
resource that is held; a release frees the path's explicit claims, or, forced, every explicit claim. REG_READ and REG_WRITE
perform one access. The completion of a response makes STATUS DONE and fires vector 0. A VF's EXEC answers HOST_ONLY. (R336,
R337, R338, R339, R340, R341, R342, R343, R352, R353, R354.) -/
def Obligations.MailboxRequests : Prop :=
  (∀ (f : Fn) (h : MbxHdr) (s : State) (e : OdEnt) (a i : Nat), a = h.area.toNat → i = h.index.toNat → MbxTakes f 1 a i s →
    odEntry a i = some e → e.acc ≠ .wo → e.acc ≠ .cmd → a ≠ 3 → ¬(a = 6 ∧ i = 0x10) → (f = 0 ∨ a ≠ 1 ∧ a ≠ 4) →
    h.offset.toNat ≤ e.size → h.length.toNat ≤ 240 →
    Completes (.mbxRead f h) s fun t =>
      MbxResp f 1 h.tag.toNat
        ⟨0, 0, 0, e.size, (((odValue a i e s).drop h.offset.toNat).take h.length.toNat).take (e.size - h.offset.toNat)⟩ t ∧
      MbxOnly f s t) ∧
  (∀ (f : Fn) (h : MbxHdr) (s : State),
    (MbxTakes f 1 h.area.toNat h.index.toNat s → odEntry h.area.toNat h.index.toNat = none →
      Completes (.mbxRead f h) s fun t => MbxResp f 1 h.tag.toNat ⟨1, 0, 0, 0, []⟩ t ∧ MbxOnly f s t) ∧
    (musServed (.mbx f h.tag) 1 h.area.toNat h.index.toNat s = true → Reaches (.fn f) (0x10000000 * f.val + 0x1000) s →
      s.get (R.HUB_MBX_CMD_STATUS f) = 1 → exec (.mbxRead f h) s = .next (s.incSat (R.HUB_MBX_CMD_IGNORED f)))) ∧
  (∀ (h : MbxHdr) (data : List Byte) (s : State) (i v : Nat), i = h.index.toNat → v = leNat data → h.area = 1 →
    (i = 3 ∧ data.length = 2 ∨ (i = 0x10 ∨ i = 0x20 ∨ i = 0x21 ∨ i = 1 ∧ v < 128) ∧ data.length = 1 ∨ i = 0x40 ∧ data.length = 4 ∧ v < 4096) →
    h.offset = 0 → h.length.toNat = data.length → MbxTakes 0 2 1 i s →
    (s.get (R.HUB_PERMIT_HOLDER 77) = 0 → s.nvmDead = false →
      Completes (.mbxWrite 0 h data) s fun t =>
        MbxResp 0 2 h.tag.toNat ⟨0, 0, 0, data.length, []⟩ t ∧ t.odGet 1 i 0 = v ∧ t.cfgNewest 1 i = some v ∧
        (∀ b j, ¬(b = 1 ∧ j = i) → b ≠ 3 → j < 65536 → t.odGet b j 0 = s.odGet b j 0) ∧
        (i = 0x40 → t.get R.HUB_ALERT_EN_EN = v) ∧ SameMemory s t ∧ SameHarts s t) ∧
    (s.get (R.HUB_PERMIT_HOLDER 77) = 0 → s.nvmDead = true →
      Completes (.mbxWrite 0 h data) s fun t =>
        MbxResp 0 2 h.tag.toNat ⟨7, 0, 0, 0, []⟩ t ∧ t.odGet 1 i 0 = s.odGet 1 i 0 ∧ t.cfgStore = s.cfgStore ∧
        t.bit (alertFld 7) = true) ∧
    (∀ g, s.get (R.HUB_PERMIT_HOLDER 77) = g → g ≠ 0 → g / 256 ≠ 1 →
      Completes (.mbxWrite 0 h data) s fun t =>
        MbxResp 0 2 h.tag.toNat ⟨5, g, 77, 0, []⟩ t ∧ t.odGet 1 i 0 = s.odGet 1 i 0 ∧ t.cfgStore = s.cfgStore ∧ MbxOnly 0 s t)) ∧
  (∀ (h : MbxHdr) (s : State) (e : OdEnt) (a i : Nat), a = h.area.toNat → i = h.index.toNat → MbxTakes 0 4 a i s → odEntry a i = some e →
    Completes (.mbxDescribe 0 h) s fun t =>
      ∃ c d u : List Byte, c.length = 1 ∧ d.length = 8 ∧ u.length = 8 ∧ (∀ k, e.cls = some k → c = leBytes 1 k) ∧
        (∀ k, e.dflt = some k → d = leBytes 8 k) ∧ (∀ k, e.unit = some k → u = padTo 8 (k.map (BitVec.ofNat 8))) ∧
        MbxResp 0 4 h.tag.toNat ⟨0, 0, 0, odTotal a i e s,
          leBytes 1 e.ty ++ leBytes 1 e.acc.code ++ c ++ [0] ++ leBytes 4 (odTotal a i e s) ++ d ++ u⟩ t ∧ MbxOnly 0 s t) ∧
  (∀ (f : Fn) (h : MbxHdr) (s : State) (a i : Nat), a = h.area.toNat → i = h.index.toNat → MbxTakes f 5 a i s →
    (∀ b j : Nat, (odEntry b j).isSome = true → (a < b ∨ a = b ∧ i < j) →
      (∀ c k : Nat, (odEntry c k).isSome = true → (a < c ∨ a = c ∧ i < k) → b < c ∨ b = c ∧ j ≤ k) →
      Completes (.mbxNext f h) s fun t => MbxResp f 5 h.tag.toNat ⟨0, 0, 0, 4, leBytes 1 b ++ [0] ++ leBytes 2 j⟩ t ∧ MbxOnly f s t) ∧
    ((∀ c k : Nat, (odEntry c k).isSome = true → c < a ∨ c = a ∧ k ≤ i) →
      Completes (.mbxNext f h) s fun t => MbxResp f 5 h.tag.toNat ⟨1, 0, 0, 0, []⟩ t ∧ MbxOnly f s t)) ∧
  (∀ (f : Fn) (s : State),
    (s.get (R.HUB_MBX_CMD_STATUS f) = 1 → (s.cfg f).msixEnable = true → (s.cfg f).busMaster = true →
      Completes (.mbxResponseComplete f) s fun t =>
        t.get (R.HUB_MBX_CMD_STATUS f) = 2 ∧
        (if (s.cfg f).msixFnMask || s.bit (R.MSIX_TABLE_CTL_MASK f 0) then t.msix = s.msix ∧ nbit (t.get (R.MSIX_PBA_PENDING f)) 0 = true
          else t.msix = s.msix ++ [(f.val, 0)]) ∧ 
        SameRegs (fun a => a ≠ 0x10000000 * f.val + 0x1000 ∧ a ≠ 0x10000000 * f.val + 0x9000) s t ∧ SameMemory s t) ∧
    (s.get (R.HUB_MBX_CMD_STATUS f) ≠ 1 → exec (.mbxResponseComplete f) s = .next s)) ∧
  (∀ (tag : BitVec 16) (mask : BitVec 80) (force : Bool) (s : State),
    (MbxFree tag 4 0x10 s → (∀ r, r < 80 → nbit mask.toNat r = true → r < 78 ∧ s.get (R.HUB_PERMIT_HOLDER r) = 0) →
      Completes (.permitClaim (.mbx 0 tag) mask) s fun t =>
        MbxResp 0 3 tag.toNat ⟨0, 0, 0, 0, []⟩ t ∧
        (∀ r, r < 80 → t.get (R.HUB_PERMIT_HOLDER r) = if nbit mask.toNat r then 0x101 else s.get (R.HUB_PERMIT_HOLDER r)) ∧
        SameMemory s t ∧ SameHarts s t) ∧
    (∀ r g, MbxFree tag 4 0x10 s → r < 80 → nbit mask.toNat r = true → s.get (R.HUB_PERMIT_HOLDER r) = g → g ≠ 0 →
      (∀ k, k < r → nbit mask.toNat k = true → s.get (R.HUB_PERMIT_HOLDER k) = 0) →
      Completes (.permitClaim (.mbx 0 tag) mask) s fun t => MbxResp 0 3 tag.toNat ⟨5, g, r, 0, []⟩ t ∧ MbxOnly 0 s t) ∧
    (MbxFree tag 4 0x11 s →
      Completes (.permitRelease (.mbx 0 tag) mask force) s fun t =>
        MbxResp 0 3 tag.toNat ⟨0, 0, 0, 0, []⟩ t ∧
        (∀ r, r < 80 → t.get (R.HUB_PERMIT_HOLDER r) =
          if nbit mask.toNat r ∧ s.get (R.HUB_PERMIT_HOLDER r) % 256 = 1 ∧ (force ∨ s.get (R.HUB_PERMIT_HOLDER r) = 0x101) then 0
          else s.get (R.HUB_PERMIT_HOLDER r)) ∧ SameMemory s t ∧ SameHarts s t) ∧
    (∀ n : Fin 16, MbxTakes n.succ 3 4 0x10 s →
      Completes (.permitClaim (.mbx n.succ tag) mask) s fun t => MbxResp (n.val + 1) 3 tag.toNat ⟨9, 0, 0, 0, []⟩ t ∧ MbxOnly (n.val + 1) s t)) ∧
  (∀ (tag : BitVec 16) (s : State) (v : Nat),
    (MbxFree tag 4 0xF0 s → Reaches (.hart 0) 0x600400 s →
      Completes (.regRead (.mbx 0 tag) 0x600400 4) s fun t =>
        MbxResp 0 3 tag.toNat ⟨0, 0, 0, 4,
          leBytes 4 (s.get R.PEG_BLKARG_FIRST + 2 ^ 8 * s.get R.PEG_BLKARG_COUNT + 2 ^ 20 * s.get R.PEG_BLKARG_TENANT)⟩ t ∧
        MbxOnly 0 s t) ∧
    (MbxFree tag 4 0xF1 s → Reaches (.hart 0) 0x600400 s → v < 2 ^ 32 → nfld v 17 3 = 0 → nfld v 24 8 = 0 →
      Completes (.regWrite (.mbx 0 tag) 0x600400 (leBytes 4 v)) s fun t =>
        MbxResp 0 3 tag.toNat ⟨0, 0, 0, 0, []⟩ t ∧ t.get R.PEG_BLKARG_FIRST = nfld v 0 8 ∧ t.get R.PEG_BLKARG_COUNT = nfld v 8 9 ∧
        t.get R.PEG_BLKARG_TENANT = nfld v 20 4 ∧ SameRegs (fun a => a ≠ 0x600400 ∧ (a < 0x1000 ∨ 0x1300 ≤ a)) s t ∧ SameMemory s t) ∧
    (MbxFree tag 4 0xF1 s →
      Completes (.regWrite (.mbx 0 tag) 0x600402 (leBytes 4 v)) s fun t => MbxResp 0 3 tag.toNat ⟨4, 0, 0, 0, []⟩ t ∧ MbxOnly 0 s t))

/-- Transactions over CAN FD. An INIT while another transaction is in progress is answered SEQUENCE and leaves that transaction as
it is. A READ is answered in RSP frames with the bytes of its entry. A WRITE with more than 48 data bytes waits for its
segments: the next one in order adds 60 bytes, the last one has the request performed, here refused with SIZE, and one out of
order aborts the transaction with reason 2. ABORT and the timeout end it, the timeout with reason 1. An ABORT of another
transaction counts as a frame and does nothing. (R336, R341, R342, R347, R348.) -/
def Obligations.CanTransactions : Prop :=
  (∀ (d : List Byte) (s : State) (x : CanTxn) (txn op : Nat), CanOn s → 8 ≤ d.length → txn = reqFld (padTo 64 d) 1 1 →
    op = reqFld (padTo 64 d) 2 1 → s.can.txn = some x → x.txn ≠ txn →
    Completes (.canInit d) s fun t =>
      t.can.txq = s.can.txq ++ [CanOut s 5 (some txn) (leBytes 1 1 ++ leBytes 1 txn ++ leBytes 1 8 ++ leBytes 1 op ++ leBytes 12 0)] ∧
      t.can.txn = some x ∧ t.odGet 3 0x11 0 = (s.odGet 3 0x11 0 + 1) % 2 ^ 32 ∧ t.regs = s.regs ∧ SameMemory s t ∧ SameHarts s t) ∧
  (∀ (d : List Byte) (s : State) (e : OdEnt) (txn a i len : Nat), CanOn s → 8 ≤ d.length → txn = reqFld (padTo 64 d) 1 1 →
    reqFld (padTo 64 d) 2 1 = 1 → a = reqFld (padTo 64 d) 3 1 → i = reqFld (padTo 64 d) 4 2 → reqFld (padTo 64 d) 8 4 = 0 →
    len = reqFld (padTo 64 d) 12 4 → s.can.txn = none → a ≤ 1 → odEntry a i = some e → e.size ≤ len → len ≤ 4096 →
    musServed (.can 0) 1 a i s = true →
    Completes (.canInit d) s fun t =>
      t.can.txq = s.can.txq ++ [CanOut s 5 (some txn) (leBytes 1 1 ++ leBytes 1 txn ++ leBytes 1 0 ++ leBytes 1 1 ++ leBytes 4 0 ++
        leBytes 4 e.size ++ leBytes 4 (odValue a i e s).length ++ odValue a i e s)] ∧
      (∃ x : CanTxn, t.can.txn = some x ∧ x.txn = txn ∧ x.answered = true) ∧ t.odGet 3 0x11 0 = (s.odGet 3 0x11 0 + 1) % 2 ^ 32 ∧
      t.odGet 3 0x20 0 = (s.odGet 3 0x20 0 + 1) % 2 ^ 32 ∧ t.regs = s.regs ∧ SameMemory s t ∧ SameHarts s t) ∧
  (∀ (d : List Byte) (s : State) (len : Nat), CanOn s → 8 ≤ d.length → reqFld (padTo 64 d) 2 1 = 2 → len = reqFld (padTo 64 d) 12 4 →
    48 < len → len ≤ 4096 → s.can.txn = none →
    Completes (.canInit d) s fun t =>
      (∃ x : CanTxn, t.can.txn = some x ∧ x.txn = reqFld (padTo 64 d) 1 1 ∧ x.op = 2 ∧ x.length = len ∧ x.nextSeg = 1 ∧
        x.data = (padTo 64 d).drop 16 ∧ x.answered = false) ∧ t.can.txq = s.can.txq ∧ t.regs = s.regs ∧ SameMemory s t) ∧
  (∀ (d : List Byte) (s : State) (x : CanTxn), CanOn s → 8 ≤ d.length → s.can.txn = some x → x.answered = false →
    (x.txn = reqFld (padTo 64 d) 1 1 → x.nextSeg = reqFld (padTo 64 d) 2 2 → x.data.length + 60 < x.length →
      Completes (.canSeg d) s fun t =>
        t.can.txn = some { x with nextSeg := x.nextSeg + 1, data := x.data ++ (padTo 64 d).drop 4 } ∧ t.can.txq = s.can.txq ∧
        t.regs = s.regs ∧ SameMemory s t) ∧
    (x.txn = reqFld (padTo 64 d) 1 1 → x.nextSeg = reqFld (padTo 64 d) 2 2 → 48 < x.length → x.length ≤ x.data.length + 60 →
      x.length ≤ 4096 → x.op = 2 → x.area = 1 → (odEntry 1 x.index).isSome = true → musServed (.can 0) 2 1 x.index s = true →
      Completes (.canSeg d) s fun t =>
        t.can.txq = s.can.txq ++
          [CanOut s 5 (some x.txn) (leBytes 1 1 ++ leBytes 1 x.txn ++ leBytes 1 3 ++ leBytes 1 2 ++ leBytes 12 0)] ∧
        (∃ y : CanTxn, t.can.txn = some y ∧ y.txn = x.txn ∧ y.answered = true) ∧ t.regs = s.regs ∧ SameMemory s t) ∧
    (x.txn ≠ reqFld (padTo 64 d) 1 1 ∨ x.nextSeg ≠ reqFld (padTo 64 d) 2 2 →
      Completes (.canSeg d) s fun t =>
        t.can.txn = none ∧ t.can.txq = s.can.txq.filter (fun f => f.txn != some x.txn || f.won) ++
          [CanOut s 5 none (leBytes 1 3 ++ leBytes 1 x.txn ++ leBytes 1 2)] ∧ t.regs = s.regs ∧ SameMemory s t)) ∧
  (∀ (txn why : Byte) (s : State) (x : CanTxn), CanOn s → s.can.txn = some x →
    (x.txn = txn.toNat → Completes (.canAbort txn why) s fun t =>
      t.can.txn = none ∧ t.can.txq = s.can.txq.filter (fun f => f.txn != some x.txn || f.won) ++
        [CanOut s 5 none (leBytes 1 3 ++ leBytes 1 x.txn ++ leBytes 1 2)] ∧ t.regs = s.regs) ∧
    (x.txn ≠ txn.toNat → Completes (.canAbort txn why) s fun t =>
      t.can = s.can ∧ t.odGet 3 0x11 0 = (s.odGet 3 0x11 0 + 1) % 2 ^ 32 ∧ t.regs = s.regs) ∧
    (Completes .canTxnTimeout s fun t =>
      t.can.txn = none ∧ t.can.txq = s.can.txq.filter (fun f => f.txn != some x.txn || f.won) ++
        [CanOut s 5 none (leBytes 1 3 ++ leBytes 1 x.txn ++ leBytes 1 1)] ∧ t.regs = s.regs ∧ t.od = s.od))

/-- The CAN node on its bus. IDENTIFY for this node, and the heartbeat interval, make a HEARTBEAT with the boot step, the state of
the controller and the alerts; RESUME for this node and CAN_RESTART start the controller anew. The eighth bit error of an
identifier puts the node into listen-only as a duplicate; fewer move it between error-active and error-passive by TEC. Bus-off
counts, and once in bus-off the recovery returns the controller to error-active. A frame that is cancelled before it wins
arbitration leaves the queue; one that has won is sent in full and counted when it ends. (R344, R345, R346, R349, R350, R351.) -/
def Obligations.CanNode : Prop :=
  (∀ (n : BitVec 7) (s : State), CanOn s →
    (n = 0 ∨ n.toNat = s.get R.HUB_CAN_STAT_NODE →
      Completes (.nmtIdentify n) s (fun t =>
        Beats s t ∧ t.odGet 3 0x11 0 = (s.odGet 3 0x11 0 + 1) % 2 ^ 32 ∧ t.regs = s.regs ∧ SameMemory s t) ∧
      Completes (.nmtResume n) s fun t =>
        CanFresh s t ∧ t.odGet 3 0x11 0 = (s.odGet 3 0x11 0 + 1) % 2 ^ 32 ∧ SameRegs (· ≠ 0x308) s t ∧ SameMemory s t) ∧
    (n ≠ 0 → n.toNat ≠ s.get R.HUB_CAN_STAT_NODE →
      exec (.nmtIdentify n) s = .next s ∧ exec (.nmtResume n) s = .next s)) ∧
  (∀ (tag : BitVec 16) (s : State), MbxFree tag 4 0x60 s →
    Completes (.canRestart (.mbx 0 tag)) s fun t =>
      MbxAnswer 0 t ∧ CanFresh s t ∧ SameRegs (fun a => a ≠ 0x308 ∧ (a < 0x1000 ∨ 0x1300 ≤ a)) s t ∧ SameMemory s t) ∧
  (∀ s : State,
    (CanOn s → s.odGet 1 3 1000 ≠ 0 → Completes .canHeartbeat s fun t => Beats s t ∧ t.regs = s.regs ∧ t.od = s.od ∧ SameMemory s t) ∧
    (s.odGet 1 3 1000 = 0 → exec .canHeartbeat s = .next s)) ∧
  (∀ (i : BitVec 11) (s : State) (a b : List CanFrame) (f : CanFrame), CanOn s → s.can.txq = a ++ f :: b → f.ident = i.toNat →
    (∀ g ∈ a, g.ident ≠ i.toNat) →
    (tget 0 s.can.dup i.toNat ≠ 7 →
      Completes (.canBitError i) s fun t =>
        tget 0 t.can.dup i.toNat = tget 0 s.can.dup i.toNat + 1 ∧ tget 0 t.can.good i.toNat = 0 ∧
        t.get R.HUB_CAN_STAT_TEC = min (s.get R.HUB_CAN_STAT_TEC + 8) 255 ∧
        t.get R.HUB_CAN_STAT_STATE = (if 128 ≤ s.get R.HUB_CAN_STAT_TEC + 8 then 2 else 1) ∧
        t.odGet 3 0x14 0 = (s.odGet 3 0x14 0 + 1) % 2 ^ 16 ∧ t.can.txq = s.can.txq ∧ SameRegs (· ≠ 0x308) s t ∧ SameMemory s t) ∧
    (tget 0 s.can.dup i.toNat = 7 →
      Completes (.canBitError i) s fun t =>
        t.get R.HUB_CAN_STAT_STATE = 4 ∧ t.get R.HUB_CAN_STAT_DUP_NODE = 1 ∧ t.bit (alertFld 6) = true ∧
        t.odGet 3 0x14 0 = (s.odGet 3 0x14 0 + 1) % 2 ^ 16 ∧
        (LogOpen s → Logged (13 + 256 * 0xFF) 0x0800 (leBytes 2 i.toNat) s t) ∧ SameMemory s t) ∧
    (Completes (.canFrameSent i) s fun t =>
      t.can.txq = a ++ b ∧ t.odGet 3 0x10 0 = (s.odGet 3 0x10 0 + 1) % 2 ^ 32 ∧
      t.odGet 3 0x13 0 = (if f.won then (s.odGet 3 0x13 0 + 1) % 2 ^ 16 else s.odGet 3 0x13 0) ∧
      tget 0 t.can.good i.toNat = (tget 0 s.can.good i.toNat + 1) % 64 ∧
      tget 0 t.can.dup i.toNat = (if tget 0 s.can.good i.toNat = 63 then 0 else tget 0 s.can.dup i.toNat) ∧
      t.get R.HUB_CAN_STAT_TEC = s.get R.HUB_CAN_STAT_TEC - 1 ∧
      t.get R.HUB_CAN_STAT_STATE = (if 128 ≤ s.get R.HUB_CAN_STAT_TEC - 1 then 2 else 1) ∧ SameRegs (· ≠ 0x308) s t ∧ SameMemory s t) ∧
    (Completes (.canCancelRequest i false) s fun t => t.can.txq = a ++ b ∧ t.regs = s.regs ∧ t.od = s.od ∧ SameMemory s t) ∧
    (Completes (.canCancelRequest i true) s fun t =>
      t.can.txq = { f with won := true } :: (a ++ b) ∧ t.can.txn = s.can.txn ∧ t.regs = s.regs ∧ t.od = s.od ∧ SameMemory s t)) ∧
  (∀ s : State,
    (CanOn s → Completes .canBusOff s fun t =>
      t.get R.HUB_CAN_STAT_STATE = 3 ∧ t.get R.HUB_CAN_STAT_TEC = 255 ∧ t.odGet 3 0x15 0 = (s.odGet 3 0x15 0 + 1) % 2 ^ 16 ∧
      t.can.txn = s.can.txn ∧ SameMemory s t) ∧
    (s.get R.HUB_CAN_STAT_STATE = 3 → Completes .canBusOff s fun t =>
      t.get R.HUB_CAN_STAT_STATE = 1 ∧ t.get R.HUB_CAN_STAT_TEC = 0 ∧ t.get R.HUB_CAN_STAT_REC = 0 ∧ SameRegs (· ≠ 0x308) s t ∧
      t.can = s.can ∧ t.od = s.od ∧ SameMemory s t))

/-- Compute and package resets, and fabric control messages. A compute reset records its kind, cause and time and begins its
capture. At the end of the capture the harts, queues and core stores are cleared, the pegs are 0, HUB_DUMP names the bays that
were captured, and no other byte of memory changes. The reset is done once no compute die of a bay in service is dead; overdue,
its status says so, and it goes on. A package reset captures, then takes the light and the links down, and once its summary is
written resets the dies: memory is lost but for the dump regions. SEND sends a message of class 2 to a package with a usable
route; a message that arrives joins the receive ring unless it is full. (R361, R362, R363, R364, R366, R368, R369, R371, R374,
R376, R377, R378.) -/
def Obligations.ResetsAndNotices : Prop :=
  (∀ (r : Requester) (s : State), Reaches r 0x700 s →
    (s.get R.HUB_CRESET_CMD_STATUS ≠ 1 → s.get R.HUB_CRESET_CMD_STATUS ≠ 3 → s.get R.HUB_BOOT_STATE = 1 → s.packageResetting = false →
      s.powered = true → s.tripped = false →
      Completes (.computeReset (.reg r)) s fun t =>
        t.get R.HUB_CRESET_CMD_STATUS = 1 ∧ t.computeResetting = true ∧ t.get R.HUB_RESET_STAT_PHASE = 1 ∧
        t.get R.HUB_RESET_STAT_CAUSE = (match r with
          | .fn _ => 1
          | .hart _ => 5) ∧
        t.get R.HUB_RESET_TIME_TRIGGER = s.time64 ∧ t.get R.HUB_RESET_CNT_CRESETS = (s.get R.HUB_RESET_CNT_CRESETS + 1) % 65536 ∧
        t.dumpSeq = (s.dumpSeq + 1) % 65536 ∧ SameMemory s t ∧ SameHarts s t) ∧
    (s.get R.HUB_CRESET_CMD_STATUS = 1 ∨ s.get R.HUB_CRESET_CMD_STATUS = 3 →
      exec (.computeReset (.reg r)) s = .next (s.incSat R.HUB_CRESET_CMD_IGNORED))) ∧
  (∀ (absent : BitVec 8) (s : State), s.computeResetting = true → s.get R.HUB_RESET_STAT_PHASE = 1 →
    Completes (.captureComplete absent) s fun t =>
      t.get R.HUB_RESET_STAT_PHASE = 2 ∧ t.harts = [] ∧ t.queues = [] ∧ t.fbq = [] ∧ t.wprot = [] ∧ t.upHeld = [] ∧
      (∀ k, t.byte k = if inCoreStore k then 0 else if inHbm k && decide (dumpBase ≤ k % (48 * gib)) then t.byte k else s.byte k) ∧
      (∀ p, p < 65536 → t.peg p = 0) ∧
      (∀ n, n < 8 → nbit (t.get R.HUB_DUMP_BAYS) n = (s.bayIn n && s.hbmBays.contains n && !nbit absent.toNat n &&
        !s.deadDies.contains n && !s.deadDies.contains (120 + n) && !s.deadDies.contains (100 + n))) ∧
      (t.get R.HUB_DUMP_VALID = if t.get R.HUB_DUMP_BAYS = 0 then 0 else 1) ∧ t.sumWait.isSome = true ∧ SamePorts s t) ∧
  (∀ s : State, s.computeResetting = true → s.get R.HUB_RESET_STAT_PHASE ≠ 1 → (∀ e, (s.eng e).queue = []) →
    ((∀ n, n < 8 → s.bayIn n = true → s.deadDies.contains n = false) →
      Completes .computeResetDone s fun t =>
        t.get R.HUB_RESET_STAT_PHASE = 4 ∧ t.get R.HUB_CRESET_CMD_STATUS = 2 ∧ t.computeResetting = false ∧ t.doneAt = s.time64 ∧
        SameMemory s t ∧ SameHarts s t ∧ SamePorts s t) ∧
    (∀ n, n < 8 → s.bayIn n = true → s.deadDies.contains n = true → exec .computeResetDone s = .next s)) ∧
  (∀ s : State,
    (s.computeResetting = true → s.get R.HUB_CRESET_CMD_STATUS = 1 →
      exec .computeResetOverdue s = .next (s.set R.HUB_CRESET_CMD_STATUS 3)) ∧
    (s.computeResetting = false → exec .computeResetOverdue s = .next s)) ∧
  (∀ (r : Requester) (s : State), Reaches r 0x704 s → s.get R.HUB_PRESET_CMD_STATUS ≠ 1 → s.powered = true → s.tripped = false →
    s.packageResetting = false → s.computeResetting = false →
    Completes (.packageReset (.reg r)) s fun t =>
      t.packageResetting = true ∧ t.get R.HUB_RESET_STAT_PHASE = 1 ∧ t.get R.HUB_RESET_TIME_TRIGGER = s.time64 ∧
      t.presetBusy = true ∧ SameMemory s t ∧ SameHarts s t ∧ SamePorts s t) ∧
  (∀ (absent : BitVec 8) (s : State), s.packageResetting = true → s.get R.HUB_RESET_STAT_PHASE = 1 → s.presetBusy = true → Quiet s →
    Completes (.captureComplete absent) s fun t =>
      t.get R.HUB_RESET_STAT_PHASE = 2 ∧ t.presetBusy = false ∧ t.sumWait.isSome = true ∧ (∀ j, j < 10 → t.las j = 0 ∨ t.las j = 4) ∧
      (∀ p, p < 32 → t.portUp p = false) ∧ SameHarts s t) ∧
  (∀ (s : State) (slot : Nat) (cells : List (Nat × Byte)), s.sumWait = some (slot, cells) → s.nvmDead = false →
    (s.packageResetting = false → trising cells = true → (∀ p ∈ cells, p.1 < 262144) →
      Completes (.summaryWritten true) s fun t =>
        t.sumWait = none ∧ t.get R.HUB_RESET_STAT_SUMMARY = 1 ∧ (∀ o, o < 262144 → t.sumByte slot o = tget 0 cells o) ∧
        (∀ k o, k ≠ slot → o < 262144 → t.sumByte k o = s.sumByte k o) ∧ SameMemory s t ∧ SameHarts s t ∧ SamePorts s t) ∧
    (s.packageResetting = true → s.get R.HUB_RESET_STAT_PHASE = 2 → s.presetBusy = false →
      Completes (.summaryWritten true) s fun t =>
        t.sumWait = none ∧ t.harts = [] ∧ t.queues = [] ∧ t.engs = [] ∧ t.ports = [] ∧ t.hbmBays = [] ∧
        (∀ k, t.byte k = if inHbm k && decide (dumpBase ≤ k % (48 * gib)) then s.byte k else 0) ∧ t.get R.HUB_BOOT_STEP = 0 ∧
        t.get R.HUB_BOOT_STATE = 0 ∧ t.get R.HUB_RESET_STAT_KIND = 2 ∧
        t.get R.HUB_RESET_STAT_CAUSE = s.get R.HUB_RESET_STAT_CAUSE ∧ t.get R.HUB_RESET_STAT_SUMMARY = 1 ∧ t.ledger = s.ledger ∧
        t.cfgStore = s.cfgStore ∧ t.logRecs = s.logRecs ∧ t.pending = s.pending)) ∧
  (∀ (r : Requester) (s : State) (d n : Nat), Reaches r 0x828 s → s.get R.HUB_FCTX_CMD_STATUS ≠ 1 → d = s.get R.HUB_FCTX_ARG_DST →
    n = s.get R.HUB_FCTX_ARG_SIZE →
    (10 ≤ s.get R.HUB_BOOT_STEP → s.get R.HUB_FCTX_ARG_OP = 0x22 → 1 ≤ n → n ≤ 32 → d ≠ s.pkg → s.usablePorts d ≠ [] →
      Completes (.send r) s fun t =>
        t.get R.HUB_FCTX_CMD_STATUS = 2 ∧ (∃ y : RoutedXact, t.fabricOut = s.fabricOut ++ [y] ∧ y.cls = 2 ∧ y.dst = d ∧ y.src = s.pkg ∧
          y.x.op = 0x22 ∧ y.x.body.attr = 0 ∧ y.x.body.ftag = 0 ∧ y.x.body.iseq = 0 ∧ y.x.body.addr = 0 ∧
          y.x.body.data = ((List.range 8).flatMap fun i => leBytes 4 (s.get (R.HUB_FCTX_DATA_WORD i))).take n) ∧
        SameRegs (· ≠ 0x828) s t ∧ SameMemory s t ∧ SameHarts s t) ∧
    (10 ≤ s.get R.HUB_BOOT_STEP → s.get R.HUB_FCTX_ARG_OP ≠ 0x22 ∨ n = 0 ∨ 32 < n →
      Completes (.send r) s fun t =>
        t.get R.HUB_FCTX_CMD_STATUS = 3 ∧ t.get R.HUB_FCTX_CMD_REASON = 2 ∧ t.fabricOut = s.fabricOut ∧ SameRegs (· ≠ 0x828) s t) ∧
    (10 ≤ s.get R.HUB_BOOT_STEP → s.get R.HUB_FCTX_ARG_OP = 0x22 → 1 ≤ n → n ≤ 32 → d ≠ s.pkg → s.usablePorts d = [] →
      Completes (.send r) s fun t =>
        t.get R.HUB_FCTX_CMD_STATUS = 3 ∧ t.get R.HUB_FCTX_CMD_REASON = 1 ∧ t.fabricOut = s.fabricOut ∧ SameRegs (· ≠ 0x828) s t) ∧
    (s.get R.HUB_BOOT_STEP < 10 → exec (.send r) s = .fault (.undefinedCase 8))) ∧
  (∀ (env : Envelope) (op : Byte) (data : List Byte) (s : State) (k : Nat), s.packageResetting = false → k = s.get R.HUB_FCRX_STAT_TAIL →
    (0x20 ≤ op.toNat → op.toNat ≤ 0x22 → (k + 1) % 16 ≠ s.get R.HUB_FCRX_HEAD_HEAD → s.get R.HUB_FCRX_CFG_EN = 0 →
      Completes (.fabricControlArrival env op data) s fun t =>
        t.get R.HUB_FCRX_STAT_TAIL = (k + 1) % 16 ∧
        t.get (R.HUB_FCRX_BUF_WORD (16 * k)) + 2 ^ 32 * t.get (R.HUB_FCRX_BUF_WORD (16 * k + 1)) =
          op.toNat + 2 ^ 8 * (data.length % 64) + 2 ^ 16 * env.src.toNat ∧
        t.get (R.HUB_FCRX_BUF_WORD (16 * k + 2)) = s.trace ∧
        (∀ j, j < 8 → t.get (R.HUB_FCRX_BUF_WORD (16 * k + 8 + j)) = leNat (((padTo 32 data).drop (4 * j)).take 4)) ∧
        SameRegs (fun a => a ≠ 0x834 ∧ (a < 0xC00 + 64 * k ∨ 0xC40 + 64 * k ≤ a)) s t ∧ SameMemory s t ∧ SameHarts s t) ∧
    (0x20 ≤ op.toNat → op.toNat ≤ 0x22 → (k + 1) % 16 = s.get R.HUB_FCRX_HEAD_HEAD →
      Completes (.fabricControlArrival env op data) s fun t =>
        t.get R.HUB_FCRX_STAT_DROPPED = min (s.get R.HUB_FCRX_STAT_DROPPED + 1) 255 ∧ t.get R.HUB_FCRX_STAT_TAIL = k ∧
        SameRegs (· ≠ 0x834) s t)) ∧
  (∀ (r : Requester) (peg : BitVec 20) (s : State), Reaches r 0x830 s →
    (peg.toNat < 65536 →
      Completes (.fcrxEnable r peg) s fun t =>
        t.get R.HUB_FCRX_CFG_PEG = peg.toNat ∧ t.get R.HUB_FCRX_CFG_EN = (if pegOwned s 0 peg.toNat then 1 else 0) ∧
        t.get R.HUB_FCRX_CFG_REFUSED = (if pegOwned s 0 peg.toNat then 0 else 1) ∧ SameRegs (· ≠ 0x830) s t ∧ SameMemory s t ∧
        SameHarts s t) ∧
    (65536 ≤ peg.toNat → exec (.fcrxEnable r peg) s = .fault (.undefinedCase 1)))

/-- Power-on, boot, firmware slots, ledger and settings. Power-on leaves a package that waits at boot step 1, with its memory lost,
its power cycle counted, and what NVM holds unchanged. A boot runs its steps in order: with slot A booted before and no failure
it has run firmware when step 5 begins, and the record of the boot is in the ledger; a second boot after a required step that
failed is attempt 2. A step that times out is marked FAILED. A staging claims the slots, takes its image in order, and ends with
the slot STAGED, or FAILED, or ABORTED with the slot EMPTY. BOOT_SLOT, LEDGER_RETRY and CFG_RESET set what they name. (R384,
R385, R386, R387, R389, R391, R392, R394, R395, R396, R398, R407.) -/
def Obligations.BootAndFirmware : Prop :=
  (∀ (node : BitVec 7) (p : Bool) (s : State),
    (s.powered = false → s.brownOut = false → s.fw = none → (∀ r ∈ s.cfgStore, r.index < 65536) → s.sumWait = none →
      Completes (.powerOn node p) s fun t =>
        t.powered = true ∧ t.tripped = false ∧ t.perst = p ∧ t.can.strap = node.toNat ∧ t.get R.HUB_BOOT_STEP = 0 ∧
        t.get R.HUB_BOOT_STATE = 0 ∧ t.get R.HUB_RESET_STAT_KIND = 2 ∧ t.get R.HUB_RESET_STAT_CAUSE = 0 ∧ (∀ k, t.byte k = 0) ∧
        t.harts = [] ∧ t.odGet 3 0 0 = ((s.cfgNewest 3 0).getD 0 + 1) % 2 ^ 32 ∧ t.slotA = s.slotA ∧ t.slotB = s.slotB ∧
        t.ledger = s.ledger ∧ t.logRecs = s.logRecs ∧ t.sumNvm = s.sumNvm ∧ t.nvmSmall = s.nvmSmall ∧ t.nvmPts = s.nvmPts) ∧
    (s.powered = true → exec (.powerOn node p) s = .next s)) ∧
  (∀ (b : BootEnv) (s : State), s.powered = true → s.tripped = false → s.packageResetting = false → s.sumWait = none →
    s.get R.HUB_BOOT_STEP = 0 → s.get R.HUB_BOOT_STATE = 0 →
    (BootsTo5 b s → Completes (.bootStart b) s fun t =>
      AtStep5 t ∧ t.perst = false ∧ t.get R.HUB_BOOT_ATTEMPT = 1 ∧ t.drs = s.drs + 1 ∧
      (∃ r : LedgerRec, t.ledger.head? = some r ∧ r.slot = 1 ∧ r.attempt = 1 ∧
        r.seq = (((s.ledger.head?).map LedgerRec.seq).getD 0 + 1) % 2 ^ 32) ∧ SameMemory s t ∧ SameHarts s t ∧ SamePorts s t) ∧
    (b.testEn = true → Completes (.bootStart b) s fun t => t.perst = false ∧ t.regs = s.regs ∧ t.ledger = s.ledger)) ∧
  (∀ (s : State) (k : Nat), s.get R.HUB_BOOT_STATE = 0 → s.get R.HUB_BOOT_STEP = k → 1 ≤ k → k ≤ 11 →
    (stepNib (s.get R.HUB_BOOT_STEPS_STEPS) k = 0xE → k ≠ 2 → k ≠ 3 → k ≠ 4 → k ≠ 7 →
      Completes .bootStepTimeout s fun t =>
        stepNib (t.get R.HUB_BOOT_STEPS_STEPS) k = 2 ∧
        (∀ j, 1 ≤ j → j ≤ 11 → j ≠ k → stepNib (t.get R.HUB_BOOT_STEPS_STEPS) j = stepNib (s.get R.HUB_BOOT_STEPS_STEPS) j) ∧
        t.get R.HUB_BOOT_STATE = 0 ∧ t.get R.HUB_BOOT_STEP = k ∧ t.bootWait = none ∧ SameRegs (· ≠ 0x108) s t ∧ SameMemory s t) ∧
    (stepNib (s.get R.HUB_BOOT_STEPS_STEPS) k = 0xE → k = 2 →
      Completes .bootStepTimeout s fun t =>
        t.mountFails = s.mountFails + 1 ∧ stepNib (t.get R.HUB_BOOT_STEPS_STEPS) 2 = 2 ∧
        t.get R.HUB_BOOT_STATE = (if 1 ≤ s.mountFails then 2 else 0) ∧ (1 ≤ s.mountFails → t.get R.HUB_BOOT_HALT = 1) ∧ SameMemory s t) ∧
    (∀ b : BootEnv, k = 2 → stepNib (s.get R.HUB_BOOT_STEPS_STEPS) k = 2 → s.fw = none → BootsTo5 b s →
      Completes (.bootRestart b) s fun t =>
        AtStep5 t ∧ t.get R.HUB_BOOT_ATTEMPT = 2 ∧ t.drs = s.drs + 1 ∧ t.harts = [] ∧ t.mountFails = 0 ∧
        (∃ r : LedgerRec, t.ledger.head? = some r ∧ r.attempt = 2))) ∧
  (∀ (tag : BitVec 16) (len : BitVec 32) (s : State), MbxFree tag 4 0x71 s → s.get (R.HUB_PERMIT_HOLDER 75) = 0 →
    (imageLength len.toNat = true →
      Completes (.fwBegin (.mbx 0 tag) len) s fun t =>
        MbxResp 0 3 tag.toNat ⟨0, 0, 0, 0, []⟩ t ∧ t.get (R.HUB_PERMIT_HOLDER 75) = 0x10A ∧
        t.fw = some { slot := 1 - s.get R.HUB_BOOT_SLOT, length := len.toNat, viaMbx := true, got := 0, header := [] } ∧
        t.get R.HUB_FW_STAT_STATE = 0 ∧ t.get R.HUB_FW_STAT_TARGET = 1 - s.get R.HUB_BOOT_SLOT ∧ t.slotA = s.slotA ∧ t.slotB = s.slotB ∧
        SameMemory s t) ∧
    (imageLength len.toNat = false →
      Completes (.fwBegin (.mbx 0 tag) len) s fun t =>
        MbxResp 0 3 tag.toNat ⟨6, 0, 0, 0, [1]⟩ t ∧ t.fw = s.fw ∧ t.get R.HUB_FW_STAT_REASON = 1)) ∧
  (∀ (tag : BitVec 16) (addr : BitVec 64) (len : BitVec 32) (s : State) (h : List Byte), MbxFree tag 4 0x70 s →
    s.get (R.HUB_PERMIT_HOLDER 75) = 0 →
    h = (List.range 256).map (fun i => match s.place (addr.toNat + i) with
      | .mem k => s.byte k
      | _ => 0) →
    (s.hbmBays ≠ [] → addr.toNat + len.toNat ≤ s.hbmBays.length * 48 * gib → headerOk h len.toNat = true →
      Completes (.fwStage (.mbx 0 tag) addr len) s fun t =>
        MbxResp 0 3 tag.toNat ⟨0, 0, 0, 0, []⟩ t ∧ t.get (R.HUB_PERMIT_HOLDER 75) = 0x10A ∧
        t.fw = some { slot := 1 - s.get R.HUB_BOOT_SLOT, length := len.toNat, viaMbx := false, got := len.toNat, header := h } ∧
        (t.imgSlot (1 - s.get R.HUB_BOOT_SLOT)).state = 0 ∧ t.imgSlot (s.get R.HUB_BOOT_SLOT) = s.imgSlot (s.get R.HUB_BOOT_SLOT) ∧
        t.get R.HUB_FW_STAT_STATE = 1 ∧ SameMemory s t) ∧
    (s.hbmBays.length * 48 * gib < addr.toNat + len.toNat →
      Completes (.fwStage (.mbx 0 tag) addr len) s fun t =>
        MbxResp 0 3 tag.toNat ⟨6, 0, 0, 0, [2]⟩ t ∧ t.fw = s.fw ∧ t.get R.HUB_FW_STAT_REASON = 2)) ∧
  (∀ (tag : BitVec 16) (off : BitVec 32) (data : List Byte) (s : State) (f : FwStaging), MbxFree tag 4 0x72 s → s.fw = some f →
    1 ≤ data.length → data.length ≤ 236 → f.viaMbx = true →
    (off.toNat = f.got → f.got + data.length ≤ f.length → f.got + data.length ≤ 65536 → f.header.length = 256 →
      Completes (.fwData (.mbx 0 tag) off data) s fun t =>
        MbxResp 0 3 tag.toNat ⟨0, 0, 0, 0, []⟩ t ∧ t.fw = some { f with got := f.got + data.length } ∧
        t.get R.HUB_FW_STAT_STATE = (if f.got + data.length = f.length then 3 else 2) ∧
        t.get R.HUB_FW_STAT_PROGRESS = (f.got + data.length) / 65536 ∧ SameMemory s t) ∧
    (off.toNat ≠ f.got →
      Completes (.fwData (.mbx 0 tag) off data) s fun t => MbxResp 0 3 tag.toNat ⟨8, 0, 0, 0, []⟩ t ∧ t.fw = some f ∧ MbxOnly 0 s t)) ∧
  (∀ (tag : BitVec 16) (s : State) (f : FwStaging), MbxFree tag 4 0x73 s → s.fw = some f → f.slot < 2 →
    Completes (.fwAbort (.mbx 0 tag)) s fun t =>
      MbxResp 0 3 tag.toNat ⟨0, 0, 0, 0, []⟩ t ∧ t.fw = none ∧ (t.imgSlot f.slot).state = 0 ∧
      t.imgSlot (1 - f.slot) = s.imgSlot (1 - f.slot) ∧ t.get R.HUB_FW_STAT_STATE = 6 ∧ t.get (R.HUB_PERMIT_HOLDER 75) = 0 ∧
      SameMemory s t) ∧
  (∀ (s : State) (f : FwStaging), s.fw = some f → f.got = f.length → f.slot < 2 → s.nvmDead = false →
    Completes (.stagingComplete true) s (fun t =>
      t.fw = none ∧ (t.imgSlot f.slot).state = 1 ∧ (t.imgSlot f.slot).length = f.length ∧
      (t.imgSlot f.slot).version = hdrFld f.header 0xC 4 ∧ t.imgSlot (1 - f.slot) = s.imgSlot (1 - f.slot) ∧
      t.get R.HUB_FW_STAT_STATE = 4 ∧ t.get (R.HUB_PERMIT_HOLDER 75) = 0 ∧ SameMemory s t ∧ SameHarts s t) ∧
    Completes (.stagingComplete false) s fun t =>
      t.fw = none ∧ t.imgSlot f.slot = s.imgSlot f.slot ∧ t.get R.HUB_FW_STAT_STATE = 5 ∧ t.get R.HUB_FW_STAT_REASON = 3 ∧
      t.get (R.HUB_PERMIT_HOLDER 75) = 0 ∧ SameMemory s t) ∧
  (∀ (tag : BitVec 16) (v : Byte) (s : State), MbxFree tag 4 0x74 s →
    (v = 1 ∨ v = 2 → Completes (.bootSlot (.mbx 0 tag) v) s fun t =>
      MbxResp 0 3 tag.toNat ⟨0, 0, 0, 0, []⟩ t ∧ t.bootFirst = some (v.toNat - 1) ∧
      (s.get R.HUB_BOOT_MODE = 0 → t.get R.HUB_FW_SLOTS_NEXT = v.toNat - 1) ∧ SameMemory s t) ∧
    (v ≠ 1 → v ≠ 2 → Completes (.bootSlot (.mbx 0 tag) v) s fun t =>
      MbxResp 0 3 tag.toNat ⟨4, 0, 0, 0, []⟩ t ∧ t.bootFirst = s.bootFirst ∧ MbxOnly 0 s t)) ∧
  (∀ (tag : BitVec 16) (u : BitVec 16) (s : State) (r : LedgerRec) (l : List LedgerRec), MbxFree tag 4 0x75 s → s.nvmDead = false →
    s.ledger = r :: l → u.toNat % 256 < kindUnits (u.toNat / 256) →
    Completes (.ledgerRetry (.mbx 0 tag) u) s fun t =>
      MbxResp 0 3 tag.toNat ⟨0, 0, 0, 0, []⟩ t ∧
      t.ledger = { r with retry := UnitMasks.zip (· ||| ·) r.retry (UnitMasks.one (u.toNat / 256) (u.toNat % 256)) } :: l ∧
      MbxOnly 0 s t) ∧
  (∀ (tag : BitVec 16) (s : State), MbxFree tag 4 0x76 s →
    (s.get (R.HUB_PERMIT_HOLDER 77) = 0x101 → s.nvmDead = false →
      Completes (.cfgReset (.mbx 0 tag)) s fun t =>
        MbxResp 0 3 tag.toNat ⟨0, 0, 0, 0, []⟩ t ∧ t.setting 3 = 1000 ∧ t.setting 0x20 = 0 ∧ t.setting 0x21 = 0 ∧
        t.setting 0x40 = 0xFFE ∧ t.get R.HUB_ALERT_EN_EN = 0xFFE ∧ t.setting 1 = s.setting 1 ∧ t.setting 0x10 = s.setting 0x10 ∧
        t.cfgNewest 1 3 = some 1000 ∧ SameMemory s t) ∧
    (s.get (R.HUB_PERMIT_HOLDER 77) = 0 →
      Completes (.cfgReset (.mbx 0 tag)) s fun t =>
        MbxResp 0 3 tag.toNat ⟨6, 0, 0, 0, [2]⟩ t ∧ (∀ i, i < 65536 → t.setting i = s.setting i) ∧ t.cfgStore = s.cfgStore)) ∧
  (∀ s : State,
    (s.nvmDead = false → Completes .operSecondsSave s fun t => t.cfgNewest 3 1 = some (s.odGet 3 1 0) ∧ t.regs = s.regs ∧ SameMemory s t) ∧
    (s.nvmDead = true → exec .operSecondsSave s = .next s))

/-- The Logbook: buffer, records, window and clear. A record joins the buffer under the next number, or is dropped and counted when
the buffer is full or recording has stopped. The oldest buffered record is programmed at HEAD; a write that fails stops
recording with cause NVM and keeps the buffer. LOG_CUR sets the window's index and clears READY; the window then shows the four
records from there, zeros beyond HEAD. A clear claims the Logbook; complete, it leaves the record of the clear as number 0 and
the records that waited after it; failed, it stops recording. (R399, R400, R401, R402, R352.) -/
def Obligations.LogbookRecords : Prop :=
  (∀ (ev : LogEvent) (s : State),
    (LogOpen s → s.logSeq + 1 ≠ 131072 →
      Completes (.logRecord ev) s fun t =>
        t.logBuf = s.logBuf ++
          [{ seq := s.logSeq, operS := s.odGet 3 1 0, pcycle := s.odGet 3 0 0 % 2 ^ 24, severity := ev.severity.toNat,
             source := ev.source.toNat, code := ev.code.toNat, flags := ev.flags.toNat, payload := padTo 40 ev.payload }] ∧ t.logSeq = s.logSeq + 1 ∧ t.get R.LOG_STAT_PENDING = s.logBuf.length + 1 ∧
        SameRegs (· ≠ 0x940004) s t ∧ SameMemory s t ∧ SameHarts s t) ∧
    (LogOpen s → s.logSeq + 1 = 131072 → s.get R.LOG_STAT_CLEARING = 0 →
      Completes (.logRecord ev) s fun t =>
        t.logBuf.length = s.logBuf.length + 1 ∧ t.get R.LOG_STAT_FULL = 1 ∧ t.get R.LOG_STAT_CAUSE = 0 ∧ t.bit (alertFld 5) = true) ∧
    (256 ≤ s.logBuf.length ∨ s.get R.LOG_STAT_FULL = 1 ∧ s.get R.LOG_STAT_CLEARING = 0 →
      exec (.logRecord ev) s = .next (s.incSat R.LOG_DROPPED_COUNT))) ∧
  (∀ (s : State) (r : LogRec) (l : List LogRec), s.get R.LOG_STAT_CLEARING = 0 → s.get R.LOG_STAT_FULL = 0 ∨ s.get R.LOG_STAT_CAUSE = 0 →
    s.logBuf = r :: l → s.nvmDead = false →
    Completes (.logRecordWrite true) s (fun t =>
      t.logRecs = s.logRecs ++ [r] ∧ t.logBuf = l ∧ t.get R.LOG_HEAD_HEAD = (s.logRecs.length + 1) % 2 ^ 18 ∧
      t.get R.LOG_STAT_PENDING = l.length % 512 ∧ t.logSeq = s.logSeq ∧ SameRegs (fun a => a ≠ 0x940000 ∧ a ≠ 0x940004) s t ∧
      SameMemory s t) ∧
    Completes (.logRecordWrite false) s fun t =>
      t.logRecs = s.logRecs ∧ t.logBuf = s.logBuf ∧ t.get R.LOG_STAT_FULL = 1 ∧ t.get R.LOG_STAT_CAUSE = 1 ∧
      t.bit (alertFld 5) = true ∧ SameMemory s t) ∧
  (∀ (r : Requester) (i : BitVec 17) (s : State), Reaches r 0x940010 s →
    Completes (.logCurWrite r i) s fun t =>
      t.get R.LOG_CUR_INDEX = i.toNat ∧ t.get R.LOG_CUR_READY = 0 ∧ SameRegs (· ≠ 0x940010) s t ∧ SameMemory s t) ∧
  (∀ s : State,
    Completes .logWindowReady s fun t =>
      t.get R.LOG_CUR_READY = 1 ∧
      (∀ k w, k < 4 → w < 16 → t.get (R.LOG_WIN_WORD (16 * k + w)) =
        if s.get R.LOG_CUR_INDEX + k < s.get R.LOG_HEAD_HEAD then
          (match s.logRecs[s.get R.LOG_CUR_INDEX + k]? with
            | some r => leNat (((logBytes r).drop (4 * w)).take 4)
            | none => 0)
        else 0) ∧
      t.get R.LOG_CUR_INDEX = s.get R.LOG_CUR_INDEX ∧ SameRegs (fun a => a ≠ 0x940010 ∧ (a < 0x940100 ∨ 0x940200 ≤ a)) s t ∧
      SameMemory s t) ∧
  (∀ (tag : BitVec 16) (s : State), MbxFree tag 4 0x80 s →
    (s.get (R.HUB_PERMIT_HOLDER 76) = 0 →
      Completes (.logClear (.mbx 0 tag)) s fun t =>
        MbxResp 0 3 tag.toNat ⟨0, 0, 0, 0, []⟩ t ∧ t.get R.LOG_STAT_CLEARING = 1 ∧ t.get (R.HUB_PERMIT_HOLDER 76) = 0x10B ∧
        t.logRecs = s.logRecs ∧ t.logBuf = s.logBuf ∧ SameMemory s t) ∧
    (∀ g, s.get (R.HUB_PERMIT_HOLDER 76) = g → g ≠ 0 →
      Completes (.logClear (.mbx 0 tag)) s fun t => MbxResp 0 3 tag.toNat ⟨5, g, 76, 0, []⟩ t ∧ MbxOnly 0 s t)) ∧
  (∀ s : State, s.get R.LOG_STAT_CLEARING = 1 → s.nvmDead = false →
    Completes (.logClearComplete true) s (fun t =>
      t.logRecs = [] ∧ t.get R.LOG_HEAD_HEAD = 0 ∧ t.get R.LOG_HEAD_CLEARS = (s.get R.LOG_HEAD_CLEARS + 1) % 256 ∧
      t.get R.LOG_STAT_FULL = 0 ∧ t.get R.LOG_DROPPED_COUNT = 0 ∧ t.get R.LOG_STAT_CLEARING = 0 ∧
      t.get (R.HUB_PERMIT_HOLDER 76) = 0 ∧ t.logBuf.length = s.logBuf.length + 1 ∧
      (∀ (i : Nat) (r : LogRec), t.logBuf[i]? = some r → r.seq = i) ∧ (t.logBuf.head?).map LogRec.code = some 6 ∧
      t.logBuf.tail.map LogRec.payload = s.logBuf.map LogRec.payload ∧ t.logSeq = s.logBuf.length + 1 ∧ SameMemory s t ∧ SameHarts s t) ∧
    Completes (.logClearComplete false) s fun t =>
      t.get R.LOG_STAT_CLEARING = 0 ∧ t.get R.LOG_STAT_FULL = 1 ∧ t.get R.LOG_STAT_CAUSE = 1 ∧ t.get (R.HUB_PERMIT_HOLDER 76) = 0 ∧
      t.logRecs = s.logRecs ∧ SameMemory s t) ∧
  (∀ (ok : Bool) (s : State), s.get R.LOG_STAT_CLEARING = 0 → exec (.logClearComplete ok) s = .next s)

/-- Power domains, caps, shutdowns, die faults and the link clock. A power domain that may be switched goes off with its units:
engines OFF, ports not UP, lasers dark; it comes back ON. PD23 going off while a laser is lit is the undefined case 5, and
domains that EN does not switch stay. A lost regulator leaves its domains in FAULT. The cap controller steps the clock of a
compute die down while its power is above the cap, and reports the power. A brown-out leaves the package without power and
memory. A die at its warning limit is flagged, and at its trip limit trips the package. A compute die that fails stops its bay;
NOR flash that fails stops the Logbook. Without LINK_REFCLK the CAN controller is OFF. (R33, R35, R38, R317, R344, R408, R409,
R410, R413, R414, R415.) -/
def Obligations.PowerAndHeat : Prop :=
  (∀ (r : Requester) (d : PwrDom) (s : State), Reaches r (0x980000 + 4 * d.val) s → Quiet s →
    (switchable d.val = true → s.get (R.PWR_DOM_EN d) = 1 → s.get (R.PWR_DOM_STATE d) ≠ 3 → ¬(d.val = 23 ∧ s.anyLit = true) →
      Completes (.powerDomainOff r d) s fun t =>
        t.get (R.PWR_DOM_EN d) = 0 ∧ t.get (R.PWR_DOM_STATE d) = 0 ∧
        (11 ≤ d.val → d.val ≤ 14 → ∀ i, i < 4 → s.engMarked (4 * (d.val - 11) + i) = false → t.engState (4 * (d.val - 11) + i) = 0) ∧
        (15 ≤ d.val → d.val ≤ 18 → ∀ i, i < 8 → t.portUp (8 * (d.val - 15) + i) = false) ∧
        (19 ≤ d.val → d.val ≤ 20 → ∀ i, i < 4 → t.las (4 * (d.val - 19) + i) = 0 ∨ t.las (4 * (d.val - 19) + i) = 4) ∧
        SameMemory s t ∧ SameHarts s t) ∧
    (d.val = 23 → s.get (R.PWR_DOM_EN d) = 1 → s.anyLit = true → exec (.powerDomainOff r d) s = .fault (.undefinedCase 5)) ∧
    (switchable d.val = true → s.get (R.PWR_DOM_EN d) = 0 → s.get (R.PWR_DOM_STATE d) ≠ 3 →
      Completes (.powerDomainOn r d) s fun t =>
        t.get (R.PWR_DOM_EN d) = 1 ∧ t.get (R.PWR_DOM_STATE d) = 2 ∧
        (11 ≤ d.val → d.val ≤ 14 → ∀ i, i < 4 → s.engState (4 * (d.val - 11) + i) = 0 → s.engMarked (4 * (d.val - 11) + i) = false →
          t.engState (4 * (d.val - 11) + i) = 1) ∧ SameMemory s t ∧ SameHarts s t) ∧
    (switchable d.val = false → exec (.powerDomainOff r d) s = .next { s with trip := none } ∧
      exec (.powerDomainOn r d) s = .next { s with trip := none })) ∧
  (∀ (i : Fin 15) (s : State), Quiet s →
    Completes (.ivrFault i) s fun t =>
      (∀ d ∈ ivrDomains i, t.get (R.PWR_DOM_STATE d) = 3) ∧ (∀ d, d < 24 → d ∉ ivrDomains i →
        t.get (R.PWR_DOM_STATE d) = s.get (R.PWR_DOM_STATE d)) ∧ (i.val < 8 → t.bayRuns i = false) ∧ SameMemory s t ∧ SameHarts s t) ∧
  (∀ (d : PwrDom) (avg : Nat) (s : State), avg < 65536 →
    Completes (.capControlTick d avg) s fun t =>
      t.get (R.PWR_MEAS_POWER d) = avg ∧ (d.val < 3 → t.caps = s.caps) ∧
      (3 ≤ d.val → d.val ≤ 10 → (s.capCtl d).hold ≤ 1 → min 260 (s.get (R.PWR_CAP_CAP_W d)) * 10 < avg →
        (s.capCtl d).clock < s.target d - 12 → t.get (R.PWR_MEAS_FCLK d) = s.target d - ((s.capCtl d).clock + 1)) ∧
      (3 ≤ d.val → d.val ≤ 10 → 1 < (s.capCtl d).hold → (s.capCtl d).clock ≤ s.target d - 12 →
        t.get (R.PWR_MEAS_FCLK d) = s.target d - (s.capCtl d).clock) ∧
      SameRegs (fun a => a ≠ 0x980000 + 4 * d.val ∧ a ≠ 0x980200 + 4 * d.val) s t ∧ SameMemory s t ∧ SameHarts s t) ∧
  (∀ s : State,
    (s.powered = true → Completes .brownOut s fun t =>
      t.powered = false ∧ (∀ k, t.byte k = 0) ∧ t.harts = [] ∧ t.logBuf = [] ∧ t.pcieLink = none ∧
      (∀ d, d < 24 → t.get (R.PWR_DOM_STATE d) = 0) ∧ (∀ p, p < 32 → t.portUp p = false) ∧ t.logRecs = s.logRecs ∧
      t.cfgStore = s.cfgStore ∧ t.ledger = s.ledger) ∧
    (s.powered = false → exec .brownOut s = .next s)) ∧
  (∀ (i : Die) (v : Int) (s : State), s.powered = true → -32768 ≤ v → v < 32768 →
    (v < warnLimit i * 256 → (∀ l, tripLimit i = some l → v < l * 256) →
      Completes (.tempSample i v) s fun t =>
        t.dieTemp i = v ∧ t.get (R.PWR_TEMP_WARN i) = s.get (R.PWR_TEMP_WARN i) ∧ SameRegs (· ≠ 0x980400 + 4 * i.val) s t ∧
        SameMemory s t ∧ SameHarts s t) ∧
    (warnLimit i * 256 ≤ v → (∀ l, tripLimit i = some l → v < l * 256) →
      Completes (.tempSample i v) s fun t =>
        t.dieTemp i = v ∧ t.get (R.PWR_TEMP_WARN i) = 1 ∧ t.bit (alertFld 0) = true ∧ t.tripped = s.tripped ∧
        t.odGet 3 0x102 0 = (if s.dieTemp i < warnLimit i * 256 then (s.odGet 3 0x102 0 + 1) % 2 ^ 32 else s.odGet 3 0x102 0) ∧
        SameMemory s t ∧ SameHarts s t) ∧
    (∀ l, tripLimit i = some l → l * 256 ≤ v → s.tripped = false →
      Completes (.tempSample i v) s fun t =>
        t.tripped = true ∧ (∀ k, t.byte k = 0) ∧ t.harts = [] ∧ t.pcieLink = none ∧ (∀ d, 1 ≤ d → d < 24 → t.get (R.PWR_DOM_STATE d) = 0) ∧
        t.odGet 3 0x100 0 = (s.odGet 3 0x100 0 + 1) % 2 ^ 32)) ∧
  (∀ s : State, Quiet s →
    (∀ b : Bay, Completes (.dieFault (.compute b)) s fun t =>
      t.bayRuns b = false ∧ (∀ n : Nat, n ≠ b.val → t.bayDead n = s.bayDead n) ∧ SameMemory s t ∧ SameHarts s t ∧ SamePorts s t) ∧
    Completes (.dieFault .nor) s (fun t =>
      t.nvmDead = true ∧ t.get R.LOG_STAT_FULL = 1 ∧ t.get R.LOG_STAT_CAUSE = 1 ∧ SameMemory s t ∧ SameHarts s t ∧ SameEngines s t)) ∧
  (∀ (present : Bool) (s : State), s.bootWait = none →
    Completes (.linkRefclkChange present) s fun t =>
      t.refclk = present ∧ (present = false → t.get R.HUB_CAN_STAT_STATE = 0 ∧ t.can.txq = [] ∧ t.can.txn = none) ∧
      (present = true → s.get R.HUB_CAN_STAT_STATE = 0 → s.feature 1 = true → s.get R.HUB_CAN_STAT_NODE ≠ 0 →
        t.get R.HUB_CAN_STAT_STATE = 1) ∧ SameRegs (· ≠ 0x308) s t ∧ SameMemory s t ∧ SameHarts s t)

/-- HUB_DRV_LEVEL is written once for each package reset. The first write of HUB_DRV_LEVEL, of any value, sets the effective level
to the lesser of that value, at least 1, and HUB_ARCH_LEVEL. Later writes are ignored and counted in LEVEL_IGNORED. VF_ID shows
the effective level to every VF, and the TRAIN bodies of Usius training carry it. A package reset lets the level be written
again. (R330.) -/
def Obligations.DriverLevel : Prop :=
  (∀ (r : Requester) (v : BitVec 32) (s : State), IsPf r → Reaches r 0x8 s → v.toNat < 16 →
    (s.get R.HUB_LEVEL_STAT_WRITTEN = 0 →
      Completes (.hubDrvLevelWrite r v) s (fun t =>
        t.get R.HUB_LEVEL_STAT_EFFECTIVE = min (max v.toNat 1) (s.get R.HUB_ARCH_LEVEL) ∧ t.get R.HUB_LEVEL_STAT_WRITTEN = 1 ∧
        t.get R.HUB_ACCESS_STAT_LEVEL_IGNORED = s.get R.HUB_ACCESS_STAT_LEVEL_IGNORED) ∧
      Completes (.registerWrite r 0x8 (leBytes 4 v.toNat)) s fun t =>
        t.get R.HUB_LEVEL_STAT_EFFECTIVE = min (max v.toNat 1) (s.get R.HUB_ARCH_LEVEL) ∧ t.get R.HUB_LEVEL_STAT_WRITTEN = 1) ∧
    (s.get R.HUB_LEVEL_STAT_WRITTEN = 1 →
      Completes (.hubDrvLevelWrite r v) s (fun t =>
        t.get R.HUB_ACCESS_STAT_LEVEL_IGNORED = min (s.get R.HUB_ACCESS_STAT_LEVEL_IGNORED + 1) (2 ^ R.HUB_ACCESS_STAT_LEVEL_IGNORED.width - 1) ∧
        SameRegs (· ≠ R.HUB_ACCESS_STAT_LEVEL_IGNORED.addr) s t) ∧
      Completes (.registerWrite r 0x8 (leBytes 4 v.toNat)) s fun t =>
        t.get R.HUB_ACCESS_STAT_LEVEL_IGNORED = min (s.get R.HUB_ACCESS_STAT_LEVEL_IGNORED + 1) (2 ^ R.HUB_ACCESS_STAT_LEVEL_IGNORED.width - 1) ∧
        SameRegs (· ≠ R.HUB_ACCESS_STAT_LEVEL_IGNORED.addr) s t)) ∧
  (∀ (f : Fn) (s : State), f ≠ 0 → Reaches (.fn f) (0x10000000 * f.val) s →
    Completes (.rcFieldRead (.fn f) 0 4) s fun t =>
      ∃ w : Nat, t.reply = .data (leBytes 4 w) ∧ w < 2 ^ 32 ∧ nfld w 8 4 = s.get R.HUB_LEVEL_STAT_EFFECTIVE) ∧
  (∀ (p lines : Nat) (light : Bool) (s : State),
    ∃ f y : List Byte, (sendTrain p lines light s).wire = s.wire ++ [(p, f)] ∧ readFrame f = some (.body y) ∧
      (readTrain (leNat (y.take 8)) (leNat ((y.drop 8).take 8))).level.toNat = s.get R.HUB_LEVEL_STAT_EFFECTIVE) ∧
  (∀ (s : State) (x : Nat × List (Nat × Byte)), s.sumWait = some x → s.packageResetting = true → s.get R.HUB_RESET_STAT_PHASE = 2 →
    s.presetBusy = false → s.nvmDead = false →
    Completes (.summaryWritten true) s fun t => t.get R.HUB_LEVEL_STAT_WRITTEN = 0 ∧ t.get R.HUB_LEVEL_STAT_EFFECTIVE = 1)

/-- The CAN node number and when it changes. The number in force is OD 1.0001 if that is non-zero, otherwise NODE_ID as PD0 sampled
it when it powered up. A write of OD 1.0001 leaves the number in force; CAN_RESTART and a package reset put the new one in
force. HUB_CAN_STAT.NODE shows it. (R346.) -/
def Obligations.NodeNumber : Prop :=
  (∀ (node : BitVec 7) (p : Bool) (s : State), s.powered = false →
    Completes (.powerOn node p) s fun t =>
      t.can.strap = node.toNat ∧ t.get R.HUB_CAN_STAT_NODE = if t.odGet 1 1 0 = 0 then node.toNat else t.odGet 1 1 0 % 128) ∧
  (∀ (h : MbxHdr) (v : Byte) (s : State), h.area = 1 → h.index = 1 → h.offset = 0 → h.length = 1 → v.toNat < 128 → MbxTakes 0 2 1 1 s →
    s.get (R.HUB_PERMIT_HOLDER 77) = 0 → s.nvmDead = false →
    Completes (.mbxWrite 0 h [v]) s fun t =>
      t.odGet 1 1 0 = v.toNat ∧ t.get R.HUB_CAN_STAT_NODE = s.get R.HUB_CAN_STAT_NODE ∧ t.can.strap = s.can.strap) ∧
  (∀ (tag : BitVec 16) (s : State), MbxFree tag 4 0x60 s →
    Completes (.canRestart (.mbx 0 tag)) s fun t =>
      t.get R.HUB_CAN_STAT_NODE = (if s.odGet 1 1 0 = 0 then s.can.strap else s.odGet 1 1 0) % 128 ∧ t.odGet 1 1 0 = s.odGet 1 1 0 ∧
      t.can.strap = s.can.strap) ∧
  (∀ (n : BitVec 7) (s : State), CanOn s → n = 0 ∨ n.toNat = s.get R.HUB_CAN_STAT_NODE →
    Completes (.nmtResume n) s fun t =>
      t.get R.HUB_CAN_STAT_NODE = (if s.odGet 1 1 0 = 0 then s.can.strap else s.odGet 1 1 0) % 128) ∧
  (∀ (s : State) (x : Nat × List (Nat × Byte)), s.sumWait = some x → s.packageResetting = true → s.get R.HUB_RESET_STAT_PHASE = 2 →
    s.presetBusy = false → s.nvmDead = false →
    Completes (.summaryWritten true) s fun t =>
      t.get R.HUB_CAN_STAT_NODE = (if s.odGet 1 1 0 = 0 then s.can.strap else s.odGet 1 1 0) % 128 ∧ t.odGet 1 1 0 = s.odGet 1 1 0 ∧
      t.can.strap = s.can.strap)
end

