-- ==== Sys2Proof/Laws/State.lean ====
section
/-!
SUPPORT. What each named update of the state leaves unchanged, field by field, so that no proof unfolds a record update.
-/

namespace Sys2Proof.Machine

/-- `set` changes only `regs`. -/
@[simp] theorem State.set_frame (s : State) (f : Fld) (v : Nat) :
    (s.set f v).mem = s.mem ∧ (s.set f v).poison = s.poison ∧ (s.set f v).freeCnt = s.freeCnt ∧ (s.set f v).trip = s.trip ∧
    (s.set f v).reply = s.reply ∧ (s.set f v).ftime = s.ftime ∧ (s.set f v).latches = s.latches ∧ (s.set f v).fnCfg = s.fnCfg ∧
    (s.set f v).vfEnable = s.vfEnable ∧ (s.set f v).numVfs = s.numVfs ∧ (s.set f v).pcieLink = s.pcieLink ∧
    (s.set f v).msix = s.msix ∧ (s.set f v).aer = s.aer ∧ (s.set f v).drs = s.drs ∧ (s.set f v).logBuf = s.logBuf ∧
    (s.set f v).logRecs = s.logRecs ∧ (s.set f v).logSeq = s.logSeq ∧ (s.set f v).od = s.od ∧ (s.set f v).can = s.can ∧
    (s.set f v).harts = s.harts ∧ (s.set f v).badWords = s.badWords ∧ (s.set f v).hbmBays = s.hbmBays ∧
    (s.set f v).wprot = s.wprot ∧ (s.set f v).atc = s.atc ∧ (s.set f v).inval = s.inval ∧ (s.set f v).fabricOut = s.fabricOut ∧
    (s.set f v).stale = s.stale ∧ (s.set f v).doneAt = s.doneAt ∧ (s.set f v).blkCmd = s.blkCmd ∧ (s.set f v).upHeld = s.upHeld ∧
    (s.set f v).upSent = s.upSent ∧ (s.set f v).timedWait = s.timedWait ∧ (s.set f v).engs = s.engs ∧ (s.set f v).fbq = s.fbq ∧
    (s.set f v).tileNo = s.tileNo ∧ (s.set f v).queues = s.queues ∧ (s.set f v).dispSeq = s.dispSeq ∧
    (s.set f v).calPts = s.calPts ∧ (s.set f v).calMask = s.calMask ∧ (s.set f v).calSmall = s.calSmall ∧
    (s.set f v).nvmPts = s.nvmPts ∧ (s.set f v).nvmMask = s.nvmMask ∧ (s.set f v).nvmSmall = s.nvmSmall ∧
    (s.set f v).nvmInfo = s.nvmInfo ∧ (s.set f v).scbQueue = s.scbQueue ∧ (s.set f v).scbRun = s.scbRun ∧
    (s.set f v).ports = s.ports ∧ (s.set f v).transit = s.transit ∧ (s.set f v).wire = s.wire ∧
    (s.set f v).gangDrain = s.gangDrain ∧ (s.set f v).pairsOut = s.pairsOut ∧ (s.set f v).slcPlan = s.slcPlan ∧
    (s.set f v).actDue = s.actDue ∧ (s.set f v).shuttered = s.shuttered ∧ (s.set f v).relight = s.relight ∧
    (s.set f v).doms = s.doms ∧ (s.set f v).awayPrimary = s.awayPrimary ∧ (s.set f v).cycles = s.cycles ∧
    (s.set f v).holdFrom = s.holdFrom ∧ (s.set f v).ppsGood = s.ppsGood ∧ (s.set f v).ppsOut = s.ppsOut ∧
    (s.set f v).loops = s.loops ∧ (s.set f v).ringInit = s.ringInit ∧ (s.set f v).ringAcq = s.ringAcq ∧
    (s.set f v).ringHeld = s.ringHeld ∧ (s.set f v).lasTarget = s.lasTarget ∧ (s.set f v).takeovers = s.takeovers ∧
    (s.set f v).verifyLeft = s.verifyLeft ∧ (s.set f v).ringFails = s.ringFails ∧ (s.set f v).deadDies = s.deadDies ∧
    (s.set f v).refclk = s.refclk ∧ (s.set f v).perst = s.perst ∧ (s.set f v).powered = s.powered ∧
    (s.set f v).tripped = s.tripped ∧ (s.set f v).brownOut = s.brownOut ∧ (s.set f v).slotA = s.slotA ∧
    (s.set f v).slotB = s.slotB ∧ (s.set f v).fw = s.fw ∧ (s.set f v).bootFirst = s.bootFirst ∧ (s.set f v).ledger = s.ledger ∧
    (s.set f v).mountFails = s.mountFails ∧ (s.set f v).cfgStore = s.cfgStore ∧ (s.set f v).intents = s.intents ∧
    (s.set f v).sumNvm = s.sumNvm ∧ (s.set f v).sumWait = s.sumWait ∧ (s.set f v).dumpSeq = s.dumpSeq ∧
    (s.set f v).dumpBays = s.dumpBays ∧ (s.set f v).dumpSlot = s.dumpSlot ∧ (s.set f v).presetBusy = s.presetBusy ∧
    (s.set f v).bootWait = s.bootWait ∧ (s.set f v).caps = s.caps ∧ (s.set f v).pending = s.pending := by
  and_intros <;> rfl

/-- `setBit` changes only `regs`. -/
@[simp] theorem State.setBit_frame (s : State) (f : Fld) (b : Bool) :
    (s.setBit f b).mem = s.mem ∧ (s.setBit f b).poison = s.poison ∧ (s.setBit f b).freeCnt = s.freeCnt ∧
    (s.setBit f b).trip = s.trip ∧ (s.setBit f b).reply = s.reply ∧ (s.setBit f b).ftime = s.ftime ∧
    (s.setBit f b).latches = s.latches ∧ (s.setBit f b).fnCfg = s.fnCfg ∧ (s.setBit f b).vfEnable = s.vfEnable ∧
    (s.setBit f b).numVfs = s.numVfs ∧ (s.setBit f b).pcieLink = s.pcieLink ∧ (s.setBit f b).msix = s.msix ∧
    (s.setBit f b).aer = s.aer ∧ (s.setBit f b).drs = s.drs ∧ (s.setBit f b).logBuf = s.logBuf ∧
    (s.setBit f b).logRecs = s.logRecs ∧ (s.setBit f b).logSeq = s.logSeq ∧ (s.setBit f b).od = s.od ∧
    (s.setBit f b).can = s.can ∧ (s.setBit f b).harts = s.harts ∧ (s.setBit f b).badWords = s.badWords ∧
    (s.setBit f b).hbmBays = s.hbmBays ∧ (s.setBit f b).wprot = s.wprot ∧ (s.setBit f b).atc = s.atc ∧
    (s.setBit f b).inval = s.inval ∧ (s.setBit f b).fabricOut = s.fabricOut ∧ (s.setBit f b).stale = s.stale ∧
    (s.setBit f b).doneAt = s.doneAt ∧ (s.setBit f b).blkCmd = s.blkCmd ∧ (s.setBit f b).upHeld = s.upHeld ∧
    (s.setBit f b).upSent = s.upSent ∧ (s.setBit f b).timedWait = s.timedWait ∧ (s.setBit f b).engs = s.engs ∧
    (s.setBit f b).fbq = s.fbq ∧ (s.setBit f b).tileNo = s.tileNo ∧ (s.setBit f b).queues = s.queues ∧
    (s.setBit f b).dispSeq = s.dispSeq ∧ (s.setBit f b).calPts = s.calPts ∧ (s.setBit f b).calMask = s.calMask ∧
    (s.setBit f b).calSmall = s.calSmall ∧ (s.setBit f b).nvmPts = s.nvmPts ∧ (s.setBit f b).nvmMask = s.nvmMask ∧
    (s.setBit f b).nvmSmall = s.nvmSmall ∧ (s.setBit f b).nvmInfo = s.nvmInfo ∧ (s.setBit f b).scbQueue = s.scbQueue ∧
    (s.setBit f b).scbRun = s.scbRun ∧ (s.setBit f b).ports = s.ports ∧ (s.setBit f b).transit = s.transit ∧
    (s.setBit f b).wire = s.wire ∧ (s.setBit f b).gangDrain = s.gangDrain ∧ (s.setBit f b).pairsOut = s.pairsOut ∧
    (s.setBit f b).slcPlan = s.slcPlan ∧ (s.setBit f b).actDue = s.actDue ∧ (s.setBit f b).shuttered = s.shuttered ∧
    (s.setBit f b).relight = s.relight ∧ (s.setBit f b).doms = s.doms ∧ (s.setBit f b).awayPrimary = s.awayPrimary ∧
    (s.setBit f b).cycles = s.cycles ∧ (s.setBit f b).holdFrom = s.holdFrom ∧ (s.setBit f b).ppsGood = s.ppsGood ∧
    (s.setBit f b).ppsOut = s.ppsOut ∧ (s.setBit f b).loops = s.loops ∧ (s.setBit f b).ringInit = s.ringInit ∧
    (s.setBit f b).ringAcq = s.ringAcq ∧ (s.setBit f b).ringHeld = s.ringHeld ∧ (s.setBit f b).lasTarget = s.lasTarget ∧
    (s.setBit f b).takeovers = s.takeovers ∧ (s.setBit f b).verifyLeft = s.verifyLeft ∧ (s.setBit f b).ringFails = s.ringFails ∧
    (s.setBit f b).deadDies = s.deadDies ∧ (s.setBit f b).refclk = s.refclk ∧ (s.setBit f b).perst = s.perst ∧
    (s.setBit f b).powered = s.powered ∧ (s.setBit f b).tripped = s.tripped ∧ (s.setBit f b).brownOut = s.brownOut ∧
    (s.setBit f b).slotA = s.slotA ∧ (s.setBit f b).slotB = s.slotB ∧ (s.setBit f b).fw = s.fw ∧
    (s.setBit f b).bootFirst = s.bootFirst ∧ (s.setBit f b).ledger = s.ledger ∧ (s.setBit f b).mountFails = s.mountFails ∧
    (s.setBit f b).cfgStore = s.cfgStore ∧ (s.setBit f b).intents = s.intents ∧ (s.setBit f b).sumNvm = s.sumNvm ∧
    (s.setBit f b).sumWait = s.sumWait ∧ (s.setBit f b).dumpSeq = s.dumpSeq ∧ (s.setBit f b).dumpBays = s.dumpBays ∧
    (s.setBit f b).dumpSlot = s.dumpSlot ∧ (s.setBit f b).presetBusy = s.presetBusy ∧ (s.setBit f b).bootWait = s.bootWait ∧
    (s.setBit f b).caps = s.caps ∧ (s.setBit f b).pending = s.pending := by
  and_intros <;> rfl

/-- `incWrap` changes only `regs`. -/
@[simp] theorem State.incWrap_frame (s : State) (f : Fld) (n : Nat) :
    (s.incWrap f n).mem = s.mem ∧ (s.incWrap f n).poison = s.poison ∧ (s.incWrap f n).freeCnt = s.freeCnt ∧
    (s.incWrap f n).trip = s.trip ∧ (s.incWrap f n).reply = s.reply ∧ (s.incWrap f n).ftime = s.ftime ∧
    (s.incWrap f n).latches = s.latches ∧ (s.incWrap f n).fnCfg = s.fnCfg ∧ (s.incWrap f n).vfEnable = s.vfEnable ∧
    (s.incWrap f n).numVfs = s.numVfs ∧ (s.incWrap f n).pcieLink = s.pcieLink ∧ (s.incWrap f n).msix = s.msix ∧
    (s.incWrap f n).aer = s.aer ∧ (s.incWrap f n).drs = s.drs ∧ (s.incWrap f n).logBuf = s.logBuf ∧
    (s.incWrap f n).logRecs = s.logRecs ∧ (s.incWrap f n).logSeq = s.logSeq ∧ (s.incWrap f n).od = s.od ∧
    (s.incWrap f n).can = s.can ∧ (s.incWrap f n).harts = s.harts ∧ (s.incWrap f n).badWords = s.badWords ∧
    (s.incWrap f n).hbmBays = s.hbmBays ∧ (s.incWrap f n).wprot = s.wprot ∧ (s.incWrap f n).atc = s.atc ∧
    (s.incWrap f n).inval = s.inval ∧ (s.incWrap f n).fabricOut = s.fabricOut ∧ (s.incWrap f n).stale = s.stale ∧
    (s.incWrap f n).doneAt = s.doneAt ∧ (s.incWrap f n).blkCmd = s.blkCmd ∧ (s.incWrap f n).upHeld = s.upHeld ∧
    (s.incWrap f n).upSent = s.upSent ∧ (s.incWrap f n).timedWait = s.timedWait ∧ (s.incWrap f n).engs = s.engs ∧
    (s.incWrap f n).fbq = s.fbq ∧ (s.incWrap f n).tileNo = s.tileNo ∧ (s.incWrap f n).queues = s.queues ∧
    (s.incWrap f n).dispSeq = s.dispSeq ∧ (s.incWrap f n).calPts = s.calPts ∧ (s.incWrap f n).calMask = s.calMask ∧
    (s.incWrap f n).calSmall = s.calSmall ∧ (s.incWrap f n).nvmPts = s.nvmPts ∧ (s.incWrap f n).nvmMask = s.nvmMask ∧
    (s.incWrap f n).nvmSmall = s.nvmSmall ∧ (s.incWrap f n).nvmInfo = s.nvmInfo ∧ (s.incWrap f n).scbQueue = s.scbQueue ∧
    (s.incWrap f n).scbRun = s.scbRun ∧ (s.incWrap f n).ports = s.ports ∧ (s.incWrap f n).transit = s.transit ∧
    (s.incWrap f n).wire = s.wire ∧ (s.incWrap f n).gangDrain = s.gangDrain ∧ (s.incWrap f n).pairsOut = s.pairsOut ∧
    (s.incWrap f n).slcPlan = s.slcPlan ∧ (s.incWrap f n).actDue = s.actDue ∧ (s.incWrap f n).shuttered = s.shuttered ∧
    (s.incWrap f n).relight = s.relight ∧ (s.incWrap f n).doms = s.doms ∧ (s.incWrap f n).awayPrimary = s.awayPrimary ∧
    (s.incWrap f n).cycles = s.cycles ∧ (s.incWrap f n).holdFrom = s.holdFrom ∧ (s.incWrap f n).ppsGood = s.ppsGood ∧
    (s.incWrap f n).ppsOut = s.ppsOut ∧ (s.incWrap f n).loops = s.loops ∧ (s.incWrap f n).ringInit = s.ringInit ∧
    (s.incWrap f n).ringAcq = s.ringAcq ∧ (s.incWrap f n).ringHeld = s.ringHeld ∧ (s.incWrap f n).lasTarget = s.lasTarget ∧
    (s.incWrap f n).takeovers = s.takeovers ∧ (s.incWrap f n).verifyLeft = s.verifyLeft ∧
    (s.incWrap f n).ringFails = s.ringFails ∧ (s.incWrap f n).deadDies = s.deadDies ∧ (s.incWrap f n).refclk = s.refclk ∧
    (s.incWrap f n).perst = s.perst ∧ (s.incWrap f n).powered = s.powered ∧ (s.incWrap f n).tripped = s.tripped ∧
    (s.incWrap f n).brownOut = s.brownOut ∧ (s.incWrap f n).slotA = s.slotA ∧ (s.incWrap f n).slotB = s.slotB ∧
    (s.incWrap f n).fw = s.fw ∧ (s.incWrap f n).bootFirst = s.bootFirst ∧ (s.incWrap f n).ledger = s.ledger ∧
    (s.incWrap f n).mountFails = s.mountFails ∧ (s.incWrap f n).cfgStore = s.cfgStore ∧ (s.incWrap f n).intents = s.intents ∧
    (s.incWrap f n).sumNvm = s.sumNvm ∧ (s.incWrap f n).sumWait = s.sumWait ∧ (s.incWrap f n).dumpSeq = s.dumpSeq ∧
    (s.incWrap f n).dumpBays = s.dumpBays ∧ (s.incWrap f n).dumpSlot = s.dumpSlot ∧ (s.incWrap f n).presetBusy = s.presetBusy ∧
    (s.incWrap f n).bootWait = s.bootWait ∧ (s.incWrap f n).caps = s.caps ∧ (s.incWrap f n).pending = s.pending := by
  and_intros <;> rfl

/-- `incSat` changes only `regs`. -/
@[simp] theorem State.incSat_frame (s : State) (f : Fld) (n : Nat) :
    (s.incSat f n).mem = s.mem ∧ (s.incSat f n).poison = s.poison ∧ (s.incSat f n).freeCnt = s.freeCnt ∧
    (s.incSat f n).trip = s.trip ∧ (s.incSat f n).reply = s.reply ∧ (s.incSat f n).ftime = s.ftime ∧
    (s.incSat f n).latches = s.latches ∧ (s.incSat f n).fnCfg = s.fnCfg ∧ (s.incSat f n).vfEnable = s.vfEnable ∧
    (s.incSat f n).numVfs = s.numVfs ∧ (s.incSat f n).pcieLink = s.pcieLink ∧ (s.incSat f n).msix = s.msix ∧
    (s.incSat f n).aer = s.aer ∧ (s.incSat f n).drs = s.drs ∧ (s.incSat f n).logBuf = s.logBuf ∧
    (s.incSat f n).logRecs = s.logRecs ∧ (s.incSat f n).logSeq = s.logSeq ∧ (s.incSat f n).od = s.od ∧
    (s.incSat f n).can = s.can ∧ (s.incSat f n).harts = s.harts ∧ (s.incSat f n).badWords = s.badWords ∧
    (s.incSat f n).hbmBays = s.hbmBays ∧ (s.incSat f n).wprot = s.wprot ∧ (s.incSat f n).atc = s.atc ∧
    (s.incSat f n).inval = s.inval ∧ (s.incSat f n).fabricOut = s.fabricOut ∧ (s.incSat f n).stale = s.stale ∧
    (s.incSat f n).doneAt = s.doneAt ∧ (s.incSat f n).blkCmd = s.blkCmd ∧ (s.incSat f n).upHeld = s.upHeld ∧
    (s.incSat f n).upSent = s.upSent ∧ (s.incSat f n).timedWait = s.timedWait ∧ (s.incSat f n).engs = s.engs ∧
    (s.incSat f n).fbq = s.fbq ∧ (s.incSat f n).tileNo = s.tileNo ∧ (s.incSat f n).queues = s.queues ∧
    (s.incSat f n).dispSeq = s.dispSeq ∧ (s.incSat f n).calPts = s.calPts ∧ (s.incSat f n).calMask = s.calMask ∧
    (s.incSat f n).calSmall = s.calSmall ∧ (s.incSat f n).nvmPts = s.nvmPts ∧ (s.incSat f n).nvmMask = s.nvmMask ∧
    (s.incSat f n).nvmSmall = s.nvmSmall ∧ (s.incSat f n).nvmInfo = s.nvmInfo ∧ (s.incSat f n).scbQueue = s.scbQueue ∧
    (s.incSat f n).scbRun = s.scbRun ∧ (s.incSat f n).ports = s.ports ∧ (s.incSat f n).transit = s.transit ∧
    (s.incSat f n).wire = s.wire ∧ (s.incSat f n).gangDrain = s.gangDrain ∧ (s.incSat f n).pairsOut = s.pairsOut ∧
    (s.incSat f n).slcPlan = s.slcPlan ∧ (s.incSat f n).actDue = s.actDue ∧ (s.incSat f n).shuttered = s.shuttered ∧
    (s.incSat f n).relight = s.relight ∧ (s.incSat f n).doms = s.doms ∧ (s.incSat f n).awayPrimary = s.awayPrimary ∧
    (s.incSat f n).cycles = s.cycles ∧ (s.incSat f n).holdFrom = s.holdFrom ∧ (s.incSat f n).ppsGood = s.ppsGood ∧
    (s.incSat f n).ppsOut = s.ppsOut ∧ (s.incSat f n).loops = s.loops ∧ (s.incSat f n).ringInit = s.ringInit ∧
    (s.incSat f n).ringAcq = s.ringAcq ∧ (s.incSat f n).ringHeld = s.ringHeld ∧ (s.incSat f n).lasTarget = s.lasTarget ∧
    (s.incSat f n).takeovers = s.takeovers ∧ (s.incSat f n).verifyLeft = s.verifyLeft ∧ (s.incSat f n).ringFails = s.ringFails ∧
    (s.incSat f n).deadDies = s.deadDies ∧ (s.incSat f n).refclk = s.refclk ∧ (s.incSat f n).perst = s.perst ∧
    (s.incSat f n).powered = s.powered ∧ (s.incSat f n).tripped = s.tripped ∧ (s.incSat f n).brownOut = s.brownOut ∧
    (s.incSat f n).slotA = s.slotA ∧ (s.incSat f n).slotB = s.slotB ∧ (s.incSat f n).fw = s.fw ∧
    (s.incSat f n).bootFirst = s.bootFirst ∧ (s.incSat f n).ledger = s.ledger ∧ (s.incSat f n).mountFails = s.mountFails ∧
    (s.incSat f n).cfgStore = s.cfgStore ∧ (s.incSat f n).intents = s.intents ∧ (s.incSat f n).sumNvm = s.sumNvm ∧
    (s.incSat f n).sumWait = s.sumWait ∧ (s.incSat f n).dumpSeq = s.dumpSeq ∧ (s.incSat f n).dumpBays = s.dumpBays ∧
    (s.incSat f n).dumpSlot = s.dumpSlot ∧ (s.incSat f n).presetBusy = s.presetBusy ∧ (s.incSat f n).bootWait = s.bootWait ∧
    (s.incSat f n).caps = s.caps ∧ (s.incSat f n).pending = s.pending := by
  and_intros <;> rfl

/-- `resetRegs` changes only `regs`. -/
@[simp] theorem State.resetRegs_frame (s : State) (lo hi : Nat) :
    (s.resetRegs lo hi).mem = s.mem ∧ (s.resetRegs lo hi).poison = s.poison ∧ (s.resetRegs lo hi).freeCnt = s.freeCnt ∧
    (s.resetRegs lo hi).trip = s.trip ∧ (s.resetRegs lo hi).reply = s.reply ∧ (s.resetRegs lo hi).ftime = s.ftime ∧
    (s.resetRegs lo hi).latches = s.latches ∧ (s.resetRegs lo hi).fnCfg = s.fnCfg ∧ (s.resetRegs lo hi).vfEnable = s.vfEnable ∧
    (s.resetRegs lo hi).numVfs = s.numVfs ∧ (s.resetRegs lo hi).pcieLink = s.pcieLink ∧ (s.resetRegs lo hi).msix = s.msix ∧
    (s.resetRegs lo hi).aer = s.aer ∧ (s.resetRegs lo hi).drs = s.drs ∧ (s.resetRegs lo hi).logBuf = s.logBuf ∧
    (s.resetRegs lo hi).logRecs = s.logRecs ∧ (s.resetRegs lo hi).logSeq = s.logSeq ∧ (s.resetRegs lo hi).od = s.od ∧
    (s.resetRegs lo hi).can = s.can ∧ (s.resetRegs lo hi).harts = s.harts ∧ (s.resetRegs lo hi).badWords = s.badWords ∧
    (s.resetRegs lo hi).hbmBays = s.hbmBays ∧ (s.resetRegs lo hi).wprot = s.wprot ∧ (s.resetRegs lo hi).atc = s.atc ∧
    (s.resetRegs lo hi).inval = s.inval ∧ (s.resetRegs lo hi).fabricOut = s.fabricOut ∧ (s.resetRegs lo hi).stale = s.stale ∧
    (s.resetRegs lo hi).doneAt = s.doneAt ∧ (s.resetRegs lo hi).blkCmd = s.blkCmd ∧ (s.resetRegs lo hi).upHeld = s.upHeld ∧
    (s.resetRegs lo hi).upSent = s.upSent ∧ (s.resetRegs lo hi).timedWait = s.timedWait ∧ (s.resetRegs lo hi).engs = s.engs ∧
    (s.resetRegs lo hi).fbq = s.fbq ∧ (s.resetRegs lo hi).tileNo = s.tileNo ∧ (s.resetRegs lo hi).queues = s.queues ∧
    (s.resetRegs lo hi).dispSeq = s.dispSeq ∧ (s.resetRegs lo hi).calPts = s.calPts ∧ (s.resetRegs lo hi).calMask = s.calMask ∧
    (s.resetRegs lo hi).calSmall = s.calSmall ∧ (s.resetRegs lo hi).nvmPts = s.nvmPts ∧ (s.resetRegs lo hi).nvmMask = s.nvmMask ∧
    (s.resetRegs lo hi).nvmSmall = s.nvmSmall ∧ (s.resetRegs lo hi).nvmInfo = s.nvmInfo ∧
    (s.resetRegs lo hi).scbQueue = s.scbQueue ∧ (s.resetRegs lo hi).scbRun = s.scbRun ∧ (s.resetRegs lo hi).ports = s.ports ∧
    (s.resetRegs lo hi).transit = s.transit ∧ (s.resetRegs lo hi).wire = s.wire ∧ (s.resetRegs lo hi).gangDrain = s.gangDrain ∧
    (s.resetRegs lo hi).pairsOut = s.pairsOut ∧ (s.resetRegs lo hi).slcPlan = s.slcPlan ∧ (s.resetRegs lo hi).actDue = s.actDue ∧
    (s.resetRegs lo hi).shuttered = s.shuttered ∧ (s.resetRegs lo hi).relight = s.relight ∧ (s.resetRegs lo hi).doms = s.doms ∧
    (s.resetRegs lo hi).awayPrimary = s.awayPrimary ∧ (s.resetRegs lo hi).cycles = s.cycles ∧
    (s.resetRegs lo hi).holdFrom = s.holdFrom ∧ (s.resetRegs lo hi).ppsGood = s.ppsGood ∧ (s.resetRegs lo hi).ppsOut = s.ppsOut ∧
    (s.resetRegs lo hi).loops = s.loops ∧ (s.resetRegs lo hi).ringInit = s.ringInit ∧ (s.resetRegs lo hi).ringAcq = s.ringAcq ∧
    (s.resetRegs lo hi).ringHeld = s.ringHeld ∧ (s.resetRegs lo hi).lasTarget = s.lasTarget ∧
    (s.resetRegs lo hi).takeovers = s.takeovers ∧ (s.resetRegs lo hi).verifyLeft = s.verifyLeft ∧
    (s.resetRegs lo hi).ringFails = s.ringFails ∧ (s.resetRegs lo hi).deadDies = s.deadDies ∧
    (s.resetRegs lo hi).refclk = s.refclk ∧ (s.resetRegs lo hi).perst = s.perst ∧ (s.resetRegs lo hi).powered = s.powered ∧
    (s.resetRegs lo hi).tripped = s.tripped ∧ (s.resetRegs lo hi).brownOut = s.brownOut ∧ (s.resetRegs lo hi).slotA = s.slotA ∧
    (s.resetRegs lo hi).slotB = s.slotB ∧ (s.resetRegs lo hi).fw = s.fw ∧ (s.resetRegs lo hi).bootFirst = s.bootFirst ∧
    (s.resetRegs lo hi).ledger = s.ledger ∧ (s.resetRegs lo hi).mountFails = s.mountFails ∧
    (s.resetRegs lo hi).cfgStore = s.cfgStore ∧ (s.resetRegs lo hi).intents = s.intents ∧ (s.resetRegs lo hi).sumNvm = s.sumNvm ∧
    (s.resetRegs lo hi).sumWait = s.sumWait ∧ (s.resetRegs lo hi).dumpSeq = s.dumpSeq ∧
    (s.resetRegs lo hi).dumpBays = s.dumpBays ∧ (s.resetRegs lo hi).dumpSlot = s.dumpSlot ∧
    (s.resetRegs lo hi).presetBusy = s.presetBusy ∧ (s.resetRegs lo hi).bootWait = s.bootWait ∧
    (s.resetRegs lo hi).caps = s.caps ∧ (s.resetRegs lo hi).pending = s.pending := by
  and_intros <;> rfl

/-- `answer` changes only `reply`. -/
@[simp] theorem State.answer_frame (s : State) (r : Reply) :
    (s.answer r).regs = s.regs ∧ (s.answer r).mem = s.mem ∧ (s.answer r).poison = s.poison ∧ (s.answer r).freeCnt = s.freeCnt ∧
    (s.answer r).trip = s.trip ∧ (s.answer r).ftime = s.ftime ∧ (s.answer r).latches = s.latches ∧ (s.answer r).fnCfg = s.fnCfg ∧
    (s.answer r).vfEnable = s.vfEnable ∧ (s.answer r).numVfs = s.numVfs ∧ (s.answer r).pcieLink = s.pcieLink ∧
    (s.answer r).msix = s.msix ∧ (s.answer r).aer = s.aer ∧ (s.answer r).drs = s.drs ∧ (s.answer r).logBuf = s.logBuf ∧
    (s.answer r).logRecs = s.logRecs ∧ (s.answer r).logSeq = s.logSeq ∧ (s.answer r).od = s.od ∧ (s.answer r).can = s.can ∧
    (s.answer r).harts = s.harts ∧ (s.answer r).badWords = s.badWords ∧ (s.answer r).hbmBays = s.hbmBays ∧
    (s.answer r).wprot = s.wprot ∧ (s.answer r).atc = s.atc ∧ (s.answer r).inval = s.inval ∧
    (s.answer r).fabricOut = s.fabricOut ∧ (s.answer r).stale = s.stale ∧ (s.answer r).doneAt = s.doneAt ∧
    (s.answer r).blkCmd = s.blkCmd ∧ (s.answer r).upHeld = s.upHeld ∧ (s.answer r).upSent = s.upSent ∧
    (s.answer r).timedWait = s.timedWait ∧ (s.answer r).engs = s.engs ∧ (s.answer r).fbq = s.fbq ∧
    (s.answer r).tileNo = s.tileNo ∧ (s.answer r).queues = s.queues ∧ (s.answer r).dispSeq = s.dispSeq ∧
    (s.answer r).calPts = s.calPts ∧ (s.answer r).calMask = s.calMask ∧ (s.answer r).calSmall = s.calSmall ∧
    (s.answer r).nvmPts = s.nvmPts ∧ (s.answer r).nvmMask = s.nvmMask ∧ (s.answer r).nvmSmall = s.nvmSmall ∧
    (s.answer r).nvmInfo = s.nvmInfo ∧ (s.answer r).scbQueue = s.scbQueue ∧ (s.answer r).scbRun = s.scbRun ∧
    (s.answer r).ports = s.ports ∧ (s.answer r).transit = s.transit ∧ (s.answer r).wire = s.wire ∧
    (s.answer r).gangDrain = s.gangDrain ∧ (s.answer r).pairsOut = s.pairsOut ∧ (s.answer r).slcPlan = s.slcPlan ∧
    (s.answer r).actDue = s.actDue ∧ (s.answer r).shuttered = s.shuttered ∧ (s.answer r).relight = s.relight ∧
    (s.answer r).doms = s.doms ∧ (s.answer r).awayPrimary = s.awayPrimary ∧ (s.answer r).cycles = s.cycles ∧
    (s.answer r).holdFrom = s.holdFrom ∧ (s.answer r).ppsGood = s.ppsGood ∧ (s.answer r).ppsOut = s.ppsOut ∧
    (s.answer r).loops = s.loops ∧ (s.answer r).ringInit = s.ringInit ∧ (s.answer r).ringAcq = s.ringAcq ∧
    (s.answer r).ringHeld = s.ringHeld ∧ (s.answer r).lasTarget = s.lasTarget ∧ (s.answer r).takeovers = s.takeovers ∧
    (s.answer r).verifyLeft = s.verifyLeft ∧ (s.answer r).ringFails = s.ringFails ∧ (s.answer r).deadDies = s.deadDies ∧
    (s.answer r).refclk = s.refclk ∧ (s.answer r).perst = s.perst ∧ (s.answer r).powered = s.powered ∧
    (s.answer r).tripped = s.tripped ∧ (s.answer r).brownOut = s.brownOut ∧ (s.answer r).slotA = s.slotA ∧
    (s.answer r).slotB = s.slotB ∧ (s.answer r).fw = s.fw ∧ (s.answer r).bootFirst = s.bootFirst ∧
    (s.answer r).ledger = s.ledger ∧ (s.answer r).mountFails = s.mountFails ∧ (s.answer r).cfgStore = s.cfgStore ∧
    (s.answer r).intents = s.intents ∧ (s.answer r).sumNvm = s.sumNvm ∧ (s.answer r).sumWait = s.sumWait ∧
    (s.answer r).dumpSeq = s.dumpSeq ∧ (s.answer r).dumpBays = s.dumpBays ∧ (s.answer r).dumpSlot = s.dumpSlot ∧
    (s.answer r).presetBusy = s.presetBusy ∧ (s.answer r).bootWait = s.bootWait ∧ (s.answer r).caps = s.caps ∧
    (s.answer r).pending = s.pending := by
  and_intros <;> rfl

/-- `setByte` changes only `mem`. -/
@[simp] theorem State.setByte_frame (s : State) (k : Nat) (b : Byte) :
    (s.setByte k b).regs = s.regs ∧ (s.setByte k b).poison = s.poison ∧ (s.setByte k b).freeCnt = s.freeCnt ∧
    (s.setByte k b).trip = s.trip ∧ (s.setByte k b).reply = s.reply ∧ (s.setByte k b).ftime = s.ftime ∧
    (s.setByte k b).latches = s.latches ∧ (s.setByte k b).fnCfg = s.fnCfg ∧ (s.setByte k b).vfEnable = s.vfEnable ∧
    (s.setByte k b).numVfs = s.numVfs ∧ (s.setByte k b).pcieLink = s.pcieLink ∧ (s.setByte k b).msix = s.msix ∧
    (s.setByte k b).aer = s.aer ∧ (s.setByte k b).drs = s.drs ∧ (s.setByte k b).logBuf = s.logBuf ∧
    (s.setByte k b).logRecs = s.logRecs ∧ (s.setByte k b).logSeq = s.logSeq ∧ (s.setByte k b).od = s.od ∧
    (s.setByte k b).can = s.can ∧ (s.setByte k b).harts = s.harts ∧ (s.setByte k b).badWords = s.badWords ∧
    (s.setByte k b).hbmBays = s.hbmBays ∧ (s.setByte k b).wprot = s.wprot ∧ (s.setByte k b).atc = s.atc ∧
    (s.setByte k b).inval = s.inval ∧ (s.setByte k b).fabricOut = s.fabricOut ∧ (s.setByte k b).stale = s.stale ∧
    (s.setByte k b).doneAt = s.doneAt ∧ (s.setByte k b).blkCmd = s.blkCmd ∧ (s.setByte k b).upHeld = s.upHeld ∧
    (s.setByte k b).upSent = s.upSent ∧ (s.setByte k b).timedWait = s.timedWait ∧ (s.setByte k b).engs = s.engs ∧
    (s.setByte k b).fbq = s.fbq ∧ (s.setByte k b).tileNo = s.tileNo ∧ (s.setByte k b).queues = s.queues ∧
    (s.setByte k b).dispSeq = s.dispSeq ∧ (s.setByte k b).calPts = s.calPts ∧ (s.setByte k b).calMask = s.calMask ∧
    (s.setByte k b).calSmall = s.calSmall ∧ (s.setByte k b).nvmPts = s.nvmPts ∧ (s.setByte k b).nvmMask = s.nvmMask ∧
    (s.setByte k b).nvmSmall = s.nvmSmall ∧ (s.setByte k b).nvmInfo = s.nvmInfo ∧ (s.setByte k b).scbQueue = s.scbQueue ∧
    (s.setByte k b).scbRun = s.scbRun ∧ (s.setByte k b).ports = s.ports ∧ (s.setByte k b).transit = s.transit ∧
    (s.setByte k b).wire = s.wire ∧ (s.setByte k b).gangDrain = s.gangDrain ∧ (s.setByte k b).pairsOut = s.pairsOut ∧
    (s.setByte k b).slcPlan = s.slcPlan ∧ (s.setByte k b).actDue = s.actDue ∧ (s.setByte k b).shuttered = s.shuttered ∧
    (s.setByte k b).relight = s.relight ∧ (s.setByte k b).doms = s.doms ∧ (s.setByte k b).awayPrimary = s.awayPrimary ∧
    (s.setByte k b).cycles = s.cycles ∧ (s.setByte k b).holdFrom = s.holdFrom ∧ (s.setByte k b).ppsGood = s.ppsGood ∧
    (s.setByte k b).ppsOut = s.ppsOut ∧ (s.setByte k b).loops = s.loops ∧ (s.setByte k b).ringInit = s.ringInit ∧
    (s.setByte k b).ringAcq = s.ringAcq ∧ (s.setByte k b).ringHeld = s.ringHeld ∧ (s.setByte k b).lasTarget = s.lasTarget ∧
    (s.setByte k b).takeovers = s.takeovers ∧ (s.setByte k b).verifyLeft = s.verifyLeft ∧
    (s.setByte k b).ringFails = s.ringFails ∧ (s.setByte k b).deadDies = s.deadDies ∧ (s.setByte k b).refclk = s.refclk ∧
    (s.setByte k b).perst = s.perst ∧ (s.setByte k b).powered = s.powered ∧ (s.setByte k b).tripped = s.tripped ∧
    (s.setByte k b).brownOut = s.brownOut ∧ (s.setByte k b).slotA = s.slotA ∧ (s.setByte k b).slotB = s.slotB ∧
    (s.setByte k b).fw = s.fw ∧ (s.setByte k b).bootFirst = s.bootFirst ∧ (s.setByte k b).ledger = s.ledger ∧
    (s.setByte k b).mountFails = s.mountFails ∧ (s.setByte k b).cfgStore = s.cfgStore ∧ (s.setByte k b).intents = s.intents ∧
    (s.setByte k b).sumNvm = s.sumNvm ∧ (s.setByte k b).sumWait = s.sumWait ∧ (s.setByte k b).dumpSeq = s.dumpSeq ∧
    (s.setByte k b).dumpBays = s.dumpBays ∧ (s.setByte k b).dumpSlot = s.dumpSlot ∧ (s.setByte k b).presetBusy = s.presetBusy ∧
    (s.setByte k b).bootWait = s.bootWait ∧ (s.setByte k b).caps = s.caps ∧ (s.setByte k b).pending = s.pending := by
  and_intros <;> rfl

/-- `aerReport` changes only `aer`. -/
@[simp] theorem State.aerReport_frame (s : State) (f : Nat) :
    (s.aerReport f).regs = s.regs ∧ (s.aerReport f).mem = s.mem ∧ (s.aerReport f).poison = s.poison ∧
    (s.aerReport f).freeCnt = s.freeCnt ∧ (s.aerReport f).trip = s.trip ∧ (s.aerReport f).reply = s.reply ∧
    (s.aerReport f).ftime = s.ftime ∧ (s.aerReport f).latches = s.latches ∧ (s.aerReport f).fnCfg = s.fnCfg ∧
    (s.aerReport f).vfEnable = s.vfEnable ∧ (s.aerReport f).numVfs = s.numVfs ∧ (s.aerReport f).pcieLink = s.pcieLink ∧
    (s.aerReport f).msix = s.msix ∧ (s.aerReport f).drs = s.drs ∧ (s.aerReport f).logBuf = s.logBuf ∧
    (s.aerReport f).logRecs = s.logRecs ∧ (s.aerReport f).logSeq = s.logSeq ∧ (s.aerReport f).od = s.od ∧
    (s.aerReport f).can = s.can ∧ (s.aerReport f).harts = s.harts ∧ (s.aerReport f).badWords = s.badWords ∧
    (s.aerReport f).hbmBays = s.hbmBays ∧ (s.aerReport f).wprot = s.wprot ∧ (s.aerReport f).atc = s.atc ∧
    (s.aerReport f).inval = s.inval ∧ (s.aerReport f).fabricOut = s.fabricOut ∧ (s.aerReport f).stale = s.stale ∧
    (s.aerReport f).doneAt = s.doneAt ∧ (s.aerReport f).blkCmd = s.blkCmd ∧ (s.aerReport f).upHeld = s.upHeld ∧
    (s.aerReport f).upSent = s.upSent ∧ (s.aerReport f).timedWait = s.timedWait ∧ (s.aerReport f).engs = s.engs ∧
    (s.aerReport f).fbq = s.fbq ∧ (s.aerReport f).tileNo = s.tileNo ∧ (s.aerReport f).queues = s.queues ∧
    (s.aerReport f).dispSeq = s.dispSeq ∧ (s.aerReport f).calPts = s.calPts ∧ (s.aerReport f).calMask = s.calMask ∧
    (s.aerReport f).calSmall = s.calSmall ∧ (s.aerReport f).nvmPts = s.nvmPts ∧ (s.aerReport f).nvmMask = s.nvmMask ∧
    (s.aerReport f).nvmSmall = s.nvmSmall ∧ (s.aerReport f).nvmInfo = s.nvmInfo ∧ (s.aerReport f).scbQueue = s.scbQueue ∧
    (s.aerReport f).scbRun = s.scbRun ∧ (s.aerReport f).ports = s.ports ∧ (s.aerReport f).transit = s.transit ∧
    (s.aerReport f).wire = s.wire ∧ (s.aerReport f).gangDrain = s.gangDrain ∧ (s.aerReport f).pairsOut = s.pairsOut ∧
    (s.aerReport f).slcPlan = s.slcPlan ∧ (s.aerReport f).actDue = s.actDue ∧ (s.aerReport f).shuttered = s.shuttered ∧
    (s.aerReport f).relight = s.relight ∧ (s.aerReport f).doms = s.doms ∧ (s.aerReport f).awayPrimary = s.awayPrimary ∧
    (s.aerReport f).cycles = s.cycles ∧ (s.aerReport f).holdFrom = s.holdFrom ∧ (s.aerReport f).ppsGood = s.ppsGood ∧
    (s.aerReport f).ppsOut = s.ppsOut ∧ (s.aerReport f).loops = s.loops ∧ (s.aerReport f).ringInit = s.ringInit ∧
    (s.aerReport f).ringAcq = s.ringAcq ∧ (s.aerReport f).ringHeld = s.ringHeld ∧ (s.aerReport f).lasTarget = s.lasTarget ∧
    (s.aerReport f).takeovers = s.takeovers ∧ (s.aerReport f).verifyLeft = s.verifyLeft ∧
    (s.aerReport f).ringFails = s.ringFails ∧ (s.aerReport f).deadDies = s.deadDies ∧ (s.aerReport f).refclk = s.refclk ∧
    (s.aerReport f).perst = s.perst ∧ (s.aerReport f).powered = s.powered ∧ (s.aerReport f).tripped = s.tripped ∧
    (s.aerReport f).brownOut = s.brownOut ∧ (s.aerReport f).slotA = s.slotA ∧ (s.aerReport f).slotB = s.slotB ∧
    (s.aerReport f).fw = s.fw ∧ (s.aerReport f).bootFirst = s.bootFirst ∧ (s.aerReport f).ledger = s.ledger ∧
    (s.aerReport f).mountFails = s.mountFails ∧ (s.aerReport f).cfgStore = s.cfgStore ∧ (s.aerReport f).intents = s.intents ∧
    (s.aerReport f).sumNvm = s.sumNvm ∧ (s.aerReport f).sumWait = s.sumWait ∧ (s.aerReport f).dumpSeq = s.dumpSeq ∧
    (s.aerReport f).dumpBays = s.dumpBays ∧ (s.aerReport f).dumpSlot = s.dumpSlot ∧ (s.aerReport f).presetBusy = s.presetBusy ∧
    (s.aerReport f).bootWait = s.bootWait ∧ (s.aerReport f).caps = s.caps ∧ (s.aerReport f).pending = s.pending := by
  and_intros <;> rfl

/-- `odSet` changes only `od`. -/
@[simp] theorem State.odSet_frame (s : State) (a i v : Nat) :
    (s.odSet a i v).regs = s.regs ∧ (s.odSet a i v).mem = s.mem ∧ (s.odSet a i v).poison = s.poison ∧
    (s.odSet a i v).freeCnt = s.freeCnt ∧ (s.odSet a i v).trip = s.trip ∧ (s.odSet a i v).reply = s.reply ∧
    (s.odSet a i v).ftime = s.ftime ∧ (s.odSet a i v).latches = s.latches ∧ (s.odSet a i v).fnCfg = s.fnCfg ∧
    (s.odSet a i v).vfEnable = s.vfEnable ∧ (s.odSet a i v).numVfs = s.numVfs ∧ (s.odSet a i v).pcieLink = s.pcieLink ∧
    (s.odSet a i v).msix = s.msix ∧ (s.odSet a i v).aer = s.aer ∧ (s.odSet a i v).drs = s.drs ∧
    (s.odSet a i v).logBuf = s.logBuf ∧ (s.odSet a i v).logRecs = s.logRecs ∧ (s.odSet a i v).logSeq = s.logSeq ∧
    (s.odSet a i v).can = s.can ∧ (s.odSet a i v).harts = s.harts ∧ (s.odSet a i v).badWords = s.badWords ∧
    (s.odSet a i v).hbmBays = s.hbmBays ∧ (s.odSet a i v).wprot = s.wprot ∧ (s.odSet a i v).atc = s.atc ∧
    (s.odSet a i v).inval = s.inval ∧ (s.odSet a i v).fabricOut = s.fabricOut ∧ (s.odSet a i v).stale = s.stale ∧
    (s.odSet a i v).doneAt = s.doneAt ∧ (s.odSet a i v).blkCmd = s.blkCmd ∧ (s.odSet a i v).upHeld = s.upHeld ∧
    (s.odSet a i v).upSent = s.upSent ∧ (s.odSet a i v).timedWait = s.timedWait ∧ (s.odSet a i v).engs = s.engs ∧
    (s.odSet a i v).fbq = s.fbq ∧ (s.odSet a i v).tileNo = s.tileNo ∧ (s.odSet a i v).queues = s.queues ∧
    (s.odSet a i v).dispSeq = s.dispSeq ∧ (s.odSet a i v).calPts = s.calPts ∧ (s.odSet a i v).calMask = s.calMask ∧
    (s.odSet a i v).calSmall = s.calSmall ∧ (s.odSet a i v).nvmPts = s.nvmPts ∧ (s.odSet a i v).nvmMask = s.nvmMask ∧
    (s.odSet a i v).nvmSmall = s.nvmSmall ∧ (s.odSet a i v).nvmInfo = s.nvmInfo ∧ (s.odSet a i v).scbQueue = s.scbQueue ∧
    (s.odSet a i v).scbRun = s.scbRun ∧ (s.odSet a i v).ports = s.ports ∧ (s.odSet a i v).transit = s.transit ∧
    (s.odSet a i v).wire = s.wire ∧ (s.odSet a i v).gangDrain = s.gangDrain ∧ (s.odSet a i v).pairsOut = s.pairsOut ∧
    (s.odSet a i v).slcPlan = s.slcPlan ∧ (s.odSet a i v).actDue = s.actDue ∧ (s.odSet a i v).shuttered = s.shuttered ∧
    (s.odSet a i v).relight = s.relight ∧ (s.odSet a i v).doms = s.doms ∧ (s.odSet a i v).awayPrimary = s.awayPrimary ∧
    (s.odSet a i v).cycles = s.cycles ∧ (s.odSet a i v).holdFrom = s.holdFrom ∧ (s.odSet a i v).ppsGood = s.ppsGood ∧
    (s.odSet a i v).ppsOut = s.ppsOut ∧ (s.odSet a i v).loops = s.loops ∧ (s.odSet a i v).ringInit = s.ringInit ∧
    (s.odSet a i v).ringAcq = s.ringAcq ∧ (s.odSet a i v).ringHeld = s.ringHeld ∧ (s.odSet a i v).lasTarget = s.lasTarget ∧
    (s.odSet a i v).takeovers = s.takeovers ∧ (s.odSet a i v).verifyLeft = s.verifyLeft ∧
    (s.odSet a i v).ringFails = s.ringFails ∧ (s.odSet a i v).deadDies = s.deadDies ∧ (s.odSet a i v).refclk = s.refclk ∧
    (s.odSet a i v).perst = s.perst ∧ (s.odSet a i v).powered = s.powered ∧ (s.odSet a i v).tripped = s.tripped ∧
    (s.odSet a i v).brownOut = s.brownOut ∧ (s.odSet a i v).slotA = s.slotA ∧ (s.odSet a i v).slotB = s.slotB ∧
    (s.odSet a i v).fw = s.fw ∧ (s.odSet a i v).bootFirst = s.bootFirst ∧ (s.odSet a i v).ledger = s.ledger ∧
    (s.odSet a i v).mountFails = s.mountFails ∧ (s.odSet a i v).cfgStore = s.cfgStore ∧ (s.odSet a i v).intents = s.intents ∧
    (s.odSet a i v).sumNvm = s.sumNvm ∧ (s.odSet a i v).sumWait = s.sumWait ∧ (s.odSet a i v).dumpSeq = s.dumpSeq ∧
    (s.odSet a i v).dumpBays = s.dumpBays ∧ (s.odSet a i v).dumpSlot = s.dumpSlot ∧ (s.odSet a i v).presetBusy = s.presetBusy ∧
    (s.odSet a i v).bootWait = s.bootWait ∧ (s.odSet a i v).caps = s.caps ∧ (s.odSet a i v).pending = s.pending := by
  and_intros <;> rfl

/-- `odInc` changes only `od`. -/
@[simp] theorem State.odInc_frame (s : State) (a i w : Nat) :
    (s.odInc a i w).regs = s.regs ∧ (s.odInc a i w).mem = s.mem ∧ (s.odInc a i w).poison = s.poison ∧
    (s.odInc a i w).freeCnt = s.freeCnt ∧ (s.odInc a i w).trip = s.trip ∧ (s.odInc a i w).reply = s.reply ∧
    (s.odInc a i w).ftime = s.ftime ∧ (s.odInc a i w).latches = s.latches ∧ (s.odInc a i w).fnCfg = s.fnCfg ∧
    (s.odInc a i w).vfEnable = s.vfEnable ∧ (s.odInc a i w).numVfs = s.numVfs ∧ (s.odInc a i w).pcieLink = s.pcieLink ∧
    (s.odInc a i w).msix = s.msix ∧ (s.odInc a i w).aer = s.aer ∧ (s.odInc a i w).drs = s.drs ∧
    (s.odInc a i w).logBuf = s.logBuf ∧ (s.odInc a i w).logRecs = s.logRecs ∧ (s.odInc a i w).logSeq = s.logSeq ∧
    (s.odInc a i w).can = s.can ∧ (s.odInc a i w).harts = s.harts ∧ (s.odInc a i w).badWords = s.badWords ∧
    (s.odInc a i w).hbmBays = s.hbmBays ∧ (s.odInc a i w).wprot = s.wprot ∧ (s.odInc a i w).atc = s.atc ∧
    (s.odInc a i w).inval = s.inval ∧ (s.odInc a i w).fabricOut = s.fabricOut ∧ (s.odInc a i w).stale = s.stale ∧
    (s.odInc a i w).doneAt = s.doneAt ∧ (s.odInc a i w).blkCmd = s.blkCmd ∧ (s.odInc a i w).upHeld = s.upHeld ∧
    (s.odInc a i w).upSent = s.upSent ∧ (s.odInc a i w).timedWait = s.timedWait ∧ (s.odInc a i w).engs = s.engs ∧
    (s.odInc a i w).fbq = s.fbq ∧ (s.odInc a i w).tileNo = s.tileNo ∧ (s.odInc a i w).queues = s.queues ∧
    (s.odInc a i w).dispSeq = s.dispSeq ∧ (s.odInc a i w).calPts = s.calPts ∧ (s.odInc a i w).calMask = s.calMask ∧
    (s.odInc a i w).calSmall = s.calSmall ∧ (s.odInc a i w).nvmPts = s.nvmPts ∧ (s.odInc a i w).nvmMask = s.nvmMask ∧
    (s.odInc a i w).nvmSmall = s.nvmSmall ∧ (s.odInc a i w).nvmInfo = s.nvmInfo ∧ (s.odInc a i w).scbQueue = s.scbQueue ∧
    (s.odInc a i w).scbRun = s.scbRun ∧ (s.odInc a i w).ports = s.ports ∧ (s.odInc a i w).transit = s.transit ∧
    (s.odInc a i w).wire = s.wire ∧ (s.odInc a i w).gangDrain = s.gangDrain ∧ (s.odInc a i w).pairsOut = s.pairsOut ∧
    (s.odInc a i w).slcPlan = s.slcPlan ∧ (s.odInc a i w).actDue = s.actDue ∧ (s.odInc a i w).shuttered = s.shuttered ∧
    (s.odInc a i w).relight = s.relight ∧ (s.odInc a i w).doms = s.doms ∧ (s.odInc a i w).awayPrimary = s.awayPrimary ∧
    (s.odInc a i w).cycles = s.cycles ∧ (s.odInc a i w).holdFrom = s.holdFrom ∧ (s.odInc a i w).ppsGood = s.ppsGood ∧
    (s.odInc a i w).ppsOut = s.ppsOut ∧ (s.odInc a i w).loops = s.loops ∧ (s.odInc a i w).ringInit = s.ringInit ∧
    (s.odInc a i w).ringAcq = s.ringAcq ∧ (s.odInc a i w).ringHeld = s.ringHeld ∧ (s.odInc a i w).lasTarget = s.lasTarget ∧
    (s.odInc a i w).takeovers = s.takeovers ∧ (s.odInc a i w).verifyLeft = s.verifyLeft ∧
    (s.odInc a i w).ringFails = s.ringFails ∧ (s.odInc a i w).deadDies = s.deadDies ∧ (s.odInc a i w).refclk = s.refclk ∧
    (s.odInc a i w).perst = s.perst ∧ (s.odInc a i w).powered = s.powered ∧ (s.odInc a i w).tripped = s.tripped ∧
    (s.odInc a i w).brownOut = s.brownOut ∧ (s.odInc a i w).slotA = s.slotA ∧ (s.odInc a i w).slotB = s.slotB ∧
    (s.odInc a i w).fw = s.fw ∧ (s.odInc a i w).bootFirst = s.bootFirst ∧ (s.odInc a i w).ledger = s.ledger ∧
    (s.odInc a i w).mountFails = s.mountFails ∧ (s.odInc a i w).cfgStore = s.cfgStore ∧ (s.odInc a i w).intents = s.intents ∧
    (s.odInc a i w).sumNvm = s.sumNvm ∧ (s.odInc a i w).sumWait = s.sumWait ∧ (s.odInc a i w).dumpSeq = s.dumpSeq ∧
    (s.odInc a i w).dumpBays = s.dumpBays ∧ (s.odInc a i w).dumpSlot = s.dumpSlot ∧ (s.odInc a i w).presetBusy = s.presetBusy ∧
    (s.odInc a i w).bootWait = s.bootWait ∧ (s.odInc a i w).caps = s.caps ∧ (s.odInc a i w).pending = s.pending := by
  and_intros <;> rfl

/-- `stall` changes only `trip`. -/
@[simp] theorem State.stall_frame (s : State) :
    (s.stall).regs = s.regs ∧ (s.stall).mem = s.mem ∧ (s.stall).poison = s.poison ∧ (s.stall).freeCnt = s.freeCnt ∧
    (s.stall).reply = s.reply ∧ (s.stall).ftime = s.ftime ∧ (s.stall).latches = s.latches ∧ (s.stall).fnCfg = s.fnCfg ∧
    (s.stall).vfEnable = s.vfEnable ∧ (s.stall).numVfs = s.numVfs ∧ (s.stall).pcieLink = s.pcieLink ∧ (s.stall).msix = s.msix ∧
    (s.stall).aer = s.aer ∧ (s.stall).drs = s.drs ∧ (s.stall).logBuf = s.logBuf ∧ (s.stall).logRecs = s.logRecs ∧
    (s.stall).logSeq = s.logSeq ∧ (s.stall).od = s.od ∧ (s.stall).can = s.can ∧ (s.stall).harts = s.harts ∧
    (s.stall).badWords = s.badWords ∧ (s.stall).hbmBays = s.hbmBays ∧ (s.stall).wprot = s.wprot ∧ (s.stall).atc = s.atc ∧
    (s.stall).inval = s.inval ∧ (s.stall).fabricOut = s.fabricOut ∧ (s.stall).stale = s.stale ∧ (s.stall).doneAt = s.doneAt ∧
    (s.stall).blkCmd = s.blkCmd ∧ (s.stall).upHeld = s.upHeld ∧ (s.stall).upSent = s.upSent ∧ (s.stall).timedWait = s.timedWait ∧
    (s.stall).engs = s.engs ∧ (s.stall).fbq = s.fbq ∧ (s.stall).tileNo = s.tileNo ∧ (s.stall).queues = s.queues ∧
    (s.stall).dispSeq = s.dispSeq ∧ (s.stall).calPts = s.calPts ∧ (s.stall).calMask = s.calMask ∧
    (s.stall).calSmall = s.calSmall ∧ (s.stall).nvmPts = s.nvmPts ∧ (s.stall).nvmMask = s.nvmMask ∧
    (s.stall).nvmSmall = s.nvmSmall ∧ (s.stall).nvmInfo = s.nvmInfo ∧ (s.stall).scbQueue = s.scbQueue ∧
    (s.stall).scbRun = s.scbRun ∧ (s.stall).ports = s.ports ∧ (s.stall).transit = s.transit ∧ (s.stall).wire = s.wire ∧
    (s.stall).gangDrain = s.gangDrain ∧ (s.stall).pairsOut = s.pairsOut ∧ (s.stall).slcPlan = s.slcPlan ∧
    (s.stall).actDue = s.actDue ∧ (s.stall).shuttered = s.shuttered ∧ (s.stall).relight = s.relight ∧ (s.stall).doms = s.doms ∧
    (s.stall).awayPrimary = s.awayPrimary ∧ (s.stall).cycles = s.cycles ∧ (s.stall).holdFrom = s.holdFrom ∧
    (s.stall).ppsGood = s.ppsGood ∧ (s.stall).ppsOut = s.ppsOut ∧ (s.stall).loops = s.loops ∧ (s.stall).ringInit = s.ringInit ∧
    (s.stall).ringAcq = s.ringAcq ∧ (s.stall).ringHeld = s.ringHeld ∧ (s.stall).lasTarget = s.lasTarget ∧
    (s.stall).takeovers = s.takeovers ∧ (s.stall).verifyLeft = s.verifyLeft ∧ (s.stall).ringFails = s.ringFails ∧
    (s.stall).deadDies = s.deadDies ∧ (s.stall).refclk = s.refclk ∧ (s.stall).perst = s.perst ∧ (s.stall).powered = s.powered ∧
    (s.stall).tripped = s.tripped ∧ (s.stall).brownOut = s.brownOut ∧ (s.stall).slotA = s.slotA ∧ (s.stall).slotB = s.slotB ∧
    (s.stall).fw = s.fw ∧ (s.stall).bootFirst = s.bootFirst ∧ (s.stall).ledger = s.ledger ∧ (s.stall).mountFails = s.mountFails ∧
    (s.stall).cfgStore = s.cfgStore ∧ (s.stall).intents = s.intents ∧ (s.stall).sumNvm = s.sumNvm ∧
    (s.stall).sumWait = s.sumWait ∧ (s.stall).dumpSeq = s.dumpSeq ∧ (s.stall).dumpBays = s.dumpBays ∧
    (s.stall).dumpSlot = s.dumpSlot ∧ (s.stall).presetBusy = s.presetBusy ∧ (s.stall).bootWait = s.bootWait ∧
    (s.stall).caps = s.caps ∧ (s.stall).pending = s.pending := by
  and_intros <;> rfl

/-- `free` changes only `freeCnt`. -/
@[simp] theorem State.free_frame (s : State) :
    (s.free.2).regs = s.regs ∧ (s.free.2).mem = s.mem ∧ (s.free.2).poison = s.poison ∧ (s.free.2).trip = s.trip ∧
    (s.free.2).reply = s.reply ∧ (s.free.2).ftime = s.ftime ∧ (s.free.2).latches = s.latches ∧ (s.free.2).fnCfg = s.fnCfg ∧
    (s.free.2).vfEnable = s.vfEnable ∧ (s.free.2).numVfs = s.numVfs ∧ (s.free.2).pcieLink = s.pcieLink ∧
    (s.free.2).msix = s.msix ∧ (s.free.2).aer = s.aer ∧ (s.free.2).drs = s.drs ∧ (s.free.2).logBuf = s.logBuf ∧
    (s.free.2).logRecs = s.logRecs ∧ (s.free.2).logSeq = s.logSeq ∧ (s.free.2).od = s.od ∧ (s.free.2).can = s.can ∧
    (s.free.2).harts = s.harts ∧ (s.free.2).badWords = s.badWords ∧ (s.free.2).hbmBays = s.hbmBays ∧ (s.free.2).wprot = s.wprot ∧
    (s.free.2).atc = s.atc ∧ (s.free.2).inval = s.inval ∧ (s.free.2).fabricOut = s.fabricOut ∧ (s.free.2).stale = s.stale ∧
    (s.free.2).doneAt = s.doneAt ∧ (s.free.2).blkCmd = s.blkCmd ∧ (s.free.2).upHeld = s.upHeld ∧ (s.free.2).upSent = s.upSent ∧
    (s.free.2).timedWait = s.timedWait ∧ (s.free.2).engs = s.engs ∧ (s.free.2).fbq = s.fbq ∧ (s.free.2).tileNo = s.tileNo ∧
    (s.free.2).queues = s.queues ∧ (s.free.2).dispSeq = s.dispSeq ∧ (s.free.2).calPts = s.calPts ∧
    (s.free.2).calMask = s.calMask ∧ (s.free.2).calSmall = s.calSmall ∧ (s.free.2).nvmPts = s.nvmPts ∧
    (s.free.2).nvmMask = s.nvmMask ∧ (s.free.2).nvmSmall = s.nvmSmall ∧ (s.free.2).nvmInfo = s.nvmInfo ∧
    (s.free.2).scbQueue = s.scbQueue ∧ (s.free.2).scbRun = s.scbRun ∧ (s.free.2).ports = s.ports ∧
    (s.free.2).transit = s.transit ∧ (s.free.2).wire = s.wire ∧ (s.free.2).gangDrain = s.gangDrain ∧
    (s.free.2).pairsOut = s.pairsOut ∧ (s.free.2).slcPlan = s.slcPlan ∧ (s.free.2).actDue = s.actDue ∧
    (s.free.2).shuttered = s.shuttered ∧ (s.free.2).relight = s.relight ∧ (s.free.2).doms = s.doms ∧
    (s.free.2).awayPrimary = s.awayPrimary ∧ (s.free.2).cycles = s.cycles ∧ (s.free.2).holdFrom = s.holdFrom ∧
    (s.free.2).ppsGood = s.ppsGood ∧ (s.free.2).ppsOut = s.ppsOut ∧ (s.free.2).loops = s.loops ∧
    (s.free.2).ringInit = s.ringInit ∧ (s.free.2).ringAcq = s.ringAcq ∧ (s.free.2).ringHeld = s.ringHeld ∧
    (s.free.2).lasTarget = s.lasTarget ∧ (s.free.2).takeovers = s.takeovers ∧ (s.free.2).verifyLeft = s.verifyLeft ∧
    (s.free.2).ringFails = s.ringFails ∧ (s.free.2).deadDies = s.deadDies ∧ (s.free.2).refclk = s.refclk ∧
    (s.free.2).perst = s.perst ∧ (s.free.2).powered = s.powered ∧ (s.free.2).tripped = s.tripped ∧
    (s.free.2).brownOut = s.brownOut ∧ (s.free.2).slotA = s.slotA ∧ (s.free.2).slotB = s.slotB ∧ (s.free.2).fw = s.fw ∧
    (s.free.2).bootFirst = s.bootFirst ∧ (s.free.2).ledger = s.ledger ∧ (s.free.2).mountFails = s.mountFails ∧
    (s.free.2).cfgStore = s.cfgStore ∧ (s.free.2).intents = s.intents ∧ (s.free.2).sumNvm = s.sumNvm ∧
    (s.free.2).sumWait = s.sumWait ∧ (s.free.2).dumpSeq = s.dumpSeq ∧ (s.free.2).dumpBays = s.dumpBays ∧
    (s.free.2).dumpSlot = s.dumpSlot ∧ (s.free.2).presetBusy = s.presetBusy ∧ (s.free.2).bootWait = s.bootWait ∧
    (s.free.2).caps = s.caps ∧ (s.free.2).pending = s.pending := by
  and_intros <;> rfl

/-- `putLatch` changes only `latches`. -/
@[simp] theorem State.putLatch_frame (s : State) (k : Nat) (l : Latch) :
    (s.putLatch k l).regs = s.regs ∧ (s.putLatch k l).mem = s.mem ∧ (s.putLatch k l).poison = s.poison ∧
    (s.putLatch k l).freeCnt = s.freeCnt ∧ (s.putLatch k l).trip = s.trip ∧ (s.putLatch k l).reply = s.reply ∧
    (s.putLatch k l).ftime = s.ftime ∧ (s.putLatch k l).fnCfg = s.fnCfg ∧ (s.putLatch k l).vfEnable = s.vfEnable ∧
    (s.putLatch k l).numVfs = s.numVfs ∧ (s.putLatch k l).pcieLink = s.pcieLink ∧ (s.putLatch k l).msix = s.msix ∧
    (s.putLatch k l).aer = s.aer ∧ (s.putLatch k l).drs = s.drs ∧ (s.putLatch k l).logBuf = s.logBuf ∧
    (s.putLatch k l).logRecs = s.logRecs ∧ (s.putLatch k l).logSeq = s.logSeq ∧ (s.putLatch k l).od = s.od ∧
    (s.putLatch k l).can = s.can ∧ (s.putLatch k l).harts = s.harts ∧ (s.putLatch k l).badWords = s.badWords ∧
    (s.putLatch k l).hbmBays = s.hbmBays ∧ (s.putLatch k l).wprot = s.wprot ∧ (s.putLatch k l).atc = s.atc ∧
    (s.putLatch k l).inval = s.inval ∧ (s.putLatch k l).fabricOut = s.fabricOut ∧ (s.putLatch k l).stale = s.stale ∧
    (s.putLatch k l).doneAt = s.doneAt ∧ (s.putLatch k l).blkCmd = s.blkCmd ∧ (s.putLatch k l).upHeld = s.upHeld ∧
    (s.putLatch k l).upSent = s.upSent ∧ (s.putLatch k l).timedWait = s.timedWait ∧ (s.putLatch k l).engs = s.engs ∧
    (s.putLatch k l).fbq = s.fbq ∧ (s.putLatch k l).tileNo = s.tileNo ∧ (s.putLatch k l).queues = s.queues ∧
    (s.putLatch k l).dispSeq = s.dispSeq ∧ (s.putLatch k l).calPts = s.calPts ∧ (s.putLatch k l).calMask = s.calMask ∧
    (s.putLatch k l).calSmall = s.calSmall ∧ (s.putLatch k l).nvmPts = s.nvmPts ∧ (s.putLatch k l).nvmMask = s.nvmMask ∧
    (s.putLatch k l).nvmSmall = s.nvmSmall ∧ (s.putLatch k l).nvmInfo = s.nvmInfo ∧ (s.putLatch k l).scbQueue = s.scbQueue ∧
    (s.putLatch k l).scbRun = s.scbRun ∧ (s.putLatch k l).ports = s.ports ∧ (s.putLatch k l).transit = s.transit ∧
    (s.putLatch k l).wire = s.wire ∧ (s.putLatch k l).gangDrain = s.gangDrain ∧ (s.putLatch k l).pairsOut = s.pairsOut ∧
    (s.putLatch k l).slcPlan = s.slcPlan ∧ (s.putLatch k l).actDue = s.actDue ∧ (s.putLatch k l).shuttered = s.shuttered ∧
    (s.putLatch k l).relight = s.relight ∧ (s.putLatch k l).doms = s.doms ∧ (s.putLatch k l).awayPrimary = s.awayPrimary ∧
    (s.putLatch k l).cycles = s.cycles ∧ (s.putLatch k l).holdFrom = s.holdFrom ∧ (s.putLatch k l).ppsGood = s.ppsGood ∧
    (s.putLatch k l).ppsOut = s.ppsOut ∧ (s.putLatch k l).loops = s.loops ∧ (s.putLatch k l).ringInit = s.ringInit ∧
    (s.putLatch k l).ringAcq = s.ringAcq ∧ (s.putLatch k l).ringHeld = s.ringHeld ∧ (s.putLatch k l).lasTarget = s.lasTarget ∧
    (s.putLatch k l).takeovers = s.takeovers ∧ (s.putLatch k l).verifyLeft = s.verifyLeft ∧
    (s.putLatch k l).ringFails = s.ringFails ∧ (s.putLatch k l).deadDies = s.deadDies ∧ (s.putLatch k l).refclk = s.refclk ∧
    (s.putLatch k l).perst = s.perst ∧ (s.putLatch k l).powered = s.powered ∧ (s.putLatch k l).tripped = s.tripped ∧
    (s.putLatch k l).brownOut = s.brownOut ∧ (s.putLatch k l).slotA = s.slotA ∧ (s.putLatch k l).slotB = s.slotB ∧
    (s.putLatch k l).fw = s.fw ∧ (s.putLatch k l).bootFirst = s.bootFirst ∧ (s.putLatch k l).ledger = s.ledger ∧
    (s.putLatch k l).mountFails = s.mountFails ∧ (s.putLatch k l).cfgStore = s.cfgStore ∧ (s.putLatch k l).intents = s.intents ∧
    (s.putLatch k l).sumNvm = s.sumNvm ∧ (s.putLatch k l).sumWait = s.sumWait ∧ (s.putLatch k l).dumpSeq = s.dumpSeq ∧
    (s.putLatch k l).dumpBays = s.dumpBays ∧ (s.putLatch k l).dumpSlot = s.dumpSlot ∧
    (s.putLatch k l).presetBusy = s.presetBusy ∧ (s.putLatch k l).bootWait = s.bootWait ∧ (s.putLatch k l).caps = s.caps ∧
    (s.putLatch k l).pending = s.pending := by
  and_intros <;> rfl

/-- `putHart` changes only `harts`. -/
@[simp] theorem State.putHart_frame (s : State) (c : Nat) (h : Hart) :
    (s.putHart c h).regs = s.regs ∧ (s.putHart c h).mem = s.mem ∧ (s.putHart c h).poison = s.poison ∧
    (s.putHart c h).freeCnt = s.freeCnt ∧ (s.putHart c h).trip = s.trip ∧ (s.putHart c h).reply = s.reply ∧
    (s.putHart c h).ftime = s.ftime ∧ (s.putHart c h).latches = s.latches ∧ (s.putHart c h).fnCfg = s.fnCfg ∧
    (s.putHart c h).vfEnable = s.vfEnable ∧ (s.putHart c h).numVfs = s.numVfs ∧ (s.putHart c h).pcieLink = s.pcieLink ∧
    (s.putHart c h).msix = s.msix ∧ (s.putHart c h).aer = s.aer ∧ (s.putHart c h).drs = s.drs ∧
    (s.putHart c h).logBuf = s.logBuf ∧ (s.putHart c h).logRecs = s.logRecs ∧ (s.putHart c h).logSeq = s.logSeq ∧
    (s.putHart c h).od = s.od ∧ (s.putHart c h).can = s.can ∧ (s.putHart c h).badWords = s.badWords ∧
    (s.putHart c h).hbmBays = s.hbmBays ∧ (s.putHart c h).wprot = s.wprot ∧ (s.putHart c h).atc = s.atc ∧
    (s.putHart c h).inval = s.inval ∧ (s.putHart c h).fabricOut = s.fabricOut ∧ (s.putHart c h).stale = s.stale ∧
    (s.putHart c h).doneAt = s.doneAt ∧ (s.putHart c h).blkCmd = s.blkCmd ∧ (s.putHart c h).upHeld = s.upHeld ∧
    (s.putHart c h).upSent = s.upSent ∧ (s.putHart c h).timedWait = s.timedWait ∧ (s.putHart c h).engs = s.engs ∧
    (s.putHart c h).fbq = s.fbq ∧ (s.putHart c h).tileNo = s.tileNo ∧ (s.putHart c h).queues = s.queues ∧
    (s.putHart c h).dispSeq = s.dispSeq ∧ (s.putHart c h).calPts = s.calPts ∧ (s.putHart c h).calMask = s.calMask ∧
    (s.putHart c h).calSmall = s.calSmall ∧ (s.putHart c h).nvmPts = s.nvmPts ∧ (s.putHart c h).nvmMask = s.nvmMask ∧
    (s.putHart c h).nvmSmall = s.nvmSmall ∧ (s.putHart c h).nvmInfo = s.nvmInfo ∧ (s.putHart c h).scbQueue = s.scbQueue ∧
    (s.putHart c h).scbRun = s.scbRun ∧ (s.putHart c h).ports = s.ports ∧ (s.putHart c h).transit = s.transit ∧
    (s.putHart c h).wire = s.wire ∧ (s.putHart c h).gangDrain = s.gangDrain ∧ (s.putHart c h).pairsOut = s.pairsOut ∧
    (s.putHart c h).slcPlan = s.slcPlan ∧ (s.putHart c h).actDue = s.actDue ∧ (s.putHart c h).shuttered = s.shuttered ∧
    (s.putHart c h).relight = s.relight ∧ (s.putHart c h).doms = s.doms ∧ (s.putHart c h).awayPrimary = s.awayPrimary ∧
    (s.putHart c h).cycles = s.cycles ∧ (s.putHart c h).holdFrom = s.holdFrom ∧ (s.putHart c h).ppsGood = s.ppsGood ∧
    (s.putHart c h).ppsOut = s.ppsOut ∧ (s.putHart c h).loops = s.loops ∧ (s.putHart c h).ringInit = s.ringInit ∧
    (s.putHart c h).ringAcq = s.ringAcq ∧ (s.putHart c h).ringHeld = s.ringHeld ∧ (s.putHart c h).lasTarget = s.lasTarget ∧
    (s.putHart c h).takeovers = s.takeovers ∧ (s.putHart c h).verifyLeft = s.verifyLeft ∧
    (s.putHart c h).ringFails = s.ringFails ∧ (s.putHart c h).deadDies = s.deadDies ∧ (s.putHart c h).refclk = s.refclk ∧
    (s.putHart c h).perst = s.perst ∧ (s.putHart c h).powered = s.powered ∧ (s.putHart c h).tripped = s.tripped ∧
    (s.putHart c h).brownOut = s.brownOut ∧ (s.putHart c h).slotA = s.slotA ∧ (s.putHart c h).slotB = s.slotB ∧
    (s.putHart c h).fw = s.fw ∧ (s.putHart c h).bootFirst = s.bootFirst ∧ (s.putHart c h).ledger = s.ledger ∧
    (s.putHart c h).mountFails = s.mountFails ∧ (s.putHart c h).cfgStore = s.cfgStore ∧ (s.putHart c h).intents = s.intents ∧
    (s.putHart c h).sumNvm = s.sumNvm ∧ (s.putHart c h).sumWait = s.sumWait ∧ (s.putHart c h).dumpSeq = s.dumpSeq ∧
    (s.putHart c h).dumpBays = s.dumpBays ∧ (s.putHart c h).dumpSlot = s.dumpSlot ∧ (s.putHart c h).presetBusy = s.presetBusy ∧
    (s.putHart c h).bootWait = s.bootWait ∧ (s.putHart c h).caps = s.caps ∧ (s.putHart c h).pending = s.pending := by
  and_intros <;> rfl

/-- `putLoop` changes only `loops`, `regs`. -/
@[simp] theorem State.putLoop_frame (s : State) (id : Nat) (l : Loop) :
    (s.putLoop id l).mem = s.mem ∧ (s.putLoop id l).poison = s.poison ∧ (s.putLoop id l).freeCnt = s.freeCnt ∧
    (s.putLoop id l).trip = s.trip ∧ (s.putLoop id l).reply = s.reply ∧ (s.putLoop id l).ftime = s.ftime ∧
    (s.putLoop id l).latches = s.latches ∧ (s.putLoop id l).fnCfg = s.fnCfg ∧ (s.putLoop id l).vfEnable = s.vfEnable ∧
    (s.putLoop id l).numVfs = s.numVfs ∧ (s.putLoop id l).pcieLink = s.pcieLink ∧ (s.putLoop id l).msix = s.msix ∧
    (s.putLoop id l).aer = s.aer ∧ (s.putLoop id l).drs = s.drs ∧ (s.putLoop id l).logBuf = s.logBuf ∧
    (s.putLoop id l).logRecs = s.logRecs ∧ (s.putLoop id l).logSeq = s.logSeq ∧ (s.putLoop id l).od = s.od ∧
    (s.putLoop id l).can = s.can ∧ (s.putLoop id l).harts = s.harts ∧ (s.putLoop id l).badWords = s.badWords ∧
    (s.putLoop id l).hbmBays = s.hbmBays ∧ (s.putLoop id l).wprot = s.wprot ∧ (s.putLoop id l).atc = s.atc ∧
    (s.putLoop id l).inval = s.inval ∧ (s.putLoop id l).fabricOut = s.fabricOut ∧ (s.putLoop id l).stale = s.stale ∧
    (s.putLoop id l).doneAt = s.doneAt ∧ (s.putLoop id l).blkCmd = s.blkCmd ∧ (s.putLoop id l).upHeld = s.upHeld ∧
    (s.putLoop id l).upSent = s.upSent ∧ (s.putLoop id l).timedWait = s.timedWait ∧ (s.putLoop id l).engs = s.engs ∧
    (s.putLoop id l).fbq = s.fbq ∧ (s.putLoop id l).tileNo = s.tileNo ∧ (s.putLoop id l).queues = s.queues ∧
    (s.putLoop id l).dispSeq = s.dispSeq ∧ (s.putLoop id l).calPts = s.calPts ∧ (s.putLoop id l).calMask = s.calMask ∧
    (s.putLoop id l).calSmall = s.calSmall ∧ (s.putLoop id l).nvmPts = s.nvmPts ∧ (s.putLoop id l).nvmMask = s.nvmMask ∧
    (s.putLoop id l).nvmSmall = s.nvmSmall ∧ (s.putLoop id l).nvmInfo = s.nvmInfo ∧ (s.putLoop id l).scbQueue = s.scbQueue ∧
    (s.putLoop id l).scbRun = s.scbRun ∧ (s.putLoop id l).ports = s.ports ∧ (s.putLoop id l).transit = s.transit ∧
    (s.putLoop id l).wire = s.wire ∧ (s.putLoop id l).gangDrain = s.gangDrain ∧ (s.putLoop id l).pairsOut = s.pairsOut ∧
    (s.putLoop id l).slcPlan = s.slcPlan ∧ (s.putLoop id l).actDue = s.actDue ∧ (s.putLoop id l).shuttered = s.shuttered ∧
    (s.putLoop id l).relight = s.relight ∧ (s.putLoop id l).doms = s.doms ∧ (s.putLoop id l).awayPrimary = s.awayPrimary ∧
    (s.putLoop id l).cycles = s.cycles ∧ (s.putLoop id l).holdFrom = s.holdFrom ∧ (s.putLoop id l).ppsGood = s.ppsGood ∧
    (s.putLoop id l).ppsOut = s.ppsOut ∧ (s.putLoop id l).ringInit = s.ringInit ∧ (s.putLoop id l).ringAcq = s.ringAcq ∧
    (s.putLoop id l).ringHeld = s.ringHeld ∧ (s.putLoop id l).lasTarget = s.lasTarget ∧
    (s.putLoop id l).takeovers = s.takeovers ∧ (s.putLoop id l).verifyLeft = s.verifyLeft ∧
    (s.putLoop id l).ringFails = s.ringFails ∧ (s.putLoop id l).deadDies = s.deadDies ∧ (s.putLoop id l).refclk = s.refclk ∧
    (s.putLoop id l).perst = s.perst ∧ (s.putLoop id l).powered = s.powered ∧ (s.putLoop id l).tripped = s.tripped ∧
    (s.putLoop id l).brownOut = s.brownOut ∧ (s.putLoop id l).slotA = s.slotA ∧ (s.putLoop id l).slotB = s.slotB ∧
    (s.putLoop id l).fw = s.fw ∧ (s.putLoop id l).bootFirst = s.bootFirst ∧ (s.putLoop id l).ledger = s.ledger ∧
    (s.putLoop id l).mountFails = s.mountFails ∧ (s.putLoop id l).cfgStore = s.cfgStore ∧ (s.putLoop id l).intents = s.intents ∧
    (s.putLoop id l).sumNvm = s.sumNvm ∧ (s.putLoop id l).sumWait = s.sumWait ∧ (s.putLoop id l).dumpSeq = s.dumpSeq ∧
    (s.putLoop id l).dumpBays = s.dumpBays ∧ (s.putLoop id l).dumpSlot = s.dumpSlot ∧
    (s.putLoop id l).presetBusy = s.presetBusy ∧ (s.putLoop id l).bootWait = s.bootWait ∧ (s.putLoop id l).caps = s.caps ∧
    (s.putLoop id l).pending = s.pending := by
  unfold State.putLoop
  dsimp only
  split <;> and_intros <;> rfl

/-- `putEng` changes only `engs`, `regs`. -/
@[simp] theorem State.putEng_frame (s : State) (e : Nat) (g : Sys2Proof.Machine.Eng) :
    (s.putEng e g).mem = s.mem ∧ (s.putEng e g).poison = s.poison ∧ (s.putEng e g).freeCnt = s.freeCnt ∧
    (s.putEng e g).trip = s.trip ∧ (s.putEng e g).reply = s.reply ∧ (s.putEng e g).ftime = s.ftime ∧
    (s.putEng e g).latches = s.latches ∧ (s.putEng e g).fnCfg = s.fnCfg ∧ (s.putEng e g).vfEnable = s.vfEnable ∧
    (s.putEng e g).numVfs = s.numVfs ∧ (s.putEng e g).pcieLink = s.pcieLink ∧ (s.putEng e g).msix = s.msix ∧
    (s.putEng e g).aer = s.aer ∧ (s.putEng e g).drs = s.drs ∧ (s.putEng e g).logBuf = s.logBuf ∧
    (s.putEng e g).logRecs = s.logRecs ∧ (s.putEng e g).logSeq = s.logSeq ∧ (s.putEng e g).od = s.od ∧
    (s.putEng e g).can = s.can ∧ (s.putEng e g).harts = s.harts ∧ (s.putEng e g).badWords = s.badWords ∧
    (s.putEng e g).hbmBays = s.hbmBays ∧ (s.putEng e g).wprot = s.wprot ∧ (s.putEng e g).atc = s.atc ∧
    (s.putEng e g).inval = s.inval ∧ (s.putEng e g).fabricOut = s.fabricOut ∧ (s.putEng e g).stale = s.stale ∧
    (s.putEng e g).doneAt = s.doneAt ∧ (s.putEng e g).blkCmd = s.blkCmd ∧ (s.putEng e g).upHeld = s.upHeld ∧
    (s.putEng e g).upSent = s.upSent ∧ (s.putEng e g).timedWait = s.timedWait ∧ (s.putEng e g).fbq = s.fbq ∧
    (s.putEng e g).tileNo = s.tileNo ∧ (s.putEng e g).queues = s.queues ∧ (s.putEng e g).dispSeq = s.dispSeq ∧
    (s.putEng e g).calPts = s.calPts ∧ (s.putEng e g).calMask = s.calMask ∧ (s.putEng e g).calSmall = s.calSmall ∧
    (s.putEng e g).nvmPts = s.nvmPts ∧ (s.putEng e g).nvmMask = s.nvmMask ∧ (s.putEng e g).nvmSmall = s.nvmSmall ∧
    (s.putEng e g).nvmInfo = s.nvmInfo ∧ (s.putEng e g).scbQueue = s.scbQueue ∧ (s.putEng e g).scbRun = s.scbRun ∧
    (s.putEng e g).ports = s.ports ∧ (s.putEng e g).transit = s.transit ∧ (s.putEng e g).wire = s.wire ∧
    (s.putEng e g).gangDrain = s.gangDrain ∧ (s.putEng e g).pairsOut = s.pairsOut ∧ (s.putEng e g).slcPlan = s.slcPlan ∧
    (s.putEng e g).actDue = s.actDue ∧ (s.putEng e g).shuttered = s.shuttered ∧ (s.putEng e g).relight = s.relight ∧
    (s.putEng e g).doms = s.doms ∧ (s.putEng e g).awayPrimary = s.awayPrimary ∧ (s.putEng e g).cycles = s.cycles ∧
    (s.putEng e g).holdFrom = s.holdFrom ∧ (s.putEng e g).ppsGood = s.ppsGood ∧ (s.putEng e g).ppsOut = s.ppsOut ∧
    (s.putEng e g).loops = s.loops ∧ (s.putEng e g).ringInit = s.ringInit ∧ (s.putEng e g).ringAcq = s.ringAcq ∧
    (s.putEng e g).ringHeld = s.ringHeld ∧ (s.putEng e g).lasTarget = s.lasTarget ∧ (s.putEng e g).takeovers = s.takeovers ∧
    (s.putEng e g).verifyLeft = s.verifyLeft ∧ (s.putEng e g).ringFails = s.ringFails ∧ (s.putEng e g).deadDies = s.deadDies ∧
    (s.putEng e g).refclk = s.refclk ∧ (s.putEng e g).perst = s.perst ∧ (s.putEng e g).powered = s.powered ∧
    (s.putEng e g).tripped = s.tripped ∧ (s.putEng e g).brownOut = s.brownOut ∧ (s.putEng e g).slotA = s.slotA ∧
    (s.putEng e g).slotB = s.slotB ∧ (s.putEng e g).fw = s.fw ∧ (s.putEng e g).bootFirst = s.bootFirst ∧
    (s.putEng e g).ledger = s.ledger ∧ (s.putEng e g).mountFails = s.mountFails ∧ (s.putEng e g).cfgStore = s.cfgStore ∧
    (s.putEng e g).intents = s.intents ∧ (s.putEng e g).sumNvm = s.sumNvm ∧ (s.putEng e g).sumWait = s.sumWait ∧
    (s.putEng e g).dumpSeq = s.dumpSeq ∧ (s.putEng e g).dumpBays = s.dumpBays ∧ (s.putEng e g).dumpSlot = s.dumpSlot ∧
    (s.putEng e g).presetBusy = s.presetBusy ∧ (s.putEng e g).bootWait = s.bootWait ∧ (s.putEng e g).caps = s.caps ∧
    (s.putEng e g).pending = s.pending := by
  and_intros <;> rfl

/-- `putWq` changes only `queues`. -/
@[simp] theorem State.putWq_frame (s : State) (k : Nat) (q : WorkQ) :
    (s.putWq k q).regs = s.regs ∧ (s.putWq k q).mem = s.mem ∧ (s.putWq k q).poison = s.poison ∧
    (s.putWq k q).freeCnt = s.freeCnt ∧ (s.putWq k q).trip = s.trip ∧ (s.putWq k q).reply = s.reply ∧
    (s.putWq k q).ftime = s.ftime ∧ (s.putWq k q).latches = s.latches ∧ (s.putWq k q).fnCfg = s.fnCfg ∧
    (s.putWq k q).vfEnable = s.vfEnable ∧ (s.putWq k q).numVfs = s.numVfs ∧ (s.putWq k q).pcieLink = s.pcieLink ∧
    (s.putWq k q).msix = s.msix ∧ (s.putWq k q).aer = s.aer ∧ (s.putWq k q).drs = s.drs ∧ (s.putWq k q).logBuf = s.logBuf ∧
    (s.putWq k q).logRecs = s.logRecs ∧ (s.putWq k q).logSeq = s.logSeq ∧ (s.putWq k q).od = s.od ∧ (s.putWq k q).can = s.can ∧
    (s.putWq k q).harts = s.harts ∧ (s.putWq k q).badWords = s.badWords ∧ (s.putWq k q).hbmBays = s.hbmBays ∧
    (s.putWq k q).wprot = s.wprot ∧ (s.putWq k q).atc = s.atc ∧ (s.putWq k q).inval = s.inval ∧
    (s.putWq k q).fabricOut = s.fabricOut ∧ (s.putWq k q).stale = s.stale ∧ (s.putWq k q).doneAt = s.doneAt ∧
    (s.putWq k q).blkCmd = s.blkCmd ∧ (s.putWq k q).upHeld = s.upHeld ∧ (s.putWq k q).upSent = s.upSent ∧
    (s.putWq k q).timedWait = s.timedWait ∧ (s.putWq k q).engs = s.engs ∧ (s.putWq k q).fbq = s.fbq ∧
    (s.putWq k q).tileNo = s.tileNo ∧ (s.putWq k q).dispSeq = s.dispSeq ∧ (s.putWq k q).calPts = s.calPts ∧
    (s.putWq k q).calMask = s.calMask ∧ (s.putWq k q).calSmall = s.calSmall ∧ (s.putWq k q).nvmPts = s.nvmPts ∧
    (s.putWq k q).nvmMask = s.nvmMask ∧ (s.putWq k q).nvmSmall = s.nvmSmall ∧ (s.putWq k q).nvmInfo = s.nvmInfo ∧
    (s.putWq k q).scbQueue = s.scbQueue ∧ (s.putWq k q).scbRun = s.scbRun ∧ (s.putWq k q).ports = s.ports ∧
    (s.putWq k q).transit = s.transit ∧ (s.putWq k q).wire = s.wire ∧ (s.putWq k q).gangDrain = s.gangDrain ∧
    (s.putWq k q).pairsOut = s.pairsOut ∧ (s.putWq k q).slcPlan = s.slcPlan ∧ (s.putWq k q).actDue = s.actDue ∧
    (s.putWq k q).shuttered = s.shuttered ∧ (s.putWq k q).relight = s.relight ∧ (s.putWq k q).doms = s.doms ∧
    (s.putWq k q).awayPrimary = s.awayPrimary ∧ (s.putWq k q).cycles = s.cycles ∧ (s.putWq k q).holdFrom = s.holdFrom ∧
    (s.putWq k q).ppsGood = s.ppsGood ∧ (s.putWq k q).ppsOut = s.ppsOut ∧ (s.putWq k q).loops = s.loops ∧
    (s.putWq k q).ringInit = s.ringInit ∧ (s.putWq k q).ringAcq = s.ringAcq ∧ (s.putWq k q).ringHeld = s.ringHeld ∧
    (s.putWq k q).lasTarget = s.lasTarget ∧ (s.putWq k q).takeovers = s.takeovers ∧ (s.putWq k q).verifyLeft = s.verifyLeft ∧
    (s.putWq k q).ringFails = s.ringFails ∧ (s.putWq k q).deadDies = s.deadDies ∧ (s.putWq k q).refclk = s.refclk ∧
    (s.putWq k q).perst = s.perst ∧ (s.putWq k q).powered = s.powered ∧ (s.putWq k q).tripped = s.tripped ∧
    (s.putWq k q).brownOut = s.brownOut ∧ (s.putWq k q).slotA = s.slotA ∧ (s.putWq k q).slotB = s.slotB ∧
    (s.putWq k q).fw = s.fw ∧ (s.putWq k q).bootFirst = s.bootFirst ∧ (s.putWq k q).ledger = s.ledger ∧
    (s.putWq k q).mountFails = s.mountFails ∧ (s.putWq k q).cfgStore = s.cfgStore ∧ (s.putWq k q).intents = s.intents ∧
    (s.putWq k q).sumNvm = s.sumNvm ∧ (s.putWq k q).sumWait = s.sumWait ∧ (s.putWq k q).dumpSeq = s.dumpSeq ∧
    (s.putWq k q).dumpBays = s.dumpBays ∧ (s.putWq k q).dumpSlot = s.dumpSlot ∧ (s.putWq k q).presetBusy = s.presetBusy ∧
    (s.putWq k q).bootWait = s.bootWait ∧ (s.putWq k q).caps = s.caps ∧ (s.putWq k q).pending = s.pending := by
  and_intros <;> rfl

/-- `putFallback` changes only `fbq`, `regs`. -/
@[simp] theorem State.putFallback_frame (s : State) (b : Nat) (ts : List Tile) :
    (s.putFallback b ts).mem = s.mem ∧ (s.putFallback b ts).poison = s.poison ∧ (s.putFallback b ts).freeCnt = s.freeCnt ∧
    (s.putFallback b ts).trip = s.trip ∧ (s.putFallback b ts).reply = s.reply ∧ (s.putFallback b ts).ftime = s.ftime ∧
    (s.putFallback b ts).latches = s.latches ∧ (s.putFallback b ts).fnCfg = s.fnCfg ∧
    (s.putFallback b ts).vfEnable = s.vfEnable ∧ (s.putFallback b ts).numVfs = s.numVfs ∧
    (s.putFallback b ts).pcieLink = s.pcieLink ∧ (s.putFallback b ts).msix = s.msix ∧ (s.putFallback b ts).aer = s.aer ∧
    (s.putFallback b ts).drs = s.drs ∧ (s.putFallback b ts).logBuf = s.logBuf ∧ (s.putFallback b ts).logRecs = s.logRecs ∧
    (s.putFallback b ts).logSeq = s.logSeq ∧ (s.putFallback b ts).od = s.od ∧ (s.putFallback b ts).can = s.can ∧
    (s.putFallback b ts).harts = s.harts ∧ (s.putFallback b ts).badWords = s.badWords ∧
    (s.putFallback b ts).hbmBays = s.hbmBays ∧ (s.putFallback b ts).wprot = s.wprot ∧ (s.putFallback b ts).atc = s.atc ∧
    (s.putFallback b ts).inval = s.inval ∧ (s.putFallback b ts).fabricOut = s.fabricOut ∧ (s.putFallback b ts).stale = s.stale ∧
    (s.putFallback b ts).doneAt = s.doneAt ∧ (s.putFallback b ts).blkCmd = s.blkCmd ∧ (s.putFallback b ts).upHeld = s.upHeld ∧
    (s.putFallback b ts).upSent = s.upSent ∧ (s.putFallback b ts).timedWait = s.timedWait ∧ (s.putFallback b ts).engs = s.engs ∧
    (s.putFallback b ts).tileNo = s.tileNo ∧ (s.putFallback b ts).queues = s.queues ∧ (s.putFallback b ts).dispSeq = s.dispSeq ∧
    (s.putFallback b ts).calPts = s.calPts ∧ (s.putFallback b ts).calMask = s.calMask ∧
    (s.putFallback b ts).calSmall = s.calSmall ∧ (s.putFallback b ts).nvmPts = s.nvmPts ∧
    (s.putFallback b ts).nvmMask = s.nvmMask ∧ (s.putFallback b ts).nvmSmall = s.nvmSmall ∧
    (s.putFallback b ts).nvmInfo = s.nvmInfo ∧ (s.putFallback b ts).scbQueue = s.scbQueue ∧
    (s.putFallback b ts).scbRun = s.scbRun ∧ (s.putFallback b ts).ports = s.ports ∧ (s.putFallback b ts).transit = s.transit ∧
    (s.putFallback b ts).wire = s.wire ∧ (s.putFallback b ts).gangDrain = s.gangDrain ∧
    (s.putFallback b ts).pairsOut = s.pairsOut ∧ (s.putFallback b ts).slcPlan = s.slcPlan ∧
    (s.putFallback b ts).actDue = s.actDue ∧ (s.putFallback b ts).shuttered = s.shuttered ∧
    (s.putFallback b ts).relight = s.relight ∧ (s.putFallback b ts).doms = s.doms ∧
    (s.putFallback b ts).awayPrimary = s.awayPrimary ∧ (s.putFallback b ts).cycles = s.cycles ∧
    (s.putFallback b ts).holdFrom = s.holdFrom ∧ (s.putFallback b ts).ppsGood = s.ppsGood ∧
    (s.putFallback b ts).ppsOut = s.ppsOut ∧ (s.putFallback b ts).loops = s.loops ∧ (s.putFallback b ts).ringInit = s.ringInit ∧
    (s.putFallback b ts).ringAcq = s.ringAcq ∧ (s.putFallback b ts).ringHeld = s.ringHeld ∧
    (s.putFallback b ts).lasTarget = s.lasTarget ∧ (s.putFallback b ts).takeovers = s.takeovers ∧
    (s.putFallback b ts).verifyLeft = s.verifyLeft ∧ (s.putFallback b ts).ringFails = s.ringFails ∧
    (s.putFallback b ts).deadDies = s.deadDies ∧ (s.putFallback b ts).refclk = s.refclk ∧ (s.putFallback b ts).perst = s.perst ∧
    (s.putFallback b ts).powered = s.powered ∧ (s.putFallback b ts).tripped = s.tripped ∧
    (s.putFallback b ts).brownOut = s.brownOut ∧ (s.putFallback b ts).slotA = s.slotA ∧ (s.putFallback b ts).slotB = s.slotB ∧
    (s.putFallback b ts).fw = s.fw ∧ (s.putFallback b ts).bootFirst = s.bootFirst ∧ (s.putFallback b ts).ledger = s.ledger ∧
    (s.putFallback b ts).mountFails = s.mountFails ∧ (s.putFallback b ts).cfgStore = s.cfgStore ∧
    (s.putFallback b ts).intents = s.intents ∧ (s.putFallback b ts).sumNvm = s.sumNvm ∧
    (s.putFallback b ts).sumWait = s.sumWait ∧ (s.putFallback b ts).dumpSeq = s.dumpSeq ∧
    (s.putFallback b ts).dumpBays = s.dumpBays ∧ (s.putFallback b ts).dumpSlot = s.dumpSlot ∧
    (s.putFallback b ts).presetBusy = s.presetBusy ∧ (s.putFallback b ts).bootWait = s.bootWait ∧
    (s.putFallback b ts).caps = s.caps ∧ (s.putFallback b ts).pending = s.pending := by
  and_intros <;> rfl

/-- `putPort` changes only `ports`. -/
@[simp] theorem State.putPort_frame (s : State) (p : Nat) (x : PortSt) :
    (s.putPort p x).regs = s.regs ∧ (s.putPort p x).mem = s.mem ∧ (s.putPort p x).poison = s.poison ∧
    (s.putPort p x).freeCnt = s.freeCnt ∧ (s.putPort p x).trip = s.trip ∧ (s.putPort p x).reply = s.reply ∧
    (s.putPort p x).ftime = s.ftime ∧ (s.putPort p x).latches = s.latches ∧ (s.putPort p x).fnCfg = s.fnCfg ∧
    (s.putPort p x).vfEnable = s.vfEnable ∧ (s.putPort p x).numVfs = s.numVfs ∧ (s.putPort p x).pcieLink = s.pcieLink ∧
    (s.putPort p x).msix = s.msix ∧ (s.putPort p x).aer = s.aer ∧ (s.putPort p x).drs = s.drs ∧
    (s.putPort p x).logBuf = s.logBuf ∧ (s.putPort p x).logRecs = s.logRecs ∧ (s.putPort p x).logSeq = s.logSeq ∧
    (s.putPort p x).od = s.od ∧ (s.putPort p x).can = s.can ∧ (s.putPort p x).harts = s.harts ∧
    (s.putPort p x).badWords = s.badWords ∧ (s.putPort p x).hbmBays = s.hbmBays ∧ (s.putPort p x).wprot = s.wprot ∧
    (s.putPort p x).atc = s.atc ∧ (s.putPort p x).inval = s.inval ∧ (s.putPort p x).fabricOut = s.fabricOut ∧
    (s.putPort p x).stale = s.stale ∧ (s.putPort p x).doneAt = s.doneAt ∧ (s.putPort p x).blkCmd = s.blkCmd ∧
    (s.putPort p x).upHeld = s.upHeld ∧ (s.putPort p x).upSent = s.upSent ∧ (s.putPort p x).timedWait = s.timedWait ∧
    (s.putPort p x).engs = s.engs ∧ (s.putPort p x).fbq = s.fbq ∧ (s.putPort p x).tileNo = s.tileNo ∧
    (s.putPort p x).queues = s.queues ∧ (s.putPort p x).dispSeq = s.dispSeq ∧ (s.putPort p x).calPts = s.calPts ∧
    (s.putPort p x).calMask = s.calMask ∧ (s.putPort p x).calSmall = s.calSmall ∧ (s.putPort p x).nvmPts = s.nvmPts ∧
    (s.putPort p x).nvmMask = s.nvmMask ∧ (s.putPort p x).nvmSmall = s.nvmSmall ∧ (s.putPort p x).nvmInfo = s.nvmInfo ∧
    (s.putPort p x).scbQueue = s.scbQueue ∧ (s.putPort p x).scbRun = s.scbRun ∧ (s.putPort p x).transit = s.transit ∧
    (s.putPort p x).wire = s.wire ∧ (s.putPort p x).gangDrain = s.gangDrain ∧ (s.putPort p x).pairsOut = s.pairsOut ∧
    (s.putPort p x).slcPlan = s.slcPlan ∧ (s.putPort p x).actDue = s.actDue ∧ (s.putPort p x).shuttered = s.shuttered ∧
    (s.putPort p x).relight = s.relight ∧ (s.putPort p x).doms = s.doms ∧ (s.putPort p x).awayPrimary = s.awayPrimary ∧
    (s.putPort p x).cycles = s.cycles ∧ (s.putPort p x).holdFrom = s.holdFrom ∧ (s.putPort p x).ppsGood = s.ppsGood ∧
    (s.putPort p x).ppsOut = s.ppsOut ∧ (s.putPort p x).loops = s.loops ∧ (s.putPort p x).ringInit = s.ringInit ∧
    (s.putPort p x).ringAcq = s.ringAcq ∧ (s.putPort p x).ringHeld = s.ringHeld ∧ (s.putPort p x).lasTarget = s.lasTarget ∧
    (s.putPort p x).takeovers = s.takeovers ∧ (s.putPort p x).verifyLeft = s.verifyLeft ∧
    (s.putPort p x).ringFails = s.ringFails ∧ (s.putPort p x).deadDies = s.deadDies ∧ (s.putPort p x).refclk = s.refclk ∧
    (s.putPort p x).perst = s.perst ∧ (s.putPort p x).powered = s.powered ∧ (s.putPort p x).tripped = s.tripped ∧
    (s.putPort p x).brownOut = s.brownOut ∧ (s.putPort p x).slotA = s.slotA ∧ (s.putPort p x).slotB = s.slotB ∧
    (s.putPort p x).fw = s.fw ∧ (s.putPort p x).bootFirst = s.bootFirst ∧ (s.putPort p x).ledger = s.ledger ∧
    (s.putPort p x).mountFails = s.mountFails ∧ (s.putPort p x).cfgStore = s.cfgStore ∧ (s.putPort p x).intents = s.intents ∧
    (s.putPort p x).sumNvm = s.sumNvm ∧ (s.putPort p x).sumWait = s.sumWait ∧ (s.putPort p x).dumpSeq = s.dumpSeq ∧
    (s.putPort p x).dumpBays = s.dumpBays ∧ (s.putPort p x).dumpSlot = s.dumpSlot ∧ (s.putPort p x).presetBusy = s.presetBusy ∧
    (s.putPort p x).bootWait = s.bootWait ∧ (s.putPort p x).caps = s.caps ∧ (s.putPort p x).pending = s.pending := by
  and_intros <;> rfl

/-- `putDom` changes only `doms`. -/
@[simp] theorem State.putDom_frame (s : State) (d : Nat) (x : TimeDom) :
    (s.putDom d x).regs = s.regs ∧ (s.putDom d x).mem = s.mem ∧ (s.putDom d x).poison = s.poison ∧
    (s.putDom d x).freeCnt = s.freeCnt ∧ (s.putDom d x).trip = s.trip ∧ (s.putDom d x).reply = s.reply ∧
    (s.putDom d x).ftime = s.ftime ∧ (s.putDom d x).latches = s.latches ∧ (s.putDom d x).fnCfg = s.fnCfg ∧
    (s.putDom d x).vfEnable = s.vfEnable ∧ (s.putDom d x).numVfs = s.numVfs ∧ (s.putDom d x).pcieLink = s.pcieLink ∧
    (s.putDom d x).msix = s.msix ∧ (s.putDom d x).aer = s.aer ∧ (s.putDom d x).drs = s.drs ∧ (s.putDom d x).logBuf = s.logBuf ∧
    (s.putDom d x).logRecs = s.logRecs ∧ (s.putDom d x).logSeq = s.logSeq ∧ (s.putDom d x).od = s.od ∧
    (s.putDom d x).can = s.can ∧ (s.putDom d x).harts = s.harts ∧ (s.putDom d x).badWords = s.badWords ∧
    (s.putDom d x).hbmBays = s.hbmBays ∧ (s.putDom d x).wprot = s.wprot ∧ (s.putDom d x).atc = s.atc ∧
    (s.putDom d x).inval = s.inval ∧ (s.putDom d x).fabricOut = s.fabricOut ∧ (s.putDom d x).stale = s.stale ∧
    (s.putDom d x).doneAt = s.doneAt ∧ (s.putDom d x).blkCmd = s.blkCmd ∧ (s.putDom d x).upHeld = s.upHeld ∧
    (s.putDom d x).upSent = s.upSent ∧ (s.putDom d x).timedWait = s.timedWait ∧ (s.putDom d x).engs = s.engs ∧
    (s.putDom d x).fbq = s.fbq ∧ (s.putDom d x).tileNo = s.tileNo ∧ (s.putDom d x).queues = s.queues ∧
    (s.putDom d x).dispSeq = s.dispSeq ∧ (s.putDom d x).calPts = s.calPts ∧ (s.putDom d x).calMask = s.calMask ∧
    (s.putDom d x).calSmall = s.calSmall ∧ (s.putDom d x).nvmPts = s.nvmPts ∧ (s.putDom d x).nvmMask = s.nvmMask ∧
    (s.putDom d x).nvmSmall = s.nvmSmall ∧ (s.putDom d x).nvmInfo = s.nvmInfo ∧ (s.putDom d x).scbQueue = s.scbQueue ∧
    (s.putDom d x).scbRun = s.scbRun ∧ (s.putDom d x).ports = s.ports ∧ (s.putDom d x).transit = s.transit ∧
    (s.putDom d x).wire = s.wire ∧ (s.putDom d x).gangDrain = s.gangDrain ∧ (s.putDom d x).pairsOut = s.pairsOut ∧
    (s.putDom d x).slcPlan = s.slcPlan ∧ (s.putDom d x).actDue = s.actDue ∧ (s.putDom d x).shuttered = s.shuttered ∧
    (s.putDom d x).relight = s.relight ∧ (s.putDom d x).awayPrimary = s.awayPrimary ∧ (s.putDom d x).cycles = s.cycles ∧
    (s.putDom d x).holdFrom = s.holdFrom ∧ (s.putDom d x).ppsGood = s.ppsGood ∧ (s.putDom d x).ppsOut = s.ppsOut ∧
    (s.putDom d x).loops = s.loops ∧ (s.putDom d x).ringInit = s.ringInit ∧ (s.putDom d x).ringAcq = s.ringAcq ∧
    (s.putDom d x).ringHeld = s.ringHeld ∧ (s.putDom d x).lasTarget = s.lasTarget ∧ (s.putDom d x).takeovers = s.takeovers ∧
    (s.putDom d x).verifyLeft = s.verifyLeft ∧ (s.putDom d x).ringFails = s.ringFails ∧ (s.putDom d x).deadDies = s.deadDies ∧
    (s.putDom d x).refclk = s.refclk ∧ (s.putDom d x).perst = s.perst ∧ (s.putDom d x).powered = s.powered ∧
    (s.putDom d x).tripped = s.tripped ∧ (s.putDom d x).brownOut = s.brownOut ∧ (s.putDom d x).slotA = s.slotA ∧
    (s.putDom d x).slotB = s.slotB ∧ (s.putDom d x).fw = s.fw ∧ (s.putDom d x).bootFirst = s.bootFirst ∧
    (s.putDom d x).ledger = s.ledger ∧ (s.putDom d x).mountFails = s.mountFails ∧ (s.putDom d x).cfgStore = s.cfgStore ∧
    (s.putDom d x).intents = s.intents ∧ (s.putDom d x).sumNvm = s.sumNvm ∧ (s.putDom d x).sumWait = s.sumWait ∧
    (s.putDom d x).dumpSeq = s.dumpSeq ∧ (s.putDom d x).dumpBays = s.dumpBays ∧ (s.putDom d x).dumpSlot = s.dumpSlot ∧
    (s.putDom d x).presetBusy = s.presetBusy ∧ (s.putDom d x).bootWait = s.bootWait ∧ (s.putDom d x).caps = s.caps ∧
    (s.putDom d x).pending = s.pending := by
  and_intros <;> rfl

end Sys2Proof.Machine
end

