-- ==== Sys2Proof/Laws/Tab.lean ====
section
/-!
SUPPORT. Reading a table after an update of it, and the canonical form of tables; the same for register fields.
-/

namespace Sys2Proof.Machine

variable {α : Type}

theorem tget_tput (d v : α) (t : List (Nat × α)) (k j : Nat) : tget d (tput k v t) j = if k = j then v else tget d t j := by
  induction t with
  | nil => simp [tput, tget]
  | cons a r ih =>
    obtain ⟨k', v'⟩ := a
    simp only [tput]
    split
    · next h => subst h; by_cases hj : k' = j <;> simp [tget, hj]
    · split
      · simp [tget]
      · next h _ =>
        by_cases hj : k' = j
        · subst hj; simp [tget, Ne.symm h]
        · simp [tget, hj, ih]

theorem tget_terase (d : α) (t : List (Nat × α)) (k j : Nat) : tget d (terase k t) j = if k = j then d else tget d t j := by
  induction t with
  | nil => simp [terase, tget]
  | cons a r ih =>
    obtain ⟨k', v'⟩ := a
    by_cases h : k' = k
    · subst h; by_cases hj : k' = j <;> simp_all [terase, tget]
    · by_cases hj : k' = j
      · subst hj; simp [terase, tget, h, Ne.symm h]
      · simp [terase, tget, h, hj, ih]

/-- A table reads what `tset` stored, and elsewhere as before. -/
theorem tget_tset [DecidableEq α] (d v : α) (t : List (Nat × α)) (k j : Nat) :
    tget d (tset d k v t) j = if k = j then v else tget d t j := by
  unfold tset
  split
  · next h => subst h; exact tget_terase _ _ _ _
  · exact tget_tput _ _ _ _ _

/-! ## Canonical form -/

theorem trising_cons (a : Nat × α) (r : List (Nat × α)) :
    trising (a :: r) = true ↔ (∀ x ∈ r.head?, a.1 < x.1) ∧ trising r = true := by
  cases r <;> simp [trising]

theorem head_tput (k : Nat) (v : α) (t : List (Nat × α)) :
    ∀ x ∈ (tput k v t).head?, x.1 = k ∨ ∃ y ∈ t.head?, x.1 = y.1 := by
  cases t with
  | nil => simp [tput]
  | cons a r =>
    simp only [tput]
    split
    · simp
    · split <;> simp

theorem trising_tput (k : Nat) (v : α) (t : List (Nat × α)) (h : trising t = true) : trising (tput k v t) = true := by
  induction t with
  | nil => rfl
  | cons a r ih =>
    obtain ⟨h1, h2⟩ := (trising_cons a r).1 h
    simp only [tput]
    split
    · next e => subst e; exact (trising_cons _ _).2 ⟨h1, h2⟩
    · split
      · next _ hl => exact (trising_cons _ _).2 ⟨by simpa using hl, h⟩
      · refine (trising_cons _ _).2 ⟨fun x hx => ?_, ih h2⟩
        rcases head_tput k v r x hx with e | ⟨y, hy, e⟩
        · simp only [e]; omega
        · rw [e]; exact h1 y hy

theorem rising_lt (t : List (Nat × α)) : ∀ a, trising (a :: t) = true → ∀ x ∈ t, a.1 < x.1 := by
  induction t with
  | nil => simp
  | cons b r ih =>
    intro a h x hx
    obtain ⟨h1, h2⟩ := (trising_cons _ _).1 h
    have hb : a.1 < b.1 := h1 b (by simp)
    rcases List.mem_cons.1 hx with rfl | hx
    · exact hb
    · exact Nat.lt_trans hb (ih b h2 x hx)

theorem mem_terase {k : Nat} {t : List (Nat × α)} {x : Nat × α} : x ∈ terase k t → x ∈ t := by
  induction t with
  | nil => exact id
  | cons a r ih =>
    simp only [terase]
    split
    · exact fun h => List.mem_cons_of_mem _ (ih h)
    · exact fun h => (List.mem_cons.1 h).elim (fun e => e ▸ List.mem_cons_self) fun h => List.mem_cons_of_mem _ (ih h)

theorem trising_terase (k : Nat) (t : List (Nat × α)) (h : trising t = true) : trising (terase k t) = true := by
  induction t with
  | nil => rfl
  | cons a r ih =>
    have h2 := ((trising_cons a r).1 h).2
    simp only [terase]
    split
    · exact ih h2
    · exact (trising_cons _ _).2 ⟨fun x hx => rising_lt r a h x (mem_terase (List.mem_of_mem_head? hx)), ih h2⟩

theorem mem_tput {k : Nat} {v : α} {t : List (Nat × α)} {x : Nat × α} : x ∈ tput k v t → x = (k, v) ∨ x ∈ t := by
  induction t with
  | nil => simp [tput]
  | cons a r ih =>
    simp only [tput]
    split
    · exact fun h => (List.mem_cons.1 h).imp id fun h => List.mem_cons_of_mem _ h
    · split
      · exact fun h => List.mem_cons.1 h
      · intro h
        simp only [List.mem_cons] at h ⊢
        rcases h with h | h
        · exact .inr (.inl h)
        · rcases ih h with h | h
          · exact .inl h
          · exact .inr (.inr h)

/-- `tset` keeps a table canonical. -/
theorem tcanon_tset [DecidableEq α] (d : α) (k : Nat) (v : α) (t : List (Nat × α)) (h : tcanon d t = true) :
    tcanon d (tset d k v t) = true := by
  simp only [tcanon, Bool.and_eq_true, List.all_eq_true, decide_eq_true_eq] at h ⊢
  unfold tset
  split
  · exact ⟨trising_terase _ _ h.1, fun x hx => h.2 x (mem_terase hx)⟩
  · next hv =>
    refine ⟨trising_tput _ _ _ h.1, fun x hx => ?_⟩
    rcases mem_tput hx with rfl | hx
    · exact hv
    · exact h.2 x hx

/-! ## Register fields -/

/-- A field reads what was written to it, cut to its width. -/
@[simp] theorem State.get_set_self (s : State) (f : Fld) (v : Nat) : (s.set f v).get f = v % 2 ^ f.width := by
  simp [State.get, State.set, tget_tset]

/-- A write to one field leaves every field at another place as it was. -/
theorem State.get_set_of_ne (s : State) {f g : Fld} (v : Nat) (h : fkey f ≠ fkey g) : (s.set f v).get g = s.get g := by
  have : ∀ d, tget d (tset f.reset (fkey f) (v % 2 ^ f.width) s.regs) (fkey g) = tget d s.regs (fkey g) := by
    intro d
    unfold tset
    split
    · rw [tget_terase, if_neg h]
    · rw [tget_tput, if_neg h]
  simp [State.get, State.set, this]

/-- A one-bit field reads the flag that was written to it. -/
@[simp] theorem State.bit_setBit_self (s : State) (f : Fld) (b : Bool) (h : 0 < f.width) : (s.setBit f b).bit f = b := by
  have : 1 < 2 ^ f.width := Nat.one_lt_two_pow (by omega)
  cases b <;> simp [State.bit, State.setBit, Nat.mod_eq_of_lt this]

theorem State.get_setBit_of_ne (s : State) {f g : Fld} (b : Bool) (h : fkey f ≠ fkey g) : (s.setBit f b).get g = s.get g :=
  State.get_set_of_ne s _ h

theorem State.get_incWrap_of_ne (s : State) {f g : Fld} (n : Nat) (h : fkey f ≠ fkey g) : (s.incWrap f n).get g = s.get g :=
  State.get_set_of_ne s _ h

theorem State.get_incSat_of_ne (s : State) {f g : Fld} (n : Nat) (h : fkey f ≠ fkey g) : (s.incSat f n).get g = s.get g :=
  State.get_set_of_ne s _ h

/-- A wrapping counter advances modulo the size of its field. -/
@[simp] theorem State.get_incWrap_self (s : State) (f : Fld) (n : Nat) : (s.incWrap f n).get f = (s.get f + n) % 2 ^ f.width := by
  simp [State.incWrap]

/-- A saturating counter stops at the largest value of its field. -/
@[simp] theorem State.get_incSat_self (s : State) (f : Fld) (n : Nat) :
    (s.incSat f n).get f = min (s.get f + n) (2 ^ f.width - 1) := by
  have : 0 < 2 ^ f.width := Nat.two_pow_pos _
  rw [State.incSat, State.get_set_self, Nat.mod_eq_of_lt (by omega)]

end Sys2Proof.Machine
end

