-- ==== Sys2Proof/Laws/Ops.lean ====
section
/-!
SUPPORT. What the shared operations can do, one lemma each: an outcome of `attempt`, a gated write, and the part of the state that an
alert, a Logbook record, a permit or a CAN frame may change.
-/

namespace Sys2Proof.Machine

/-! ## Outcomes -/

/-- A meaning that meets no stopped unit and no undefined case completes with its state. -/
theorem attempt_next {f : State → State} {s t : State} (h : f { s with trip := none } = t) (ht : t.trip = none) :
    attempt f s = .next t := by
  simp [attempt, h, ht]

/-- What `attempt` answers: the meaning's own state, the state unchanged but for the reply, or undefined case `n`. -/
theorem attempt_cases (f : State → State) (s : State) :
    attempt f s = .next (f { s with trip := none }) ∨ attempt f s = .next { s with reply := .none } ∨
      ∃ n, (f { s with trip := none }).trip = some n ∧ n ≠ 0 ∧ attempt f s = .fault (.undefinedCase n) := by
  unfold attempt
  cases h : (f { s with trip := none }).trip with
  | none => exact .inl (by simp [h])
  | some n =>
    cases n with
    | zero => exact .inr (.inl (by simp [h]))
    | succ n => exact .inr (.inr ⟨n + 1, rfl, by omega, by simp [h]⟩)

/-- A meaning of this kind never refuses. -/
theorem attempt_not_refused (f : State → State) (s : State) (r : Refusal) : attempt f s ≠ .refused r := by
  rcases attempt_cases f s with h | h | ⟨n, _, _, h⟩ <;> rw [h] <;> nofun

/-- A command completes where `exec` answers a state with the property. -/
theorem completes_of {c : Instr} {s t : State} {post : State → Prop} (h : exec c s = .next t) (hp : post t) : Completes c s post :=
  ⟨t, h, hp⟩

theorem Completes.mono {c : Instr} {s : State} {p q : State → Prop} (h : Completes c s p) (hq : ∀ t, p t → q t) : Completes c s q :=
  let ⟨t, ht, hp⟩ := h
  ⟨t, ht, hq t hp⟩

theorem Completes.and {c : Instr} {s : State} {p q : State → Prop} (h : Completes c s p) (h' : Completes c s q) :
    Completes c s fun t => p t ∧ q t := by
  obtain ⟨t, ht, hp⟩ := h
  obtain ⟨u, hu, hq⟩ := h'
  rw [ht] at hu
  cases hu
  exact ⟨t, ht, hp, hq⟩

/-! ## Gates -/

/-- A write that reaches its register has its effect. -/
theorem gated_pass {r : Requester} {a : Nat} {s : State} (eff : State → State) (h : Reaches r a s) : gated r a eff s = eff s := by
  simp only [gated, show regGate r a s = .pass from h]

/-- What a gated write can do: its effect, nothing, or one count of an access error. -/
theorem gated_cases (r : Requester) (a : Nat) (eff : State → State) (s : State) :
    gated r a eff s = eff s ∨ gated r a eff s = s ∨ gated r a eff s = s.incSat R.HUB_LEVEL_STAT_PRE_LEVEL ∨
      gated r a eff s = s.incSat R.HUB_ACCESS_STAT_UNMAPPED := by
  unfold gated
  cases regGate r a s <;> simp

theorem inBay_cases (n : Nat) (f : State → State) (s : State) : inBay n f s = f s ∨ inBay n f s = s := by
  unfold inBay
  split <;> simp

theorem onHart_cases (c : Nat) (f : State → State) (s : State) : onHart c f s = f s ∨ onHart c f s = s := by
  unfold onHart
  split <;> simp

/-- A command register that is busy counts the write and nothing else. -/
theorem cmdWrite_cases (c : CmdReg) (eff : State → State) (s : State) :
    cmdWrite c eff s = if s.cmdBusy c then s.incSat c.ignored else eff s := rfl

/-! ## Register fields -/

/-- A write of a field changes the registers alone. -/
theorem State.set_form (s : State) (f : Fld) (v : Nat) : ∃ r, s.set f v = { s with regs := r } := ⟨_, rfl⟩
theorem State.setBit_form (s : State) (f : Fld) (b : Bool) : ∃ r, s.setBit f b = { s with regs := r } := ⟨_, rfl⟩
theorem State.incSat_form (s : State) (f : Fld) (n : Nat) : ∃ r, s.incSat f n = { s with regs := r } := ⟨_, rfl⟩

/-! ## CAN frames, vectors, alerts -/

/-- A frame that joins the transmit queue changes the CAN node alone. -/
theorem canSend_form (fn : Nat) (txn : Option Nat) (bs : List Byte) (s : State) : ∃ c, canSend fn txn bs s = { s with can := c } := by
  unfold canSend
  dsimp only
  split
  · exact ⟨s.can, rfl⟩
  · exact ⟨_, rfl⟩

theorem fireVec_form (f v : Nat) (s : State) : ∃ r m, fireVec f v s = { s with regs := r, msix := m } := by
  unfold fireVec
  dsimp only
  split
  · exact ⟨s.regs, s.msix, rfl⟩
  · split
    · exact ⟨_, s.msix, rfl⟩
    · exact ⟨s.regs, _, rfl⟩

/-- An alert changes registers, the messages sent, and the CAN queue. -/
theorem setAlert_form (k : Nat) (s : State) : ∃ r m c, setAlert k s = { s with regs := r, msix := m, can := c } := by
  unfold setAlert
  split
  · exact ⟨s.regs, s.msix, s.can, rfl⟩
  · dsimp only
    split
    · obtain ⟨c, hc⟩ := canSend_form 1 none (leBytes 4 (s.setBit (alertFld k) true).alertWord ++ leBytes 4 (2 ^ k) ++
        leBytes 4 (s.setBit (alertFld k) true).trace) (fireVec 0 1 (s.setBit (alertFld k) true))
      obtain ⟨r, m, hf⟩ := fireVec_form 0 1 (s.setBit (alertFld k) true)
      rw [hc, hf]
      exact ⟨r, m, c, rfl⟩
    · exact ⟨_, s.msix, s.can, rfl⟩

/-! ## Logbook -/

theorem logFull_form (cause : Nat) (s : State) : ∃ r m c, logFull cause s = { s with regs := r, msix := m, can := c } := by
  obtain ⟨r, m, c, h⟩ := setAlert_form alertLogFull ((s.set R.LOG_STAT_FULL 1).set R.LOG_STAT_CAUSE cause)
  exact ⟨r, m, c, h⟩

/-- A record that arrives changes the buffer, its next number, registers, and what an alert changes. -/
theorem logAccept_form (sev src code flags : Nat) (bs : List Byte) (s : State) :
    ∃ r m c b q, logAccept sev src code flags bs s = { s with regs := r, msix := m, can := c, logBuf := b, logSeq := q } := by
  unfold logAccept
  split
  · exact ⟨_, s.msix, s.can, s.logBuf, s.logSeq, rfl⟩
  · dsimp only
    split
    · exact (logFull_form 0 _).elim fun r h => h.elim fun m h => h.elim fun c h => ⟨r, m, c, _, _, h⟩
    · exact ⟨_, s.msix, s.can, _, _, rfl⟩

/-- An event that is logged uses one free value besides. -/
theorem logEvent_form (subsystem unit code : Nat) (bs : List Byte) (s : State) :
    ∃ r m c b q, logEvent subsystem unit code bs s =
      { s with regs := r, msix := m, can := c, logBuf := b, logSeq := q, freeCnt := s.freeCnt + 1 } := by
  obtain ⟨r, m, c, b, q, h⟩ := logAccept_form (1 + (Config.freeNat s.freeCnt) % 5) (subsystem + 256 * unit) code
    (State.get { s with freeCnt := s.freeCnt + 1 } R.FTM_STAT_SYNCED + 0)
    (leBytes 8 (State.time64 { s with freeCnt := s.freeCnt + 1 }) ++ bs) { s with freeCnt := s.freeCnt + 1 }
  exact ⟨r, m, c, b, q, h⟩

theorem logAlert_form (k subsystem unit code : Nat) (bs : List Byte) (s : State) :
    ∃ r m c b q, logAlert k subsystem unit code bs s =
      { s with regs := r, msix := m, can := c, logBuf := b, logSeq := q, freeCnt := s.freeCnt + 1 } := by
  obtain ⟨r, m, c, b, q, h⟩ := logAccept_form (1 + (Config.freeNat s.freeCnt) % 5) (subsystem + 256 * unit) code
    (State.get { s with freeCnt := s.freeCnt + 1 } R.FTM_STAT_SYNCED + if s.emcyDue k then 2 else 0)
    (leBytes 8 (State.time64 { s with freeCnt := s.freeCnt + 1 }) ++ bs) { s with freeCnt := s.freeCnt + 1 }
  obtain ⟨r', m', c', h'⟩ := setAlert_form k (logFlagged (s.emcyDue k) subsystem unit code bs s)
  have hl : logFlagged (s.emcyDue k) subsystem unit code bs s =
      { s with regs := r, msix := m, can := c, logBuf := b, logSeq := q, freeCnt := s.freeCnt + 1 } := h
  exact ⟨r', m', c', b, q, by rw [logAlert, h', hl]⟩

/-! ## Permits -/

theorem foldl_regs {α : Type} (l : List α) (f : State → α → State) (hf : ∀ s x, ∃ r, f s x = { s with regs := r }) (s : State) :
    ∃ r, l.foldl f s = { s with regs := r } := by
  induction l generalizing s with
  | nil => exact ⟨s.regs, rfl⟩
  | cons x l ih =>
    obtain ⟨r, h⟩ := hf s x
    obtain ⟨r', h'⟩ := ih (f s x)
    exact ⟨r', by rw [List.foldl_cons, h', h]⟩

theorem grant_form (h : Nat) (rs : List Nat) (s : State) : ∃ r, grant h rs s = { s with regs := r } :=
  foldl_regs rs _ (fun s _ => s.set_form _ _) s

theorem releasePermits_form (p : Nat → Bool) (s : State) : ∃ r, releasePermits p s = { s with regs := r } := by
  refine foldl_regs _ _ (fun t x => ?_) s
  dsimp only
  split
  · exact t.set_form _ _
  · exact ⟨t.regs, rfl⟩

/-! ## The queue -/

/-- A step takes the command in front. -/
theorem step_cons (c : Instr) (rest : List Instr) (s : State) : step { s with pending := c :: rest } = exec c { s with pending := rest } := rfl

end Sys2Proof.Machine
end

