-- ==== Sys2Proof/Laws/Memory.lean ====
section
/-!
SUPPORT. Memory: what a byte reads after a store, and that every operation over memory keeps its canonical form.
-/

namespace Sys2Proof.Machine

/-! ## Bytes -/

@[simp] theorem State.byte_setByte (s : State) (k j : Nat) (b : Byte) : (s.setByte k b).byte j = if k = j then b else s.byte j := by
  simp [State.byte, State.setByte, tget_tset]

/-- A store of several bytes changes memory alone. -/
theorem putBytes_form (k : Nat) (bs : List Byte) (s : State) : ∃ m, putBytes k bs s = { s with mem := m } := by
  induction bs generalizing k s with
  | nil => exact ⟨s.mem, rfl⟩
  | cons b r ih =>
    obtain ⟨m, h⟩ := ih (k + 1) (s.setByte k b)
    exact ⟨m, h⟩

/-- After a store the stored bytes read as stored, and every other byte as before. -/
theorem byte_putBytes (k : Nat) (bs : List Byte) (s : State) (a : Nat) :
    (putBytes k bs s).byte a = if k ≤ a ∧ a < k + bs.length then bs.getD (a - k) 0 else s.byte a := by
  induction bs generalizing k s with
  | nil =>
    rw [if_neg (by simp; try omega)]
    rfl
  | cons b r ih =>
    rw [putBytes, ih, State.byte_setByte]
    by_cases h : k = a
    · subst h
      rw [if_neg (by omega), if_pos rfl, if_pos (by simp)]
      simp
    · rw [if_neg h]
      simp only [List.length_cons]
      by_cases h' : k + 1 ≤ a ∧ a < k + 1 + r.length
      · rw [if_pos h', if_pos (by omega), show a - k = (a - (k + 1)) + 1 by omega]
        simp
      · rw [if_neg h', if_neg (by omega)]

/-! ## Canonical form -/

theorem reset_memWf : memWf State.reset.mem = true := rfl

theorem setByte_memWf {s : State} (k : Nat) (b : Byte) (h : memWf s.mem = true) : memWf (s.setByte k b).mem = true :=
  tcanon_tset _ _ _ _ h

theorem putBytes_memWf {s : State} (k : Nat) (bs : List Byte) (h : memWf s.mem = true) : memWf (putBytes k bs s).mem = true := by
  induction bs generalizing k s with
  | nil => exact h
  | cons b r ih => exact ih (k + 1) (setByte_memWf k b h)

theorem rising_filter {α : Type} (p : Nat × α → Bool) (t : List (Nat × α)) (h : trising t = true) : trising (t.filter p) = true := by
  induction t with
  | nil => rfl
  | cons a r ih =>
    have hr := ((trising_cons a r).mp h).2
    rw [List.filter_cons]
    split
    · rw [trising_cons]
      refine ⟨fun x hx => rising_lt r a h x ?_, ih hr⟩
      exact (List.mem_filter.mp (List.mem_of_mem_head? hx)).1
    · exact ih hr

/-- A memory of which some entries are lost keeps the form. -/
theorem memWf_filter (p : Host.Cell → Bool) (m : List Host.Cell) (h : memWf m = true) : memWf (m.filter p) = true := by
  simp only [memWf, tcanon, Bool.and_eq_true, List.all_eq_true] at h ⊢
  exact ⟨rising_filter p m h.1, fun x hx => h.2 x (List.mem_filter.mp hx).1⟩

/-- The same for the byte read at an address: kept where the entry is, 0 elsewhere. -/
theorem tget_filter {α : Type} (d : α) (p : Nat → Bool) (t : List (Nat × α)) (k : Nat) :
    tget d (t.filter fun x => p x.1) k = if p k then tget d t k else d := by
  induction t with
  | nil => simp [tget]
  | cons a r ih =>
    obtain ⟨j, v⟩ := a
    rw [List.filter_cons]
    by_cases hj : j = k
    · subst hj
      by_cases hp : p j = true
      · simp [tget, hp]
      · simp [hp, ih]
    · by_cases hp : p j = true
      · simp [tget, hp, hj, ih]
      · simp [tget, hp, hj, ih]

/-! ## The operations -/

theorem atHome_form (k : Nat) (s : State) : ∃ x, atHome k s = { s with trip := x } := by
  unfold atHome
  split
  · exact ⟨_, rfl⟩
  · exact ⟨s.trip, rfl⟩

theorem undef_form (s : State) (n : Nat) : ∃ x, s.undef n = { s with trip := x } := by
  unfold State.undef
  split
  · exact ⟨s.trip, rfl⟩
  · exact ⟨_, rfl⟩

/-- A write at its home changes memory, error marks, reservations and the undefined case; memory becomes what `putBytes` stores. -/
theorem writeHome_form (k : Nat) (bs : List Byte) (s : State) :
    ∃ p b h x, writeHome k bs s = { putBytes k bs s with poison := p, badWords := b, harts := h, trip := x } := by
  unfold writeHome
  dsimp only
  split
  · obtain ⟨x, hx⟩ := atHome_form k (State.undef { putBytes k bs s with
      poison := (putBytes k bs s).poison.filter fun b => !(decide (k ≤ 64 * b) && decide (64 * b + 64 ≤ k + bs.length))
      badWords := (putBytes k bs s).badWords.filter fun b => !(decide (k ≤ 8 * b) && decide (8 * b + 8 ≤ k + bs.length))
      harts := (putBytes k bs s).harts.map fun p => (p.1, dropResv k bs.length p.2) } 4)
    obtain ⟨y, hy⟩ := undef_form { putBytes k bs s with
      poison := (putBytes k bs s).poison.filter fun b => !(decide (k ≤ 64 * b) && decide (64 * b + 64 ≤ k + bs.length))
      badWords := (putBytes k bs s).badWords.filter fun b => !(decide (k ≤ 8 * b) && decide (8 * b + 8 ≤ k + bs.length))
      harts := (putBytes k bs s).harts.map fun p => (p.1, dropResv k bs.length p.2) } 4
    exact ⟨_, _, _, x, by rw [hx, hy]⟩
  · obtain ⟨x, hx⟩ := atHome_form k { putBytes k bs s with
      poison := (putBytes k bs s).poison.filter fun b => !(decide (k ≤ 64 * b) && decide (64 * b + 64 ≤ k + bs.length))
      badWords := (putBytes k bs s).badWords.filter fun b => !(decide (k ≤ 8 * b) && decide (8 * b + 8 ≤ k + bs.length))
      harts := (putBytes k bs s).harts.map fun p => (p.1, dropResv k bs.length p.2) }
    exact ⟨_, _, _, x, hx⟩

theorem writeHome_memWf {s : State} (k : Nat) (bs : List Byte) (h : memWf s.mem = true) : memWf (writeHome k bs s).mem = true := by
  obtain ⟨p, b, hh, x, e⟩ := writeHome_form k bs s
  rw [e]
  exact putBytes_memWf k bs h

/-- A write at its home stores its bytes and no others. -/
theorem byte_writeHome (k : Nat) (bs : List Byte) (s : State) (a : Nat) :
    (writeHome k bs s).byte a = if k ≤ a ∧ a < k + bs.length then bs.getD (a - k) 0 else s.byte a := by
  obtain ⟨p, b, hh, x, e⟩ := writeHome_form k bs s
  rw [e]
  exact byte_putBytes k bs s a

theorem dumpKept_memWf {s : State} (bays : List Nat) (h : memWf s.mem = true) : memWf (dumpKept bays s).mem = true := memWf_filter _ _ h

theorem foldl_setByte_memWf (lo : Nat) (cells : List (Nat × Byte)) {s : State} (h : memWf s.mem = true) :
    memWf (cells.foldl (fun t p => t.setByte (lo + p.1) p.2) s).mem = true := by
  induction cells generalizing s with
  | nil => exact h
  | cons p r ih => exact ih (setByte_memWf _ _ h)

theorem writeSegment_memWf {s : State} (n : Nat) (cells : List (Nat × Byte)) (h : memWf s.mem = true) :
    memWf (writeSegment n cells s).mem = true :=
  foldl_setByte_memWf _ cells (memWf_filter _ _ h)

end Sys2Proof.Machine
end

