-- ==== Sys2Proof/Tests/Slice0.lean ====
section
/-!
SUPPORT. Tests of the model on small states: what the checks of WellFormed refuse, what single commands do, and for every statement
with hypotheses a state and operands that meet them.
-/

namespace Sys2Proof.Tests

open Sys2Proof Sys2Proof.Machine

-- One theorem after another: the tests hold no more than one kernel computation at a time.
set_option Elab.async false
set_option linter.unusedVariables false

/-- Fields set one after another. -/
def sets (l : List (Fld × Nat)) (s : State) : State := l.foldl (fun t p => t.set p.1 p.2) s

/-- A package in service: booted, with a link to its host, the level written, and eight bays. -/
def rdy : State :=
  sets [(R.HUB_BOOT_STATE, 1), (R.HUB_BOOT_STEP, 11), (R.HUB_LEVEL_STAT_WRITTEN, 1), (R.HUB_BAY_MAP_BAY_IN_SERVICE, 255)]
    { State.reset with pcieLink := some (6, 16), hbmBays := List.range 8 }

/-- The package with hart 0 as given. -/
def hart0 (h : Hart) (s : State) : State := s.putHart 0 h

/-- Register fields of an instruction. -/
def rf (rd rs1 rs2 : Nat) : RFields := ⟨BitVec.ofNat 5 rd, BitVec.ofNat 5 rs1, BitVec.ofNat 5 rs2⟩

/-- A hart with registers x1, x2 and x3 set. -/
def hx (a b c : Nat) : Hart := { Hart.reset with x := [(1, BitVec.ofNat 64 a), (2, BitVec.ofNat 64 b), (3, BitVec.ofNat 64 c)] }

/-- The state after a step, or the same state. -/
def stepTo (s : State) : State := match step s with | .next t => t | _ => s

/-- A context of tenant 15. -/
def ctx0 : ContextImage where
  tenant := 15
  hsEn := true
  hdEn := false
  hxEn := true
  pc := 0x1000
  satp := 0
  fs := 3
  vs := 0
  xs := 1
  x := (List.range 32).map fun i => BitVec.ofNat 64 (3 * i)
  f := []
  fcsr := 0
  v := []
  vl := 0
  vtype := 0
  tile := []
  tscale := []
  acc := []
  hxseq := 0xFFFFFFFF
  hraise := 0
  hfqhead := 0

/-- A unit-stride vector access of 32-bit elements. -/
def vacc : VecAcc := ⟨.w, .unit, 0, false⟩

/-- A hart with vector state on, one 32-bit element, and x1 in its core store. -/
def vh : Hart := (((hx 0x9000000004 0 0).setMst 9 2 1).setCsr csrVl 1).setCsr csrVtype 0x10

/-- Block 255 of the pegs belongs to tenant 0. -/
def pg : State := sets [(R.PEG_BLK_VALID 255, 1)] rdy

/-- A hart with matrix state on and x1 at `a`, x2 at `b`. -/
def mh (a b : Nat) : Hart := (hx a b 0).setMst 15 2 1

/-- A tile descriptor for engine `e` with completion peg 65535, as 128 bytes. -/
def desc (e : Nat) : List Byte := leBytes 8 (e + 2 ^ 32 * 65535) ++ List.replicate 120 0

/-- The bytes `bs` from home key `k` on, where they are not 0. -/
def memOf (k : Nat) (bs : List Byte) : List Host.Cell := (bs.zipIdx.filter fun p => p.1 != 0).map fun p => (k + p.2, p.1)

/-- Fabric tag 5 names tenant 0, whose page 1 is the first page of bay buffer 0. -/
def ag : State :=
  { sets [(R.MEM_FTAG_TAG 0, 5), (R.MEM_FTAG_VALID 0, 1), (R.MEM_TSATP_MODE 0, 9)] pg with atc := [⟨0, 0, 1, 0, 0x20000000D7⟩] }

/-- A request of package 7 for address or peg `a`, with `size` and `data`. -/
def xb (attr size a : Nat) (data : List Byte) : XBody :=
  { attr := BitVec.ofNat 5 attr, size := BitVec.ofNat 9 size, core := 3, ftag := 5, iseq := 9, addr := BitVec.ofNat 48 a, data := data }

/-- The frame that brings it. -/
def env7 : Envelope := ⟨7, 0⟩

/-- DMA queue 0 of tenant 0, enabled with one task, its ring at page 1 and its status words at 0x1800. -/
def q0 : State :=
  sets [(R.DSP_Q_EN 0 0, 1), (R.DSP_Q_TYPE 0 0, 1), (R.DSP_Q_BASE 0 0, 1), (R.DSP_Q_SBASE 0 0, 0x60), (R.DSP_Q_TAIL 0 0, 1)] ag

/-- The queue with task 0 of descriptor `d` in state `st`, with source and destination pieces. -/
def q0t (d : List Byte) (st : TaskState) (src dst : List (Nat × Nat)) (sg : Option (Nat × Nat × Nat)) : State :=
  { sets [(R.DSP_Q_HEAD 0 0, 1)] q0 with queues := [(0, ⟨[⟨0, st, d, src, dst, sg⟩], false, none⟩)] }

/-- A SIGNAL descriptor for peg operand `a`, with 3, and completion peg 65535. -/
def sigDesc (a : Nat) : List Byte := leBytes 8 (2 + 2 ^ 32 * 65535) ++ List.replicate 32 0 ++ leBytes 8 a ++ leBytes 8 3 ++ List.replicate 72 0

/-- A tile in the queue of engine `e`. -/
def tile0 (e : Nat) (src : TileSrc) : Tile := ⟨7, desc e, 0, e / 2, src, none, false, false, false, none⟩

/-- A tile descriptor for engine `e`, 8-bit inputs, 7-bit weights, completion peg 65535: weights at 0x1000, row scales at 0x2000, inputs at
0x2100, input scales at 0x2200, outputs at 0x3000. -/
def tdesc (e ceiling nvec strict : Nat) : List Byte :=
  leBytes 8 (e + 2 ^ 5 + 2 ^ 7 * strict + 2 ^ 12 * 3 + 2 ^ 16 * ceiling + 2 ^ 32 * 65535) ++ leBytes 8 (nvec + 2 ^ 32 * 0xABCD) ++ leBytes 8 0x1000 ++
  leBytes 8 64 ++ leBytes 8 0x2000 ++ leBytes 8 0x2100 ++ leBytes 8 64 ++ leBytes 8 0x2200 ++ leBytes 8 0x3000 ++ leBytes 8 128 ++
  List.replicate 48 0

/-- The pages of that tile, in bay buffer 0. -/
def tpages : List (Nat × Nat) := [(1, 0x8000000000), (2, 0x8000001000), (3, 0x8000002000)]

/-- A tile of engine 15 launched by hart 0 into slot 2 with serial 9. -/
def tl (ceiling nvec : Nat) : Tile := ⟨7, tdesc 15 ceiling nvec 0, 0, 7, .hart 0 (some (2, 9)), some tpages, false, false, false, none⟩

/-- What staging has made of it. -/
def stg : Staged := ⟨[], List.replicate 64 3, List.replicate 64 0x3C00, 2, false, 0, 7, false⟩

/-- Engine 15 in state `st` with contents `g`; hart 0 waits for nothing and has a ticket. -/
def en (st : Nat) (g : Machine.Eng) : State :=
  { hart0 { hx 1 2 3 with slots := [(2, ⟨9, none⟩)] } (sets [(R.PMX_STAT_STATE 15, st), (R.PMX_STAT_LOCKED 15, 1), (R.PMX_ERR_ERR 15 2, 100)] pg)
    with engs := [(15, g)] }

/-- The fallback path of bay 7 with a tile whose weights, scales and inputs are in memory. -/
def fb1 : State :=
  { en 2 Machine.Eng.reset with
      fbq := [(7, [tl 9 1])], mem := [(0x8000000000, 3), (0x8000001001, 0x3C), (0x8000001100, 2), (0x8000001201, 0x3C)] }

/-- Port 31 up towards package 7. -/
def net : State :=
  sets [(R.LNK_STAT_STATE 31, 4), (R.LNK_STAT_WIDTH 31, 16), (R.LNK_PEER_PKG 31, 7), (R.LNK_DTAB_VALID 7, 1), (R.LNK_DTAB_GANG 7, 1),
        (R.LNK_GANG_PORTS 1, 2 ^ 31)] rdy

/-- A WRITE of three bytes, and its frame to package `d`. -/
def wr3 : Xact := { op := 1, body := xb 0 3 0x1FFD [1, 2, 3] }
def fr (d hops : Nat) : Frame := ⟨0, d, 9, 5, hops, [wr3]⟩

/-- A training body of package 7 with all lines, epoch `e`. -/
def tb (e lines : Nat) : TrainBody := ⟨1, false, false, 7, 3, BitVec.ofNat 32 e, BitVec.ofNat 16 lines, 0⟩

/-- Port 31 in state `st` with contents `x`. -/
def ptAt (st : Nat) (x : PortSt) : State := (sets [(R.LNK_STAT_STATE 31, st)] net).putPort 31 x

/-- A map that expresses line 0 of port 0 to port 1, with its check word, staged; plane 0 is in service. -/
def staged : State :=
  sets [(R.SLC_STAGE_WORD 0, 0x201001), (R.SLC_STAGE_WORD 1, 7), (R.SLC_STAGE_WORD 15, 2511449800), (R.SLC_STAGE_WORD 16, 0x11),
        (R.SLC_PLAN_STATUS, 1), (R.HUB_PLANE_MAP_PLANE_IN_SERVICE, 1)] rdy

/-- The words of that map, and a plan of it. -/
def mapW : List Nat := (List.range 272).map fun i => if i = 0 then 0x201001 else if i = 1 then 7 else if i = 15 then 2511449800 else if i = 16 then 0x11 else 0
def plan0 : SlcPlan := ⟨mapW, [144, 177], [0], [], [16]⟩

/-- That plan in state `st` of SLC_PLAN. -/
def planned (st : Nat) : State :=
  { sets [(R.SLC_PLAN_STATUS, st), (R.HUB_PLANE_MAP_PLANE_IN_SERVICE, 1)] rdy with slcPlan := some plan0 }

/-- Elements of plane 0 whose heater codes are 0 for BAR and 2,000 for CROSS at any temperature. -/
def codes0 : List (Nat × Int) :=
  (List.range 208).flatMap fun j => [(smallKey 2 0 (elemField j 0), 0), (smallKey 2 0 (elemField j 1), 2000), (smallKey 2 0 (elemField j 2), 0),
                                     (smallKey 2 0 (elemField j 3), 0)]

/-- A beacon of package 9, port 3, with its check byte. -/
def bcn : Nat := let n := 0xB5C3 + 2 ^ 16 + 2 ^ 20 * 9 + 2 ^ 40 * 3; n + 2 ^ 120 * beaconCrc n

/-- Laser 7 lit for its own feed, engines 14 and 15 IDLE, port 31 up, and spare 9 in state `w`. -/
def lz (w : Nat) : State :=
  sets [(R.LAS_STAT_STATE 7, 3), (R.LAS_STAT_SERVES 7, 7), (R.LAS_STAT_STATE 9, w), (R.LAS_STAT_SERVES 9, 15), (R.PMX_STAT_STATE 14, 2),
        (R.PMX_STAT_STATE 15, 2), (R.HUB_LASER_MAP_LASER_LIT, 0x3FF)] net

/-- The last weight ring of engine 15, and a loop on it in state `st`. -/
def rg : Ring := .engWeight 15 63 63
def lp (st : Nat) : Loop :=
  { Loop.reset with st := st, setpoint := 2000, pol := some 1, x := [8, -8, 3], v := [100, 200, 300],
                    active := some { b0 := 16384, b1 := 65000, b2 := 7, b3 := 9, a1 := 8192, a2 := 65535, a3 := 1, shift := 1, form := 1 } }
def lps (l : Loop) : State := { sets [(R.PMX_STAT_STATE 15, 2)] rdy with loops := [(ringId rg, l)] }

/-- A chain of which ring 15 is still to be acquired, and a sweep that finds its line at 30,000. -/
def ch15 : State :=
  { sets [(R.PMX_STAT_STATE 15, 1)] rdy with loops := (chainRings (.engWeight 15 63 3)).map fun i => (i, { Loop.reset with st := if i % 16 = 15 then 1 else 2 }) }
def res15 : Resonance := { code := 30000, tones := List.replicate 15 10 ++ [20000], halfDepth := 1500 }
def sweep15 : RingSweep := { pred := 31000, codesPerLine := 1000, found := [res15] }

/-- A calibration request for unit `u` with its permits. -/
def scb (u : Nat) (res : List Nat) : ScbReq := ⟨u, false, false, 0, 100, res, 0⟩

/-- Domain 1 with port 31 as its parent, grandmaster 9, tracker in state `st`. -/
def dm (st : Nat) (x : TimeDom) : State :=
  (sets [(R.FTM_DOM_EN 1, 1), (R.FTM_DOM_PARENT 1, 31), (R.FTM_DOM_GM_PKG 1, 9), (R.FTM_DOM_STATE 1, st), (R.LNK_DELAY 31, 1000)] net).putDom 1 x
def dom0 : TimeDom := { exch := [], good := 0, updated := false, outSeq := 65535, txStamp := [] }
def tbd (msg seq gm stamp : Nat) : TimeBody := ⟨BitVec.ofNat 2 msg, 1, false, 3, BitVec.ofNat 16 seq, BitVec.ofNat 64 stamp, BitVec.ofNat 20 gm, true⟩
def ex (t3 t4 : Option Nat) (bad : Bool) : Exch := ⟨65535, 9, 1004, none, t3, t4, 3, bad⟩

/-- Function 0 with messages enabled, VFs on, node 5 on the CAN bus. -/
def host : State :=
  { sets [(R.HUB_CAN_STAT_STATE, 1), (R.HUB_CAN_STAT_NODE, 5), (R.MSIX_TABLE_CTL_MASK 0 0, 0), (R.MSIX_TABLE_CTL_MASK 0 9, 0)] rdy with
      fnCfg := [(0, ⟨false, true, true, false⟩), (16, ⟨false, true, true, false⟩)], vfEnable := true, numVfs := 16, drs := 1 }

/-- The node with a transaction in progress and frames that wait. -/
def canf (i : Nat) (won : Bool) (txn : Option Nat) : CanFrame := { ident := i, data := [], won := won, txn := txn }
def ctx1 (len : Nat) : CanTxn := ⟨9, 2, 1, 3, 0, len, 1, List.replicate 48 0, false⟩
def canAt (x : Option CanTxn) (q : List CanFrame) : State := { host with can := { host.can with txn := x, txq := q } }

/-- The bytes of a CAN request. -/
def creq (kind txn op a i off len : Nat) : List Byte :=
  leBytes 1 kind ++ leBytes 1 txn ++ leBytes 1 op ++ leBytes 1 a ++ leBytes 2 i ++ leBytes 2 0 ++ leBytes 4 off ++ leBytes 4 len

/-- A reset of kind `k` in phase `p`. -/
def rst (k p : Nat) : State := sets [(R.HUB_RESET_STAT_KIND, k), (R.HUB_RESET_STAT_PHASE, p), (R.HUB_CRESET_CMD_STATUS, 1)] host

/-- A fabric control message of `n` bytes to package `d`, in the registers of the driver. -/
def fct (op d n : Nat) : State := sets [(R.HUB_FCTX_ARG_DST, d), (R.HUB_FCTX_ARG_SIZE, n), (R.HUB_FCTX_ARG_OP, op), (R.HUB_FCTX_DATA_WORD 7, 0xF0000001)] net

/-- A ledger record, and slots. -/
def um0 : UnitMasks := ⟨0, 0, 0, 0, 0⟩
def led : LedgerRec := ⟨4294967295, 3, 1, 0, um0, 1, 0, 0, um0, um0, um0⟩
def img2 : ImgSlot := ⟨2, 3, 65536, 7, 2, 256, 0⟩

/-- The package without power, and at step `k` of a boot that has hung with `nib` in BOOT_STEPS. -/
def dark : State := { State.reset with powered := false, ledger := [led], slotA := img2 }
def hung (k nib : Nat) : State :=
  sets [(R.HUB_BOOT_STEP, k), (R.HUB_BOOT_STEPS_STEPS, 0xCCCCCCCCCCCC % 2 ^ (4 * (k - 1)) + nib * 2 ^ (4 * (k - 1)))] { State.reset with bootWait := none }
def env5 : BootEnv where
  testEn := false
  bootMode := 0
  nvmFail := false
  authFailA := false
  authFailB := true
  hubFail := false
  hbmFail := 0x81
  laserFail := 1
  controlFail := false
  ringFail := 0x8000
  pairFail := 1
  portFail := 1
  bayFail := 2
  ucieFail := 1
  refOk := true
  gateSelfTestA := true
  gateSelfTestB := true
  calMissing := [3]
  hang := 5

/-- A header of an image of `n` bytes, version 77. -/
def hdr (n : Nat) : List Byte :=
  leBytes 8 0x31474D494B564E48 ++ leBytes 4 1 ++ leBytes 4 77 ++ leBytes 1 0xA1 ++ List.replicate 3 0 ++ leBytes 4 n ++ List.replicate 232 0
def stagingOf (slot got : Nat) : FwStaging := ⟨slot, 65536, true, got, hdr 65536⟩

/-- Records of the Logbook. -/
def lrec (seq code : Nat) : LogRec := ⟨seq, 5, 6, 2, 9, code, 0, List.replicate 40 (BitVec.ofNat 8 seq)⟩
def lev : LogEvent := ⟨3, 0x105, 0x0901, 1, List.replicate 32 0xAB⟩
def lb (buf recs : List LogRec) : State := { host with logBuf := buf, logRecs := recs, logSeq := buf.length + recs.length }

/-- Domain `d` switched on or off, with port and engine 0 in service. -/
def pw (d en st : Nat) : State := sets [(R.PWR_DOM_EN d, en), (R.PWR_DOM_STATE d, st)] (lz 2)

/-- A state with no engine in use is quiet. -/
theorem quiet_of {s : State} (he : s.engs = []) (h1 : s.scbRun = none) (h2 : s.scbQueue = []) (h3 : s.slcPlan = none) : Quiet s := by
  refine ⟨fun e => ?_, h1, h2, h3⟩
  simp only [State.eng, he]
  exact ⟨rfl, rfl, rfl⟩

/-- No engine of `s` holds a tile. -/
def idle (s : State) : Bool := s.engs.all fun g => g.2.queue == [] && !g.2.running

theorem idle_eng {s : State} (h : idle s = true) (e : Nat) : (s.eng e).queue = [] ∧ (s.eng e).running = false := by
  unfold idle at h
  unfold State.eng
  generalize s.engs = l at h
  induction l with
  | nil => exact ⟨rfl, rfl⟩
  | cons p l ih =>
    simp only [List.all_cons, Bool.and_eq_true, beq_iff_eq, Bool.not_eq_true'] at h
    simp only [tget]
    split
    · exact h.1
    · exact ih h.2

/-- No hart of `s` waits in a PEG.TAKE. -/
def takeless (s : State) : Bool :=
  s.harts.all fun x => match x.2.wait with
    | .peg true _ _ _ => false
    | _ => true

theorem takes_of {s : State} {p : Nat} (h : takeless s = true) : NoTakes s p := by
  intro v
  unfold takeless at h
  unfold satisfied
  rw [List.map_eq_nil_iff, List.filter_eq_nil_iff]
  intro x hx
  have hy := List.all_eq_true.mp h x hx
  obtain ⟨c, w⟩ := x
  simp only at hy ⊢
  generalize w.wait = y at hy ⊢
  cases y with
  | peg tk => cases tk <;> simp_all
  | _ => simp

theorem cpeg_of {s : State} {t : Nat} {d : List Byte} (h : takeless s = true)
    (hp : (pegOwned s t (descCpeg d) && !s.bit (R.PEG_VAL_POISON (descCpeg d)) && !s.bayDead (descCpeg d / 8192)) = true) :
    CpegTakes s t d := by
  simp only [Bool.and_eq_true, Bool.not_eq_true'] at hp
  exact ⟨hp.1.1, hp.1.2, hp.2, takes_of h⟩

/-- The clauses of `AgentAt`, checked one after another. -/
def agentOk (s : State) (t va : Nat) (wr : Bool) (k : Nat) : Bool :=
  s.get (R.MEM_TSATP_MODE t) == 9 && (match s.place (s.get (R.MEM_TSATP_PPN t) * 4096) with | .mem _ => true | _ => false) &&
  canonical48 va && (match s.atc.find? (tlbCovers t (s.get (R.MEM_TSATP_ASID t)) (nfld va 12 36)) with
    | some e => nbit e.pte 4 && nbit e.pte 6 && nbit e.pte 1 && (!wr || nbit e.pte 2 && nbit e.pte 7) && s.place (leafPa ⟨e.pte, e.level⟩ va) == .mem k
    | none => false) && !s.memStopped k

theorem agent_of {s : State} {t va : Nat} {wr : Bool} {k : Nat} (h : agentOk s t va wr k = true) : AgentAt s t va wr k := by
  unfold agentOk at h
  simp only [Bool.and_eq_true, beq_iff_eq, Bool.not_eq_true'] at h
  obtain ⟨⟨⟨⟨h1, h2⟩, h3⟩, h4⟩, h5⟩ := h
  refine ⟨h1, ?_, h3, ?_, h5⟩
  · split at h2
    · exact ⟨_, ‹_›⟩
    · cases h2
  · split at h4
    · rename_i e he
      simp only [Bool.and_eq_true, beq_iff_eq, Bool.or_eq_true, Bool.not_eq_true'] at h4
      obtain ⟨⟨⟨⟨a, b⟩, c⟩, d⟩, f⟩ := h4
      exact ⟨e, he, a, b, c, fun hw => by simpa [hw] using d, f⟩
    · cases h4

theorem status_of {s : State} {t q i k : Nat}
    (h : agentOk s t (sext48 (s.get (R.DSP_Q_SBASE t q) * 64 + i % s.qSize t q * 8)) true k = true)
    (h1 : sext48 (s.get (R.DSP_Q_SBASE t q) * 64 + i % s.qSize t q * 8) % 4096 + 8 ≤ 4096) (h2 : s.hitsWeights k 8 = false) :
    StatusAt s t q i k := ⟨agent_of h, h1, h2⟩

/-- An entry that exists is one of those of its area. -/
theorem od_mem {a i : Nat} (h : (odEntry a i).isSome = true) : i ∈ (odArea a).map Prod.fst := by
  simp only [odEntry, Option.isSome_map, List.find?_isSome] at h
  obtain ⟨x, hx, he⟩ := h
  exact List.mem_map.mpr ⟨x, hx, by simpa using he⟩

theorem od_area {a i : Nat} (h : (odEntry a i).isSome = true) : a ≤ 6 := by
  apply Classical.byContradiction
  intro ha
  have := od_mem h
  match a, ha with
  | n + 7, _ => simp [odArea] at this

/-- A CRC-32C over words, a group at a time: each group comes with the state after it. -/
def crcChain : Nat → List (List Nat × Nat) → Bool
  | _, [] => true
  | c, (g, d) :: r => crcBytes polyC c (wordsBytes g) == d && crcChain d r

theorem crcChain_end {c : Nat} {l : List (List Nat × Nat)} (h : crcChain c l = true) :
    crcBytes polyC c (wordsBytes (l.flatMap Prod.fst)) = (l.getLast?.map Prod.snd).getD c := by
  induction l generalizing c with
  | nil => rfl
  | cons p r ih =>
    obtain ⟨g, d⟩ := p
    simp only [crcChain, Bool.and_eq_true, beq_iff_eq] at h
    have hr := ih h.2
    simp only [wordsBytes, crcBytes, List.flatMap_cons, List.flatMap_append, List.foldl_append] at hr h ⊢
    rw [h.1, hr]
    cases r with
    | nil => simp
    | cons q r => simp [List.getLast?_eq_some_getLast]

/-- Check 2 of a map by groups. -/
theorem mapCrc_of {ws : List Nat} (l : List (List Nat × Nat)) (hw : ws.take 15 ++ ws.drop 16 = l.flatMap Prod.fst)
    (hc : crcChain 0xFFFFFFFF l = true) (he : ((l.getLast?.map Prod.snd).getD 0xFFFFFFFF ^^^ 0xFFFFFFFF) = ws.getD 15 0) : mapCrcOk ws = true := by
  simp only [mapCrcOk, crc32c, hw, crcChain_end hc, beq_iff_eq]
  exact he

/-- The checks of PLAN, one after another. -/
theorem planChecks_of {ws es cs : List Nat} {s : State} (h1 : mapFieldsOk ws es = true) (h2 : mapCrcOk ws = true)
    (h3 : mapBase ws = s.get R.SLC_MAPID_MAP_ID) (h4 : unitChecks es s = none)
    (h6 : ((List.range 512).any fun k => entAction (es.getD k 0) == 1 && entKeep (es.getD k 0) && !sameRoute es cs k) = false) :
    planChecks ws es cs s = none := by
  simp [planChecks, h1, h2, h3, h4]
  simpa using h6

/-- Maps that express nothing do not clash and need no plan. -/
theorem noExpress {es : List Nat} (h : (es.all (· == 0)) = true) (k : Nat) : es[k]?.getD 0 = 0 := by
  simp only [List.all_eq_true, beq_iff_eq] at h
  cases he : es[k]? with
  | none => rfl
  | some v => exact h v (List.mem_of_getElem? he)

theorem noClash {es : List Nat} (h : (es.all (· == 0)) = true) : mapClash es = false := by
  simp [mapClash, expressTo, noExpress h, entAction, List.length_eq_zero_iff.mpr]

theorem noColl {ws es cs : List Nat} {s : State} (h : (es.all (· == 0)) = true) :
    ((makePlan ws es cs s).coll.any fun k => entKeep (es.getD k 0)) = false := by
  simp [makePlan, collateral, pathOfBoth, noExpress h, entAction]

/-- A map whose words from 16 on are 0 has entries of 0. -/
theorem zeroEntries {ws : List Nat} (h : ((ws.drop 16).all (· == 0)) = true) : ((mapEntries ws).all (· == 0)) = true := by
  simp only [mapEntries, List.all_map, List.all_eq_true, Function.comp, beq_iff_eq]
  intro k _
  have hk : ws.getD (16 + k / 2) 0 = 0 := by
    have := noExpress h (k / 2)
    simpa [List.getElem?_drop] using this
  simp only [mapEntry, hk, nfld]
  simp

/-- The checks of a map that expresses nothing. -/
theorem planChecks_none {ws cs : List Nat} {s : State} (h : ((ws.drop 16).all (· == 0)) = true)
    (h1 : (nfld (ws.getD 0 0) 0 8 == 1 && nfld (ws.getD 0 0) 8 8 == 16 && nfld (ws.getD 0 0) 16 8 == 32 && nfld (ws.getD 0 0) 25 7 == 0 &&
      mapId ws != 0 && (List.range 9).all (fun i => ws.getD (6 + i) 0 == 0)) = true)
    (h2 : mapCrcOk ws = true) (h3 : mapBase ws = s.get R.SLC_MAPID_MAP_ID) : planChecks ws (mapEntries ws) cs s = none := by
  have hz := zeroEntries h
  have he := noExpress hz
  refine planChecks_of ?_ h2 h3 ?_ ?_
  · simp only [mapFieldsOk, h1, Bool.true_and]
    simp only [List.all_eq_true, beq_iff_eq] at hz ⊢
    intro e hm
    rw [hz e hm]
    decide
  · simp [unitChecks, he, entAction]
  · simp [he, entAction]

/-- A map that expresses nothing, staged; and one in which two ports express line 0 to one. -/
def stagedNone : State :=
  sets [(R.SLC_STAGE_WORD 0, 0x201001), (R.SLC_STAGE_WORD 1, 7), (R.SLC_STAGE_WORD 15, 3195158095), (R.SLC_PLAN_STATUS, 1),
        (R.HUB_PLANE_MAP_PLANE_IN_SERVICE, 1)] rdy
def stagedClash : State := sets [(R.SLC_STAGE_WORD 24, 0x11), (R.SLC_STAGE_WORD 15, 2391378292)] staged

/-- The groups of their check words. -/
def chainNone : List (List Nat × Nat) :=
  [([0x201001, 7, 0, 0, 0, 0, 0, 0], 131577796), (List.replicate 8 0, 1058234627), (List.replicate 8 0, 2393429340),
   (List.replicate 8 0, 1886517965), (List.replicate 8 0, 4213383799), (List.replicate 8 0, 3651619809),
   (List.replicate 8 0, 941871450), (List.replicate 8 0, 3342771388), (List.replicate 8 0, 323969274),
   (List.replicate 8 0, 2194977816), (List.replicate 8 0, 3562197040), (List.replicate 8 0, 3437661896),
   (List.replicate 8 0, 386202900), (List.replicate 8 0, 3669031540), (List.replicate 8 0, 4084171113),
   (List.replicate 8 0, 1809573923), (List.replicate 8 0, 2193375603), (List.replicate 8 0, 127437473),
   (List.replicate 8 0, 1517611781), (List.replicate 8 0, 2176352898), (List.replicate 8 0, 2893349616),
   (List.replicate 8 0, 87204008), (List.replicate 8 0, 3189705520), (List.replicate 8 0, 2969378214),
   (List.replicate 8 0, 1544597461), (List.replicate 8 0, 3131183636), (List.replicate 8 0, 4014358119),
   (List.replicate 8 0, 2870569961), (List.replicate 8 0, 644968540), (List.replicate 8 0, 1187797826),
   (List.replicate 8 0, 3694909214), (List.replicate 8 0, 3039486775), (List.replicate 8 0, 1054072254),
   (List.replicate 7 0, 1099809200)]
def chainClash : List (List Nat × Nat) :=
  [([0x201001, 7, 0, 0, 0, 0, 0, 0], 131577796), ([0, 0, 0, 0, 0, 0, 0, 0x11], 187857542), ([0, 0, 0, 0, 0, 0, 0, 0x11], 3149551030),
   (List.replicate 8 0, 2837803224), (List.replicate 8 0, 1077960220), (List.replicate 8 0, 2496038595),
   (List.replicate 8 0, 168694116), (List.replicate 8 0, 1921220788), (List.replicate 8 0, 1643498860),
   (List.replicate 8 0, 426348411), (List.replicate 8 0, 3328124553), (List.replicate 8 0, 4199337588),
   (List.replicate 8 0, 2937767450), (List.replicate 8 0, 3909452568), (List.replicate 8 0, 3249334239),
   (List.replicate 8 0, 3714092099), (List.replicate 8 0, 3470778418), (List.replicate 8 0, 396340834),
   (List.replicate 8 0, 459883763), (List.replicate 8 0, 4104377675), (List.replicate 8 0, 1059373268),
   (List.replicate 8 0, 1396198973), (List.replicate 8 0, 4071187639), (List.replicate 8 0, 1162705675),
   (List.replicate 8 0, 2235523169), (List.replicate 8 0, 4180458254), (List.replicate 8 0, 2908644297),
   (List.replicate 8 0, 1871497702), (List.replicate 8 0, 1769333739), (List.replicate 8 0, 3066477946),
   (List.replicate 8 0, 2535558813), (List.replicate 8 0, 1669390284), (List.replicate 8 0, 1598436527),
   (List.replicate 7 0, 1903589003)]

/-- The second map and its entries. -/
def wsClash : List Nat :=
  (List.range 272).map fun i => if i = 0 then 0x201001 else if i = 1 then 7 else if i = 15 then 2391378292 else if i = 16 ∨ i = 24 then 0x11 else 0
def esClash : List Nat := (List.range 512).map fun k => if k = 0 ∨ k = 16 then 17 else 0

theorem esClash_get (k : Nat) : esClash[k]?.getD 0 = if k = 0 ∨ k = 16 then 17 else 0 := by
  by_cases h : k < 512
  · simp [esClash, h]
  · rw [if_neg (by omega), List.getElem?_eq_none (by simp [esClash]; omega)]; rfl

theorem staged_clash : stagedClash.stagedMap = wsClash := by decide +kernel
theorem entries_clash : mapEntries wsClash = esClash := by decide +kernel

theorem checks_clash :
    planChecks stagedClash.stagedMap (mapEntries stagedClash.stagedMap) (mapEntries stagedClash.committedMap) stagedClash = none := by
  rw [staged_clash, entries_clash]
  refine planChecks_of (by decide +kernel) (mapCrc_of chainClash (by decide +kernel) (by decide +kernel) (by decide +kernel)) (by decide +kernel) ?_ ?_
  · simp only [unitChecks, List.getD_eq_getElem?_getD, esClash_get]; decide +kernel
  · simp only [List.getD_eq_getElem?_getD, esClash_get]; decide +kernel

theorem clash_clash : mapClash (mapEntries stagedClash.stagedMap) = true := by
  rw [staged_clash, entries_clash]
  simp only [mapClash, List.any_eq_true, List.mem_range]
  refine ⟨0, by decide, 1, by decide, ?_⟩
  simp only [expressTo, List.getD_eq_getElem?_getD, esClash_get]
  decide +kernel

theorem checks_none :
    planChecks stagedNone.stagedMap (mapEntries stagedNone.stagedMap) (mapEntries stagedNone.committedMap) stagedNone = none :=
  planChecks_none (by decide +kernel) (by decide +kernel) (mapCrc_of chainNone (by decide +kernel) (by decide +kernel) (by decide +kernel))
    (by decide +kernel)

/-- The calibration of plane 15 under way. -/
def cal73 : State := { sets [(R.SCB_UNIT_STATE 73, 3), (R.HUB_PERMIT_HOLDER 73, 0x102)] rdy with scbRun := some (scb 73 [73]) }

/-- Plane 0 in service, as its committed map sets it and with two elements that differ from it. -/
def plane0 : State := { sets [(R.HUB_PLANE_MAP_PLANE_IN_SERVICE, 1)] rdy with calSmall := codes0 }
def plane0x : State := sets [(R.SLC_COMMIT_WORD 16, 0x11), (R.SLC_ELEM_COMMITTED 0 144, 1), (R.SLC_ELEM_COMMITTED 0 177, 1)] plane0

/-- Every element of plane 0 has code 0 for BAR at any temperature. -/
theorem codes0_zero (l : List Nat) (d : Int) (j k : Nat) (hj : j ∈ l) (hk : k < 4) (h1 : k ≠ 1) :
    tget d (l.flatMap fun j => [(smallKey 2 0 (elemField j 0), 0), (smallKey 2 0 (elemField j 1), 2000), (smallKey 2 0 (elemField j 2), 0),
      (smallKey 2 0 (elemField j 3), 0)]) (smallKey 2 0 (elemField j k)) = 0 := by
  induction l with
  | nil => cases hj
  | cons i r ih =>
    simp only [List.flatMap_cons, List.cons_append, List.nil_append, tget, smallKey, elemField] at ih ⊢
    rcases List.mem_cons.mp hj with rfl | hr
    · repeat' split
      all_goals first | rfl | omega
    · repeat' split
      all_goals first | rfl | omega | exact ih hr

theorem bar0 {s : State} (hs : s.calSmall = codes0) (j : Nat) (hj : j < 208) : s.elemCode 0 j false = 0 := by
  have h (k : Nat) (hk : k < 4) (h1 : k ≠ 1) : s.small 2 0 (elemField j k) = 0 := by
    rw [State.small, hs]
    exact codes0_zero _ _ j k (List.mem_range.mpr hj) hk h1
  simp [State.elemCode, h, divRne] <;> decide

theorem silled0 {s : State} (hs : s.calSmall = codes0) (hm : s.get R.HUB_PLANE_MAP_PLANE_IN_SERVICE = 1)
    (h : ((List.range 208).all fun j => s.get (R.SLC_ELEM_SILL 0 j) == 0 && s.get (R.SLC_ELEM_CODE 0 j) == 0) = true) (m j : Nat) (_ : m < 16)
    (hj : j < 208) (hp : nbit (s.get R.HUB_PLANE_MAP_PLANE_IN_SERVICE) m = true) :
    s.get (R.SLC_ELEM_SILL m j) = s.sillClass m j (s.get (R.SLC_ELEM_CODE m j)) := by
  obtain rfl : m = 0 := by
    rw [hm] at hp
    revert hp
    cases m with
    | zero => simp
    | succ n =>
      have : 1 / 2 ^ (n + 1) = 0 := Nat.div_eq_of_lt (Nat.one_lt_two_pow (by omega))
      simp [nbit, this]
  have hx := List.all_eq_true.mp h j (List.mem_range.mpr hj)
  simp only [Bool.and_eq_true, beq_iff_eq] at hx
  rw [hx.1, hx.2]
  simp [State.sillClass, bar0 hs j hj]

/-- The entries of `mapW`, of which one expresses line 0 of port 0 to port 1. -/
theorem entries_mapW : mapEntries mapW = (List.range 512).map fun k => if k = 0 then 17 else 0 := by decide +kernel

theorem mapW_get (k : Nat) : (mapEntries mapW)[k]?.getD 0 = if k = 0 then 17 else 0 := by
  rw [entries_mapW]
  by_cases h : k < 512
  · simp [h]
  · rw [if_neg (by omega), List.getElem?_eq_none (by simp; omega)]; rfl

theorem units_mapW : unitChecks (mapEntries plan0.words) (planned 4) = none := by
  show unitChecks (mapEntries mapW) _ = none
  simp only [unitChecks, List.getD_eq_getElem?_getD, mapW_get]; decide +kernel

theorem units_mapW_pair : unitChecks (mapEntries plan0.words) { planned 4 with pairsOut := 1 } = some 4 := by
  show unitChecks (mapEntries mapW) _ = some 4
  simp only [unitChecks, List.getD_eq_getElem?_getD, mapW_get]; decide +kernel

/-- States and operands that meet the hypotheses of `Obligations.StepIsExecOfFront`, clause by clause. -/
theorem wit_StepIsExecOfFront :
    (∃ (s : State), s.pending = []) ∧
    (∃ (s : State), s.pending = [] ∧ s.powered = true ∧ s.refclk = true ∧ s.tripped = false) ∧
    (∃ (s : State), s.pending = [] ∧ s.powered = true ∧ s.refclk = true ∧ s.tripped = false) ∧
    (∃ (s : State), s.pending = [] ∧ (s.powered = false ∨ s.refclk = false ∨ s.tripped = true)) ∧
    (∃ (s : State), s.pending = []) :=
  ⟨⟨rdy, (by decide +kernel)⟩,
   ⟨rdy, (by decide +kernel), (by decide +kernel), (by decide +kernel), (by decide +kernel)⟩,
   ⟨{ rdy with ftime := 2 ^ 64 * 390625 - 1 }, (by decide +kernel), (by decide +kernel), (by decide +kernel), (by decide +kernel)⟩,
   ⟨{ rdy with refclk := false }, (by decide +kernel), (by decide +kernel)⟩,
   ⟨{ rdy with ftime := 99999 }, (by decide +kernel)⟩⟩

/-- States and operands that meet the hypotheses of `Obligations.CommandsLeaveTheQueue`, clause by clause. -/
theorem wit_CommandsLeaveTheQueue :
    (∃ (c : Instr) (s : State) (t : State), exec c s = .next t) :=
  ⟨.fenceI 3, { rdy with pending := [.leaseLapse] }, { rdy with pending := [.leaseLapse] }.putHart 3 { Hart.reset with pc := 4 }, rfl⟩

/-- States and operands that meet the hypotheses of `Obligations.StepsKeepMemoryForm`, clause by clause. -/
theorem wit_StepsKeepMemoryForm :
    (∃ (s : State) (t : State), MemCanonical s ∧ step s = .next t) :=
  ⟨{ rdy with pending := [.store 0 (.int .d) 2 1 8], harts := [(0, hx 0x9000000000 0xFF00FF 0)] }, stepTo
    { rdy with pending := [.store 0 (.int .d) 2 1 8], harts := [(0, hx 0x9000000000 0xFF00FF 0)] },
    (by unfold MemCanonical; decide +kernel), rfl⟩

/-- States and operands that meet the hypotheses of `Obligations.StepsKeepTheTables`, clause by clause. -/
theorem wit_StepsKeepTheTables :
    (∃ (s : State) (t : State), TablesOk s ∧ step s = .next t) :=
  ⟨{ rdy with pending := [.fenceI 3] }, stepTo { rdy with pending := [.fenceI 3] },
    (by unfold TablesOk HartsOk; exact ⟨rfl, rfl, rfl, by intro q h; rcases h with h | h <;> cases h⟩), rfl⟩

/-- States and operands that meet the hypotheses of `Obligations.FieldsReadWhatIsWritten`, clause by clause. -/
theorem wit_FieldsReadWhatIsWritten :
    (∃ (s : State) (f : Fld) (g : Fld) (v : Nat), fkey f ≠ fkey g) ∧
    (∃ (a : Nat) (base : Nat) (wide : Bool) (fs : List Fld) (f : _), regAt a = some (base, wide, fs) ∧ f ∈ fs) :=
  ⟨⟨rdy, R.PEG_BLKARG_FIRST, R.PEG_BLKARG_COUNT, 7, (by decide +kernel)⟩,
   ⟨0x600400, 0x600400, false, [R.PEG_BLKARG_FIRST, R.PEG_BLKARG_COUNT, R.PEG_BLKARG_TENANT], R.PEG_BLKARG_COUNT, (by decide +kernel),
     (by decide +kernel)⟩⟩

/-- States and operands that meet the hypotheses of `Obligations.RegisterWriteEffect`, clause by clause. -/
theorem wit_RegisterWriteEffect :
    (∃ (r : Requester) (s : State) (v : Nat), IsPf r ∧ Reaches r 0x600400 s ∧ v < 2 ^ 32 ∧ nfld v 17 3 = 0 ∧ nfld v 24 8 = 0) ∧
    (∃ (r : Requester) (s : State) (v : Nat), IsPf r ∧ Reaches r 0x300 s ∧ v < 4096) ∧
    (∃ (r : Requester) (s : State) (v : Nat), IsPf r ∧ Reaches r 0x600400 s ∧ v < 2 ^ 32 ∧ nfld v 24 8 ≠ 0) ∧
    (∃ (r : Requester) (s : State) (b : Byte), IsPf r ∧ Reaches r 0x600404 s) ∧
    (∃ (s : State) (v : Nat), regGate (.fn 0) 0x600400 s = .preLevel) ∧
    (∃ (r : Requester) (s : State) (v : Nat), IsPf r ∧ regGate r 0x600400 s = .unreleased) ∧
    (∃ (r : Requester) (s : State) (v : BitVec 32), IsPf r ∧ Reaches r 0x8 s ∧ s.get R.HUB_LEVEL_STAT_WRITTEN = 0 ∧ v.toNat < 16) ∧
    (∃ (r : Requester) (s : State) (v : BitVec 32), IsPf r ∧ Reaches r 0x8 s ∧ s.get R.HUB_LEVEL_STAT_WRITTEN = 1 ∧ v.toNat < 16) ∧
    (∃ (r : Requester) (s : State) (lo : BitVec 32) (hi : BitVec 32), IsPf r ∧ Reaches r 0x500008 s ∧ nfld lo.toNat 6 6 = 0) :=
  ⟨⟨.fn 0, rdy, 0xF001FF, (by unfold IsPf; decide +kernel), (by unfold Reaches; decide +kernel), (by decide +kernel), (by decide +kernel),
     (by decide +kernel)⟩,
   ⟨.hart 5, sets [(R.HUB_ALERT_LASER, 1), (R.HUB_ALERT_LOG_FULL, 1)] rdy, 4094, (by unfold IsPf; decide +kernel),
     (by unfold Reaches; decide +kernel), (by decide +kernel)⟩,
   ⟨.fn 0, rdy, 0xFF000000, (by unfold IsPf; decide +kernel), (by unfold Reaches; decide +kernel), (by decide +kernel),
     (by decide +kernel)⟩,
   ⟨.fn 0, rdy, 1, (by unfold IsPf; decide +kernel), (by unfold Reaches; decide +kernel)⟩,
   ⟨sets [(R.HUB_LEVEL_STAT_WRITTEN, 0)] rdy, 1, (by decide +kernel)⟩,
   ⟨.hart 0, sets [(R.HUB_BOOT_STATE, 0), (R.HUB_BOOT_STEP, 9)] rdy, 1, (by unfold IsPf; decide +kernel), (by decide +kernel)⟩,
   ⟨.fn 0, sets [(R.HUB_LEVEL_STAT_WRITTEN, 0)] rdy, 15, (by unfold IsPf; decide +kernel), (by unfold Reaches; decide +kernel),
     (by decide +kernel), (by decide +kernel)⟩,
   ⟨.fn 0, rdy, 0, (by unfold IsPf; decide +kernel), (by unfold Reaches; decide +kernel), (by decide +kernel), (by decide +kernel)⟩,
   ⟨.hart 1023, rdy, 0xABCDE01F, 0xFEDC1234, (by unfold IsPf; decide +kernel), (by unfold Reaches; decide +kernel), (by decide +kernel)⟩⟩

/-- States and operands that meet the hypotheses of `Obligations.RegisterReadEffect`, clause by clause. -/
theorem wit_RegisterReadEffect :
    (∃ (r : Requester) (s : State) (t : Tenant), IsPf r ∧ Reaches r (0x402040 + 4 * t.val) s) ∧
    (∃ (r : Requester) (s : State), IsPf r ∧ Reaches r 0x900000 s) ∧
    (∃ (r : Requester) (s : State), IsPf r ∧ Reaches r 0x300000 s) :=
  ⟨⟨.fn 0, sets [(R.DSP_DBDROP_COUNT 15, 3)] rdy, 15, (by unfold IsPf; decide +kernel), (by unfold Reaches; decide +kernel)⟩,
   ⟨.fn 0, { rdy with ftime := 12345678901234567890 }, (by unfold IsPf; decide +kernel), (by unfold Reaches; decide +kernel)⟩,
   ⟨.fn 0, rdy, (by unfold IsPf; decide +kernel), (by unfold Reaches; decide +kernel)⟩⟩

/-- States and operands that meet the hypotheses of `Obligations.HartCsrAccess`, clause by clause. -/
theorem wit_HartCsrAccess :
    (∃ (c : Core) (v : Word) (s : State), Runs c s ∧ (s.hart c).priv = .m) ∧
    (∃ (c : Core) (v : Word) (s : State), Runs c s ∧ (s.hart c).priv = .m) ∧
    (∃ (c : Core) (rd : XReg) (rs1 : XReg) (s : State), Runs c s ∧ (s.hart c).priv = .m) ∧
    (∃ (c : Core) (rd : XReg) (imm : Bool) (s : State), Runs c s) ∧
    (∃ (c : Core) (op : CsrOp) (imm : Bool) (rd : XReg) (rs1 : XReg) (s : State), Runs c s ∧ (s.hart c).priv ≠ .m) :=
  ⟨⟨1023, 0x123456789ABCDEFF, rdy, (by unfold Runs; decide +kernel), (by decide +kernel)⟩,
   ⟨0, 0x1FFFFFFFF, rdy, (by unfold Runs; decide +kernel), (by decide +kernel)⟩,
   ⟨0, 1, 1, hart0 (hx 0x1FFFFFFFF 0 0) rdy, (by unfold Runs; decide +kernel), (by decide +kernel)⟩,
   ⟨0, 31, true, hart0 { Hart.reset with priv := .u, hxseq := 0xFFFFFFFF } rdy, (by unfold Runs; decide +kernel)⟩,
   ⟨0, .rs, false, 1, 0, hart0 { hx 1 2 3 with priv := .u } rdy, (by unfold Runs; decide +kernel), (by decide +kernel)⟩⟩

/-- States and operands that meet the hypotheses of `Obligations.ContextsAndWaits`, clause by clause. -/
theorem wit_ContextsAndWaits :
    (∃ (c : Core) (ctx : ContextImage) (s : State), Runs c s) ∧
    (∃ (c : Core) (code : Fin 64) (s : State), s.coreOn c = true ∧ (s.hart c).wait ≠ .none ∧ (∀ q a n rd, (s.hart c).wait ≠ .gamo q a n
      rd) ∧ (s.hart c).takesInterrupt code = true ∧ nbit ((s.hart c).csrVal csrMideleg) code = false) ∧
    (∃ (c : Core) (code : Fin 64) (s : State) (q : Nat) (a : Nat) (n : Nat) (rd : XReg), (s.hart c).wait = .gamo q a n rd) :=
  ⟨⟨5, ctx0, rdy.putHart 5 { Hart.reset with resv := some 3, serial := 9, slots := [(1, ⟨3, none⟩)] }, (by unfold Runs; decide +kernel)⟩,
   ⟨0, 11, hart0 { (Hart.reset.setCsr 0x304 (2 ^ 11)) with wait := .peg true 3 7 1, priv := .u, pc := 0x100 } rdy, (by decide +kernel),
     (by decide +kernel), (by intro _ _ _ _ h; cases h), (by decide +kernel), (by decide +kernel)⟩,
   ⟨0, 11, hart0 { hx 1 2 3 with wait := .gamo 0 64 8 1 } rdy, 0, 64, 8, 1, (by decide +kernel)⟩⟩

/-- States and operands that meet the hypotheses of `Obligations.LoadEffect`, clause by clause. -/
theorem wit_LoadEffect :
    (∃ (c : Core) (sz : Size) (u : Bool) (rd : XReg) (rs1 : XReg) (imm : BitVec 12) (s : State) (k : Nat), Runs c s ∧ ¬(sz = .d ∧ u =
      true) ∧ AtCoreStore s c (memAddr (s.hart c) rs1 imm) (sizeBytes sz) k ∧ s.hasError k (sizeBytes sz) = false) ∧
    (∃ (c : Core) (sz : Size) (u : Bool) (rd : XReg) (rs1 : XReg) (imm : BitVec 12) (s : State) (k : Nat) (l : CacheLine), Runs c s ∧ ¬(sz
      = .d ∧ u = true) ∧ InL1d s c (memAddr (s.hart c) rs1 imm) (sizeBytes sz) k l) ∧
    (∃ (c : Core) (sz : Size) (rd : XReg) (rs1 : XReg) (imm : BitVec 12) (s : State) (k : Nat), Runs c s ∧ (sz = .w ∨ sz = .d) ∧ (s.hart
      c).mst 13 2 ≠ 0 ∧ AtCoreStore s c (memAddr (s.hart c) rs1 imm) (sizeBytes sz) k ∧ s.hasError k (sizeBytes sz) = false) ∧
    (∃ (c : Core) (a : VecAcc) (vd : XReg) (rs1 : XReg) (imm : BitVec 12) (s : State) (p : VecPlan) (va : Nat) (k : Nat) (j : Nat), Runs c
      s ∧ vecPlan (s.hart c) true a vd rs1 = some p ∧ p.elems = [(0, va)] ∧ p.fields = 1 ∧ va < 2 ^ 48 ∧ AtCoreStore s c va p.w k ∧
      s.hasError k p.w = false ∧ j < p.w) ∧
    (∃ (c : Core) (rd : XReg) (rs1 : XReg) (imm : BitVec 12) (s : State), Runs c s) ∧
    (∃ (c : Core) (sz : Size) (rd : XReg) (rs1 : XReg) (imm : BitVec 12) (s : State), Runs c s ∧ (s.hart c).mst 13 2 = 0) :=
  ⟨⟨0, .d, false, 2, 1, 4088, { hart0 (hx 0x9004000000 0 0) rdy with mem := [(0x9003FFFFFF, 0x80)] }, 0x9003FFFFF8,
     (by unfold Runs; decide +kernel), (by decide +kernel), (by unfold AtCoreStore; decide +kernel), (by decide +kernel)⟩,
   ⟨0, .h, false, 1, 1, 0, hart0 { hx 62 0 0 with l1d := [⟨0, List.replicate 64 0xFE, true⟩] } rdy, 62, ⟨0, List.replicate 64 0xFE, true⟩,
     (by unfold Runs; decide +kernel), (by decide +kernel), (by unfold InL1d; decide +kernel)⟩,
   ⟨0, .w, 31, 1, 0, { hart0 ((hx 0x9000000004 0 0).setMst 13 2 1) rdy with mem := [(0x9000000007, 0x80)] }, 0x9000000004,
     (by unfold Runs; decide +kernel), (by decide +kernel), (by decide +kernel), (by unfold AtCoreStore; decide +kernel),
     (by decide +kernel)⟩,
   ⟨0, vacc, 31, 1, 0, { hart0 vh rdy with mem := [(0x9000000007, 0x80)] }, ⟨4, 1, 1, [(0, 0x9000000004)], false⟩, 0x9000000004,
     0x9000000004, 3, (by unfold Runs; decide +kernel), rfl, (by decide +kernel), (by decide +kernel), (by decide +kernel),
     (by unfold AtCoreStore; decide +kernel), (by decide +kernel), (by decide +kernel)⟩,
   ⟨0, 2, 1, 3, hart0 (hx 1 2 3) rdy, (by unfold Runs; decide +kernel)⟩,
   ⟨0, .d, 2, 1, 3, hart0 (hx 1 2 3) rdy, (by unfold Runs; decide +kernel), (by decide +kernel)⟩⟩

/-- States and operands that meet the hypotheses of `Obligations.StoreEffect`, clause by clause. -/
theorem wit_StoreEffect :
    (∃ (c : Core) (sz : Size) (rs2 : XReg) (rs1 : XReg) (imm : BitVec 12) (s : State) (k : Nat), Runs c s ∧ AtCoreStore s c (memAddr
      (s.hart c) rs1 imm) (sizeBytes sz) k ∧ s.hitsWeights k (sizeBytes sz) = false) ∧
    (∃ (c : Core) (sz : Size) (rs2 : XReg) (rs1 : XReg) (imm : BitVec 12) (s : State) (k : Nat), Runs c s ∧ (sz = .w ∨ sz = .d) ∧ (s.hart
      c).mst 13 2 ≠ 0 ∧ AtCoreStore s c (memAddr (s.hart c) rs1 imm) (sizeBytes sz) k ∧ s.hitsWeights k (sizeBytes sz) = false) ∧
    (∃ (c : Core) (a : VecAcc) (vs3 : XReg) (rs1 : XReg) (imm : BitVec 12) (s : State) (p : VecPlan) (va : Nat) (k : Nat), Runs c s ∧
      vecPlan (s.hart c) false a vs3 rs1 = some p ∧ p.elems = [(0, va)] ∧ p.fields = 1 ∧ AtCoreStore s c va p.w k ∧ s.hitsWeights k p.w =
      false) ∧
    (∃ (c : Core) (sz : Size) (rs2 : XReg) (rs1 : XReg) (imm : BitVec 12) (s : State) (k : Nat) (l : CacheLine), Runs c s ∧ InL1d s c
      (memAddr (s.hart c) rs1 imm) (sizeBytes sz) k l) ∧
    (∃ (c : Core) (sz : Size) (rs2 : XReg) (rs1 : XReg) (imm : BitVec 12) (s : State) (k : Nat), Runs c s ∧ AtCoreStore s c (memAddr
      (s.hart c) rs1 imm) (sizeBytes sz) k ∧ s.hitsWeights k (sizeBytes sz) = true) :=
  ⟨⟨0, .d, 2, 1, 4088,
     { hart0 { hx 0x9008000000 0xFFEEDDCCBBAA9988 0 with resv := some 0x24001FFFFF } rdy with mem := [(0x9007FFFFF7, 7), (0x9007FFFFFF, 7)] },
     0x9007FFFFF8, (by unfold Runs; decide +kernel), (by unfold AtCoreStore; decide +kernel), (by decide +kernel)⟩,
   ⟨0, .w, 31, 1, 0, hart0 { (hx 0x9000000004 0 0).setMst 13 2 3 with f := [(31, 0xFFFFFFFF80000001)] } rdy, 0x9000000004,
     (by unfold Runs; decide +kernel), (by decide +kernel), (by decide +kernel), (by unfold AtCoreStore; decide +kernel),
     (by decide +kernel)⟩,
   ⟨0, vacc, 31, 1, 0, hart0 { vh with v := [(3968, 1), (3971, 4)] } rdy, ⟨4, 1, 1, [(0, 0x9000000004)], false⟩, 0x9000000004,
     0x9000000004, (by unfold Runs; decide +kernel), rfl, (by decide +kernel), (by decide +kernel),
     (by unfold AtCoreStore; decide +kernel), (by decide +kernel)⟩,
   ⟨0, .h, 2, 1, 0, hart0 { hx 62 0xABCD 0 with l1d := [⟨0, List.replicate 64 0xFE, false⟩] } rdy, 62, ⟨0, List.replicate 64 0xFE, false⟩,
     (by unfold Runs; decide +kernel), (by unfold InL1d; decide +kernel)⟩,
   ⟨0, .b, 2, 1, 0, { hart0 (hx 0x9000000007 0 0) rdy with wprot := [(1, 0x9000000000, 8)] }, 0x9000000007,
     (by unfold Runs; decide +kernel), (by unfold AtCoreStore; decide +kernel), (by decide +kernel)⟩⟩

/-- States and operands that meet the hypotheses of `Obligations.AtomicsAndFences`, clause by clause. -/
theorem wit_AtomicsAndFences :
    (∃ (c : Core) (f : RFields) (d : Bool) (s : State) (k : Nat), Runs c s ∧ f.rs2 = 0 ∧ AtCoreStore s c ((s.hart c).rn f.rs1) (if d then
      8 else 4) k ∧ s.hasError k (if d then 8 else 4) = false ∧ l1dFind (s.hart c) (k / 64) = none) ∧
    (∃ (c : Core) (f : RFields) (d : Bool) (s : State) (k : Nat), Runs c s ∧ (s.hart c).resv = some (k / 64) ∧ AtCoreStore s c ((s.hart
      c).rn f.rs1) (if d then 8 else 4) k ∧ s.hitsWeights k (if d then 8 else 4) = false ∧ l1dFind (s.hart c) (k / 64) = none) ∧
    (∃ (c : Core) (f : RFields) (d : Bool) (s : State) (k : Nat), Runs c s ∧ (s.hart c).resv ≠ some (k / 64) ∧ AtCoreStore s c ((s.hart
      c).rn f.rs1) (if d then 8 else 4) k ∧ l1dFind (s.hart c) (k / 64) = none) ∧
    (∃ (c : Core) (form : AmoForm) (f : RFields) (d : Bool) (s : State) (k : Nat), Runs c s ∧ form ≠ .lr ∧ form ≠ .sc ∧ AtCoreStore s c
      ((s.hart c).rn f.rs1) (if d then 8 else 4) k ∧ s.hasError k (if d then 8 else 4) = false ∧ s.hitsWeights k (if d then 8 else 4) =
      false ∧ l1dFind (s.hart c) (k / 64) = none) ∧
    (∃ (c : Core) (pred : FenceSet) (succ : FenceSet) (tso : Bool) (s : State), Runs c s ∧ (∀ l ∈ (s.hart c).l1d, l.dirty = true →
      l.data.length = 64 ∧ s.hitsWeights (l.block * 64) 64 = false ∧ s.memStopped (l.block * 64) = false) ∧ (s.hart c).l1d.Pairwise (fun a
      b => a.block ≠ b.block)) ∧
    (∃ (c : Core) (s : State), Runs c s) ∧
    (∃ (c : Core) (s : State), Runs c s ∧ (s.hart c).priv = .m) ∧
    (∃ (c : Core) (rs1 : XReg) (rs2 : XReg) (s : State), Runs c s ∧ (s.hart c).priv = .u) :=
  ⟨⟨0, rf 2 1 0, false, { hart0 (hx 0x9000000004 0 0) rdy with mem := [(0x9000000007, 0x80)] }, 0x9000000004,
     (by unfold Runs; decide +kernel), (by decide +kernel), (by unfold AtCoreStore; decide +kernel), (by decide +kernel),
     (by decide +kernel)⟩,
   ⟨0, rf 3 1 2, true, hart0 { hx 0x9000000008 0xFFFFFFFFFFFFFFFF 0 with resv := some 0x240000000 } rdy, 0x9000000008,
     (by unfold Runs; decide +kernel), (by decide +kernel), (by unfold AtCoreStore; decide +kernel), (by decide +kernel),
     (by decide +kernel)⟩,
   ⟨0, rf 3 1 2, true, hart0 { hx 0x9000000040 0xFFFFFFFFFFFFFFFF 0 with resv := some 0x240000000 } rdy, 0x9000000040,
     (by unfold Runs; decide +kernel), (by decide +kernel), (by unfold AtCoreStore; decide +kernel), (by decide +kernel)⟩,
   ⟨0, .min, rf 2 1 2, false, { hart0 (hx 0x9000000004 5 0) rdy with mem := [(0x9000000007, 0x80)] }, 0x9000000004,
     (by unfold Runs; decide +kernel), (by decide +kernel), (by decide +kernel), (by unfold AtCoreStore; decide +kernel),
     (by decide +kernel), (by decide +kernel), (by decide +kernel)⟩,
   ⟨0, ⟨true, true⟩, ⟨true, false⟩, false, hart0
     { hx 1 2 3 with l1d := [⟨0, List.replicate 64 0xFE, true⟩, ⟨1, List.replicate 64 1, false⟩] } rdy, (by unfold Runs; decide +kernel),
     (by decide +kernel), (by decide +kernel)⟩,
   ⟨0, hart0 (hx 1 2 3) rdy, (by unfold Runs; decide +kernel)⟩,
   ⟨0, hart0 { hx 1 2 3 with tlb := [⟨0, 0, 0, 0, 0⟩] } rdy, (by unfold Runs; decide +kernel), (by decide +kernel)⟩,
   ⟨0, 1, 2, hart0 { hx 1 2 3 with priv := .u } rdy, (by unfold Runs; decide +kernel), (by decide +kernel)⟩⟩

/-- States and operands that meet the hypotheses of `Obligations.MatrixLoadsAndStores`, clause by clause. -/
theorem wit_MatrixLoadsAndStores :
    (∃ (c : Core) (f7 : BitVec 7) (f : RFields) (s : State) (k : Nat → Nat), Runs c s ∧ (s.hart c).mst 15 2 ≠ 0 ∧ (s.hart c).mmaq = [] ∧
      f7.toNat < 2 ∧ f.rd.toNat < 8 ∧ (∀ i, i < (if f7.toNat = 1 then 16 else 32) → AtCoreStore s c (((s.hart c).rn f.rs1 + i * (s.hart
      c).rn f.rs2) % 2 ^ 64) (if f7.toNat = 1 then 64 else 32) (k i) ∧ s.hasError (k i) (if f7.toNat = 1 then 64 else 32) = false)) ∧
    (∃ (c : Core) (f : RFields) (s : State) (k : Nat), Runs c s ∧ (s.hart c).mst 15 2 ≠ 0 ∧ (s.hart c).mmaq = [] ∧ f.rd.toNat < 8 ∧ f.rs2
      = 0 ∧ AtCoreStore s c ((s.hart c).rn f.rs1) 64 k ∧ s.hasError k 64 = false) ∧
    (∃ (c : Core) (f : RFields) (s : State) (k : Nat → Nat), Runs c s ∧ (s.hart c).mst 15 2 ≠ 0 ∧ (s.hart c).mmaq = [] ∧ f.rd.toNat < 4 ∧
      (∀ i, i < 32 → AtCoreStore s c (((s.hart c).rn f.rs1 + i * (s.hart c).rn f.rs2) % 2 ^ 64) 128 (k i) ∧ s.hasError (k i) 128 = false)) ∧
    (∃ (c : Core) (f : RFields) (s : State), Runs c s ∧ (s.hart c).mst 15 2 ≠ 0 ∧ (s.hart c).mmaq = [] ∧ f.rd.toNat < 4 ∧ f.rs1 = 0 ∧
      f.rs2 = 0) ∧
    (∃ (c : Core) (f7 : BitVec 7) (f : RFields) (s : State) (k : Nat → Nat) (w : Nat) (ty : Option Fmt) (rows : Nat), Runs c s ∧ (s.hart
      c).mst 15 2 ≠ 0 ∧ (s.hart c).mmaq = [] ∧ f.rd.toNat < 4 ∧ f7.toNat < 16 ∧ mstFmt (f7.toNat % 8) = some (w, ty) ∧ rows = (if nbit
      f7.toNat 3 then 16 else 32) ∧ (∀ i, i < rows → AtCoreStore s c (((s.hart c).rn f.rs1 + i * (s.hart c).rn f.rs2) % 2 ^ 64) (32 * w)
      (k i) ∧ s.hitsWeights (k i) (32 * w) = false) ∧ (∀ i j, i < j → j < rows → k i + 32 * w ≤ k j)) ∧
    (∃ (c : Core) (f7 : BitVec 7) (f : RFields) (s : State), Runs c s ∧ (s.hart c).mst 15 2 = 0) :=
  ⟨⟨0, 1, rf 7 1 2, { hart0 (mh 0x9000000000 64) rdy with mem := [(0x900000003F, 0x80), (0x90000003FF, 0x81)] }, fun i => 0x9000000000 +
     64 * i, (by unfold Runs; decide +kernel), (by decide +kernel), (by decide +kernel), (by decide +kernel), (by decide +kernel),
     (by unfold AtCoreStore; decide +kernel)⟩,
   ⟨0, rf 7 1 0, { hart0 (mh 0x9000000000 64) rdy with mem := [(0x900000003F, 0x80), (0x9000000040, 0x81)] }, 0x9000000000,
     (by unfold Runs; decide +kernel), (by decide +kernel), (by decide +kernel), (by decide +kernel), (by decide +kernel),
     (by unfold AtCoreStore; decide +kernel), (by decide +kernel)⟩,
   ⟨0, rf 3 1 2, { hart0 (mh 0x9000000F80 0xFFFFFFFFFFFFFF80) rdy with mem := [(0x900000003F, 0x80), (0x9000000040, 0x81)] }, fun i =>
     0x9000000F80 - 128 * i, (by unfold Runs; decide +kernel), (by decide +kernel), (by decide +kernel), (by decide +kernel),
     (by unfold AtCoreStore; decide +kernel)⟩,
   ⟨0, rf 3 0 0, hart0 { mh 0 0 with acc := [(0, 1), (3072, 5), (4095, 7)] } rdy, (by unfold Runs; decide +kernel), (by decide +kernel),
     (by decide +kernel), (by decide +kernel), (by decide +kernel), (by decide +kernel)⟩,
   ⟨0, 9, rf 3 1 2, hart0 { mh 0x9000000000 64 with acc := [(0, 1), (3072, 0x3F800000), (4095, 7)] } rdy, fun i => 0x9000000000 + 64 * i,
     2, some bf16, 16, (by unfold Runs; decide +kernel), (by decide +kernel), (by decide +kernel), (by decide +kernel),
     (by decide +kernel), (by decide +kernel), (by decide +kernel), (by unfold AtCoreStore; decide +kernel),
     (by intro i j h _; simp only; omega)⟩,
   ⟨0, 0, rf 3 1 2, hart0 (hx 1 2 3) rdy, (by unfold Runs; decide +kernel), (by decide +kernel)⟩⟩

/-- States and operands that meet the hypotheses of `Obligations.MatrixArithmetic`, clause by clause. -/
theorem wit_MatrixArithmetic :
    (∃ (c : Core) (f7 : BitVec 7) (f : RFields) (s : State) (m : MmaFmt), Runs c s ∧ (s.hart c).mst 15 2 ≠ 0 ∧ mmaFmt f7.toNat = some m ∧
      f.rd.toNat < 4 ∧ f.rs1.toNat < 8 ∧ f.rs2.toNat < 8 ∧ (m.a.width = 16 → f.rs2.toNat % 2 = 0) ∧ (s.hart c).mmaq.length < 2) ∧
    (∃ (c : Core) (s : State) (op : MmaOp) (rest : List MmaOp) (m : MmaFmt), s.coreOn c = true ∧ (s.hart c).mmaq = op :: rest ∧ mmaFmt
      op.fmt = some m) ∧
    (∃ (c : Core) (f7 : BitVec 7) (f : RFields) (s : State) (k : Cvt), Runs c s ∧ (s.hart c).mst 15 2 ≠ 0 ∧ (s.hart c).mst 9 2 ≠ 0 ∧
      mcvtOf f7.toNat = some k ∧ f.rs1 = 0 ∧ mcvtOk k ((s.hart c).csrVal csrVtype) (s.hart c).vl ((s.hart c).csrVal csrVstart) f7.toNat f
      = true) :=
  ⟨⟨0, 0xC, rf 3 7 7, hart0 { mh 0 0 with mmaq := [⟨0, 0, 0, 0⟩] } rdy, ⟨.int4, .int4, 32, 64, false⟩, (by unfold Runs; decide +kernel),
     (by decide +kernel), (by decide +kernel), (by decide +kernel), (by decide +kernel), (by decide +kernel), (by decide +kernel),
     (by decide +kernel)⟩,
   ⟨0, hart0
     { mh 0 0 with mmaq := [⟨8, 3, 7, 0⟩, ⟨0, 0, 0, 0⟩], acc := [(3072, 0x3F800000), (3584, 9)], tile := [(1, 0x40), (7169, 0x40)] } rdy,
     ⟨8, 3, 7, 0⟩, [⟨0, 0, 0, 0⟩], ⟨.bf16, .bf16, 16, 32, false⟩, (by decide +kernel), (by decide +kernel), (by decide +kernel)⟩,
   ⟨0, 0, rf 8 0 4, hart0
     { ((((mh 0 0).setMst 9 2 1).setCsr csrVl 2).setCsr csrVtype 0x10) with v := [(514, 0x80), (515, 0x3F), (519, 0xFF)] } rdy, ⟨32, 8,
     fun x => satConvert e4m3 (decodeF fp32 x)⟩, (by unfold Runs; decide +kernel), (by decide +kernel), (by decide +kernel), rfl,
     (by decide +kernel), (by decide +kernel)⟩⟩

/-- States and operands that meet the hypotheses of `Obligations.PegInstructions`, clause by clause. -/
theorem wit_PegInstructions :
    (∃ (c : Core) (f : RFields) (p : Nat) (s : State), LocalPeg s c f p ∧ NoTakes s p) ∧
    (∃ (c : Core) (f : RFields) (p : Nat) (s : State), LocalPeg s c f p ∧ NoTakes s p ∧ (s.hart c).fqEn = false) ∧
    (∃ (c : Core) (f : RFields) (p : Nat) (s : State), LocalPeg s c f p ∧ (s.hart c).rn f.rs2 % 2 ^ 24 ≤ s.peg p) ∧
    (∃ (c : Core) (f : RFields) (p : Nat) (s : State), LocalPeg s c f p ∧ s.peg p < (s.hart c).rn f.rs2 % 2 ^ 24) ∧
    (∃ (c : Core) (f : RFields) (p : Nat) (s : State), LocalPeg s c f p ∧ NoTakes s p ∧ (s.hart c).rn f.rs2 % 2 ^ 24 ≤ s.peg p) ∧
    (∃ (c : Core) (f : RFields) (p : Nat) (s : State), LocalPeg s c f p ∧ f.rs2 = 0) ∧
    (∃ (c : Core) (f : RFields) (s : State), Runs c s ∧ hsIllegal (s.hart c) = false ∧ f.rs2 = 0 ∧ pegOwned s (s.hart c).tenant ((s.hart
      c).rn f.rs1 % 65536) = false) ∧
    (∃ (c : Core) (f : RFields) (p : Nat) (s : State), Runs c s ∧ hsIllegal (s.hart c) = false ∧ f.rs2 = 0 ∧ pegOperandOk ((s.hart c).rn
      f.rs1) = true ∧ pegRemote ((s.hart c).rn f.rs1) = false ∧ (s.hart c).rn f.rs1 % 65536 = p ∧ pegOwned s (s.hart c).tenant p = true ∧
      s.bayDead (p / 8192) = false ∧ s.bit (R.PEG_VAL_POISON p) = true) :=
  ⟨⟨0, rf 3 1 2, 65535, hart0 (hx 65535 0xFFFFFF 0) (sets [(R.PEG_VAL_VALUE 65535, 1)] pg),
     (by unfold LocalPeg Runs HartsOk; decide +kernel), (takes_of (by decide +kernel))⟩,
   ⟨0, rf 0 1 2, 65535, hart0 (hx 65535 0xFFFFFF 0) (sets [(R.PEG_VAL_VALUE 65535, 1)] pg),
     (by unfold LocalPeg Runs HartsOk; decide +kernel), (takes_of (by decide +kernel)), (by decide +kernel)⟩,
   ⟨0, rf 3 1 2, 65535, hart0 (hx 65535 0x5000001 0) (sets [(R.PEG_VAL_VALUE 65535, 1)] pg),
     (by unfold LocalPeg Runs HartsOk; decide +kernel), (by decide +kernel)⟩,
   ⟨0, rf 3 1 2, 65535, hart0 (hx 65535 2 0) (sets [(R.PEG_VAL_VALUE 65535, 1)] pg), (by unfold LocalPeg Runs HartsOk; decide +kernel),
     (by decide +kernel)⟩,
   ⟨0, rf 3 1 2, 65535, hart0 (hx 65535 1 0) (sets [(R.PEG_VAL_VALUE 65535, 1)] pg), (by unfold LocalPeg Runs HartsOk; decide +kernel),
     (takes_of (by decide +kernel)), (by decide +kernel)⟩,
   ⟨0, rf 1 1 0, 65535, hart0 (hx 65535 2 0) (sets [(R.PEG_VAL_VALUE 65535, 1)] pg), (by unfold LocalPeg Runs HartsOk; decide +kernel),
     (by decide +kernel)⟩,
   ⟨0, rf 1 1 0, hart0 (hx 0x1234 2 0) rdy, (by unfold Runs; decide +kernel), (by decide +kernel), (by decide +kernel),
     (by decide +kernel)⟩,
   ⟨0, rf 1 1 0, 65535, hart0 (hx 65535 2 0) (sets [(R.PEG_VAL_POISON 65535, 1)] pg), (by unfold Runs; decide +kernel),
     (by decide +kernel), (by decide +kernel), (by decide +kernel), (by decide +kernel), (by decide +kernel), (by decide +kernel),
     (by decide +kernel), (by decide +kernel)⟩⟩

/-- States and operands that meet the hypotheses of `Obligations.Raisings`, clause by clause. -/
theorem wit_Raisings :
    (∃ (c : Core) (f : RFields) (p : Nat) (s : State), LocalPeg s c f p ∧ p % 2 = 0 ∧ s.bit (R.PEG_VAL_POISON (p + 1)) = false ∧ (s.hart
      c).raiseArrived = false ∧ NoTakes s p ∧ s.peg p + 1 < (s.hart c).rn f.rs2 % 65536) ∧
    (∃ (c : Core) (f : RFields) (p : Nat) (s : State), LocalPeg s c f p ∧ p % 2 = 0 ∧ s.bit (R.PEG_VAL_POISON (p + 1)) = false ∧ (s.hart
      c).raiseArrived = false ∧ NoTakes s p ∧ NoTakes s (p + 1) ∧ linkOf s p = none ∧ 0 < (s.hart c).rn f.rs2 % 65536 ∧ (s.hart c).rn
      f.rs2 % 65536 ≤ s.peg p + 1) ∧
    (∃ (k : Fin 256) (ph : Nat) (s : State), s.timedWait.find? (fun w => w.1 == k.val) = some (k.val, ph) ∧ HartsOk s ∧ 0 ≤ timeDiff
      s.time64 (s.get (R.PEG_RLINK_RELEASE_AT k)) ∧ NoTakes s (s.get (R.PEG_RLINK_LOCAL k) + 1)) :=
  ⟨⟨0, rf 3 1 2, 65534, hart0 (hx 65534 3 0) (sets [(R.PEG_VAL_VALUE 65534, 1), (R.PEG_VAL_VALUE 65535, 1)] pg),
     (by unfold LocalPeg Runs HartsOk; decide +kernel), (by decide +kernel), (by decide +kernel), (by decide +kernel), (takes_of
     (by decide +kernel)), (by decide +kernel)⟩,
   ⟨0, rf 3 1 2, 65534, hart0 (hx 65534 2 0) (sets [(R.PEG_VAL_VALUE 65534, 1), (R.PEG_VAL_VALUE 65535, 0xFFFFFF)] pg),
     (by unfold LocalPeg Runs HartsOk; decide +kernel), (by decide +kernel), (by decide +kernel), (by decide +kernel), (takes_of
     (by decide +kernel)), (takes_of (by decide +kernel)), (by decide +kernel), (by decide +kernel), (by decide +kernel)⟩,
   ⟨255, 1,
     { sets [(R.PEG_RLINK_LOCAL 255, 65534), (R.PEG_RLINK_VALID 255, 1), (R.PEG_RLINK_TIMED 255, 1), (R.PEG_VAL_VALUE 65535, 1)] pg with timedWait := [(255, 1)] },
     (by decide +kernel), (by unfold HartsOk; decide +kernel), (by decide +kernel), (takes_of (by decide +kernel))⟩⟩

/-- States and operands that meet the hypotheses of `Obligations.HartFences`, clause by clause. -/
theorem wit_HartFences :
    (∃ (c : Core) (s : State), Runs c s ∧ hsIllegal (s.hart c) = false ∧ (∀ l ∈ (s.hart c).l1d, l.dirty = true → l.data.length = 64 ∧
      s.hitsWeights (l.block * 64) 64 = false ∧ s.memStopped (l.block * 64) = false) ∧ (s.hart c).l1d.Pairwise (fun a b => a.block ≠
      b.block)) ∧
    (∃ (c : Core) (s : State), Runs c s ∧ hsIllegal (s.hart c) = false) ∧
    (∃ (c : Core) (rd : XReg) (s : State), Runs c s ∧ hsIllegal (s.hart c) = false ∧ (s.hart c).l1d = [] ∧ (s.hart c).track = []) ∧
    (∃ (c : Core) (rd : XReg) (s : State), Runs c s ∧ hsIllegal (s.hart c) = false ∧ (s.hart c).l1d = [] ∧ (s.hart c).track ≠ []) ∧
    (∃ (c : Core) (s : State) (since : Nat) (rd : XReg) (e : TrackEnt) (r : List TrackEnt), (s.hart c).wait = .commit since rd ∧ (s.hart
      c).commitTo ≠ 0 ∧ (s.hart c).track = e :: r) ∧
    (∃ (c : Core) (f : RFields) (s : State), Runs c s ∧ hsIllegal (s.hart c) = true) ∧
    (∃ (c : Core) (f : RFields) (s : State), Runs c s ∧ hsIllegal (s.hart c) = true) :=
  ⟨⟨0, hart0 { hx 1 2 3 with l1d := [⟨0, List.replicate 64 0xFE, true⟩, ⟨1, List.replicate 64 1, false⟩] } rdy,
     (by unfold Runs; decide +kernel), (by decide +kernel), (by decide +kernel), (by decide +kernel)⟩,
   ⟨0, hart0 { hx 1 2 3 with l1d := [⟨0, List.replicate 64 0xFE, true⟩, ⟨1, List.replicate 64 1, false⟩] } rdy,
     (by unfold Runs; decide +kernel), (by decide +kernel)⟩,
   ⟨0, 1, hart0 { hx 1 2 3 with nacked := 65536 } rdy, (by unfold Runs; decide +kernel), (by decide +kernel), (by decide +kernel),
     (by decide +kernel)⟩,
   ⟨0, 1, hart0 { hx 1 2 3 with track := [⟨7, 0, .write, 0, 0, 1, 1, [], 0, none, false⟩] } { rdy with ftime := 2 ^ 40 },
     (by unfold Runs; decide +kernel), (by decide +kernel), (by decide +kernel), (by decide +kernel)⟩,
   ⟨0, hart0 { hx 1 2 3 with wait := .commit 0 3, nacked := 3, track := [⟨7, 0, .write, 0, 0, 1, 1, [], 0, none, false⟩] }
     { rdy with ftime := 2 ^ 62 }, 0, 3, ⟨7, 0, .write, 0, 0, 1, 1, [], 0, none, false⟩, [], (by decide +kernel), (by decide +kernel),
     (by decide +kernel)⟩,
   ⟨0, rf 0 0 0, hart0 { hx 1 2 3 with priv := .u } rdy, (by unfold Runs; decide +kernel), (by decide +kernel)⟩,
   ⟨0, rf 1 0 0, hart0 { hx 1 2 3 with priv := .u } rdy, (by unfold Runs; decide +kernel), (by decide +kernel)⟩⟩

/-- States and operands that meet the hypotheses of `Obligations.DispatchInstructions`, clause by clause. -/
theorem wit_DispatchInstructions :
    (∃ (c : Core) (f : RFields) (s : State) (k : Nat) (d : List Byte) (i : Nat) (r : List Nat), Runs c s ∧ hdIllegal (s.hart c) = false ∧
      AtCoreStore s c ((s.hart c).rn f.rs1) 128 k ∧ s.hasError k 128 = false ∧ d = s.bytesAt k 128 ∧ pegOwned s (s.hart c).tenant
      (descCpeg d) = true ∧ f.rd ≠ 0 ∧ freeSlots (s.hart c) = i :: r ∧ dfld d 0 0 4 / 2 = c.val / 128 ∧ s.engFull (dfld d 0 0 4) = false ∧
      s.engServing (dfld d 0 0 4) = true) ∧
    (∃ (c : Core) (f : RFields) (s : State) (k : Nat), Runs c s ∧ hdIllegal (s.hart c) = false ∧ AtCoreStore s c ((s.hart c).rn f.rs1) 128
      k ∧ s.hasError k 128 = false ∧ pegOwned s (s.hart c).tenant (descCpeg (s.bytesAt k 128)) = true ∧ f.rd ≠ 0 ∧ freeSlots (s.hart c) =
      []) ∧
    (∃ (c : Core) (f : RFields) (s : State) (k : Nat), Runs c s ∧ hdIllegal (s.hart c) = false ∧ AtCoreStore s c ((s.hart c).rn f.rs1) 128
      k ∧ s.hasError k 128 = false ∧ pegOwned s (s.hart c).tenant (descCpeg (s.bytesAt k 128)) = true ∧ f.rd = 0 ∧ (s.hart c).detached <
      255 ∧ dfld (s.bytesAt k 128) 0 0 4 / 2 = c.val / 128 ∧ s.engFull (dfld (s.bytesAt k 128) 0 0 4) = true) ∧
    (∃ (c : Core) (s : State) (d : List Byte), (s.hart c).wait = .launch d ∧ (s.hart c).detached < 255 ∧ dfld d 0 0 4 / 2 = c.val / 128 ∧
      s.engFull (dfld d 0 0 4) = false ∧ s.engServing (dfld d 0 0 4) = true) ∧
    (∃ (c : Core) (f : RFields) (s : State) (sl : Slot) (o : Nat) (e : Nat), Runs c s ∧ hdIllegal (s.hart c) = false ∧ ticketSlot (s.hart
      c) ((s.hart c).rn f.rs1 % 65536) = some sl ∧ sl.outcome = some (o, e)) ∧
    (∃ (c : Core) (f : RFields) (s : State) (sl : Slot), Runs c s ∧ hdIllegal (s.hart c) = false ∧ ticketSlot (s.hart c) ((s.hart c).rn
      f.rs1 % 65536) = some sl ∧ sl.outcome = none) ∧
    (∃ (c : Core) (f : RFields) (s : State), Runs c s ∧ hdIllegal (s.hart c) = false ∧ ticketSlot (s.hart c) ((s.hart c).rn f.rs1 % 65536)
      = none) ∧
    (∃ (c : Core) (f : RFields) (s : State) (sl : Slot), Runs c s ∧ hdIllegal (s.hart c) = false ∧ ticketSlot (s.hart c) ((s.hart c).rn
      f.rs1 % 65536) = some sl ∧ sl.outcome ≠ none) ∧
    (∃ (c : Core) (f : RFields) (s : State), Runs c s ∧ hdIllegal (s.hart c) = false) :=
  ⟨⟨0, rf 3 1 0, { hart0 (hx 0x9000000000 0 0) (sets [(R.PMX_STAT_STATE 1, 2)] pg) with mem := memOf 0x9000000000 (desc 1) },
     0x9000000000, desc 1, 0, (List.range 15).map (· + 1), (by unfold Runs; decide +kernel), (by decide +kernel),
     (by unfold AtCoreStore; decide +kernel), (by decide +kernel), (by decide +kernel), (by decide +kernel), (by decide +kernel),
     (by decide +kernel), (by decide +kernel), (by decide +kernel), (by decide +kernel)⟩,
   ⟨0, rf 3 1 0,
     { hart0 { hx 0x9000000000 0 0 with slots := (List.range 16).map fun i => (i, ⟨0, none⟩) } (sets [(R.PMX_STAT_STATE 1, 2)] pg) with mem := memOf 0x9000000000 (desc 1) },
     0x9000000000, (by unfold Runs; decide +kernel), (by decide +kernel), (by unfold AtCoreStore; decide +kernel), (by decide +kernel),
     (by decide +kernel), (by decide +kernel), (by decide +kernel)⟩,
   ⟨0, rf 0 1 0,
     { hart0 { hx 0x9000000000 0 0 with detached := 254 } (sets [(R.PMX_STAT_STATE 1, 2)] pg) with mem := memOf 0x9000000000 (desc 1), engs := [(1, { Sys2Proof.Machine.Eng.reset with queue := List.replicate 32 ⟨0, desc 1, 0, 0, .hart 0 none, none, false, false, false, none⟩ })] },
     0x9000000000, (by unfold Runs; decide +kernel), (by decide +kernel), (by unfold AtCoreStore; decide +kernel), (by decide +kernel),
     (by decide +kernel), (by decide +kernel), (by decide +kernel), (by decide +kernel), (by decide +kernel)⟩,
   ⟨0, hart0 { hx 0x9000000000 0 0 with detached := 254, wait := .launch (desc 1) } (sets [(R.PMX_STAT_STATE 1, 2)] pg), desc 1,
     (by decide +kernel), (by decide +kernel), (by decide +kernel), (by decide +kernel), (by decide +kernel)⟩,
   ⟨0, rf 1 1 0, hart0 { hx 0xFFFF 0 0 with slots := [(15, ⟨4095, some (1, 7)⟩)] } rdy, ⟨4095, some (1, 7)⟩, 1, 7,
     (by unfold Runs; decide +kernel), (by decide +kernel), (by decide +kernel), (by decide +kernel)⟩,
   ⟨0, rf 1 1 0, hart0 { hx 0xFFFF 0 0 with slots := [(15, ⟨4095, none⟩)] } rdy, ⟨4095, none⟩, (by unfold Runs; decide +kernel),
     (by decide +kernel), (by decide +kernel), (by decide +kernel)⟩,
   ⟨0, rf 1 1 0, hart0 { hx 0xFFFF 0 0 with slots := [(15, ⟨4094, none⟩)] } rdy, (by unfold Runs; decide +kernel), (by decide +kernel),
     (by decide +kernel)⟩,
   ⟨0, rf 1 1 0, hart0 { hx 0xFFFF 0 0 with slots := [(15, ⟨4095, some (1, 7)⟩)] } rdy, ⟨4095, some (1, 7)⟩,
     (by unfold Runs; decide +kernel), (by decide +kernel), (by decide +kernel), (by decide +kernel)⟩,
   ⟨0, rf 1 1 0, hart0 (hx 0x6F 0 0) (sets [(R.PMX_ERR_ERR 15 5, 0x1234)] rdy), (by unfold Runs; decide +kernel), (by decide +kernel)⟩⟩

/-- States and operands that meet the hypotheses of `Obligations.RemoteInstructions`, clause by clause. -/
theorem wit_RemoteInstructions :
    (∃ (c : Core) (f7 : BitVec 7) (rd : XReg) (rs1 : XReg) (s : State) (a : Nat) (n : Nat), Runs c s ∧ hxIllegal (s.hart c) = false ∧
      f7.toNat < 8 ∧ a = (s.hart c).rn rs1 ∧ n = 2 ^ (f7.toNat % 4) ∧ a % n = 0 ∧ s.hasRoute (nfld a 48 16) = true) ∧
    (∃ (c : Core) (f7 : BitVec 7) (f : RFields) (s : State), Runs c s ∧ hxIllegal (s.hart c) = false ∧ f7.toNat < 4 ∧ (s.hart c).rn f.rs1
      % 2 ^ f7.toNat = 0 ∧ s.hasRoute (nfld ((s.hart c).rn f.rs1) 48 16) = true ∧ (s.hart c).track.length < 256) ∧
    (∃ (c : Core) (f7 : BitVec 7) (f : RFields) (s : State) (a : Nat) (n : Nat) (op : Nat), Runs c s ∧ hxIllegal (s.hart c) = false ∧ op =
      f7.toNat / 4 ∧ op ≤ 9 ∧ 2 ≤ f7.toNat % 4 ∧ a = (s.hart c).rn f.rs1 ∧ n = 2 ^ (f7.toNat % 4) ∧ a % n = 0 ∧ s.hasRoute (nfld a 48 16)
      = true) ∧
    (∃ (c : Core) (f7 : BitVec 7) (f : RFields) (s : State), Runs c s ∧ hxIllegal (s.hart c) = false ∧ f7.toNat < 4) ∧
    (∃ (c : Core) (rd : XReg) (rs1 : XReg) (s : State) (a : Nat) (w : Nat), Runs c s ∧ hxIllegal (s.hart c) = false ∧ vgOk (s.hart c) rd =
      true ∧ a = (s.hart c).rn rs1 ∧ w = sewBytes ((s.hart c).csrVal csrVtype) ∧ a % w = 0 ∧ s.hasRoute (nfld a 48 16) = true ∧ 0 <
      (s.hart c).vl) ∧
    (∃ (c : Core) (f : RFields) (s : State) (a : Nat) (w : Nat), Runs c s ∧ hxIllegal (s.hart c) = false ∧ vgOk (s.hart c) f.rs2 = true ∧
      a = (s.hart c).rn f.rs1 ∧ w = sewBytes ((s.hart c).csrVal csrVtype) ∧ a % w = 0 ∧ s.hasRoute (nfld a 48 16) = true ∧ 0 < (s.hart
      c).vl ∧ (s.hart c).track.length < 256) ∧
    (∃ (c : Core) (s : State) (p : Posted), s.coreOn c = true ∧ (s.hart c).wait = .tracker p ∧ (s.hart c).track.length < 256 ∧ s.hasRoute
      p.dst = true) ∧
    (∃ (c : Core) (f7 : BitVec 7) (rd : XReg) (rs1 : XReg) (s : State), Runs c s ∧ hxIllegal (s.hart c) = false ∧ f7.toNat < 8 ∧ (s.hart
      c).rn rs1 % 2 ^ (f7.toNat % 4) = 0 ∧ s.hasRoute (nfld ((s.hart c).rn rs1) 48 16) = false) :=
  ⟨⟨0, 3, 3, 1, hart0 { hx 0xFFFFFFFFFFF8 0 0 with reqno := 0xFFFFFFFF } rdy, 0xFFFFFFFFFFF8, 8, (by unfold Runs; decide +kernel),
     (by decide +kernel), (by decide +kernel), (by decide +kernel), (by decide +kernel), (by decide +kernel), (by decide +kernel)⟩,
   ⟨0, 3, rf 3 1 2, hart0 { hx 0xFFFFFFFFFFF8 0xFFFF 0 with hxseq := 0xFFFFFFFF } rdy, (by unfold Runs; decide +kernel),
     (by decide +kernel), (by decide +kernel), (by decide +kernel), (by decide +kernel), (by decide +kernel)⟩,
   ⟨0, 39, rf 3 1 2, hart0 { hx 0xFFFFFFFFFFF8 5 6 with hxseq := 0xFFFFFFFF } rdy, 0xFFFFFFFFFFF8, 8, 9, (by unfold Runs; decide +kernel),
     (by decide +kernel), (by decide +kernel), (by decide +kernel), (by decide +kernel), (by decide +kernel), (by decide +kernel),
     (by decide +kernel), (by decide +kernel)⟩,
   ⟨0, 3, rf 3 1 2, hart0 (hx 0xFFFFFFFFFFFFFFF8 5 6) rdy, (by unfold Runs; decide +kernel), (by decide +kernel), (by decide +kernel)⟩,
   ⟨0, 8, 1, hart0 ((((hx 0xFFFFFFFFFFC0 0 0).setMst 9 2 1).setCsr csrVl 65).setCsr csrVtype 0x13) rdy, 0xFFFFFFFFFFC0, 4,
     (by unfold Runs; decide +kernel), (by decide +kernel), (by decide +kernel), (by decide +kernel), (by decide +kernel),
     (by decide +kernel), (by decide +kernel), (by decide +kernel)⟩,
   ⟨0, rf 3 1 8, hart0 ((((hx 0x100 0 0).setMst 9 2 1).setCsr csrVl 65).setCsr csrVtype 0x13) rdy, 0x100, 4,
     (by unfold Runs; decide +kernel), (by decide +kernel), (by decide +kernel), (by decide +kernel), (by decide +kernel),
     (by decide +kernel), (by decide +kernel), (by decide +kernel), (by decide +kernel)⟩,
   ⟨0, hart0 { hx 0x100 0 0 with wait := .tracker ⟨.write, 0x100, 0, 8, leBytes 8 7, 3⟩ } rdy, ⟨.write, 0x100, 0, 8, leBytes 8 7, 3⟩,
     (by decide +kernel), (by decide +kernel), (by decide +kernel), (by decide +kernel)⟩,
   ⟨0, 3, 3, 1, hart0 (hx 0x1000000000000 0 0) rdy, (by unfold Runs; decide +kernel), (by decide +kernel), (by decide +kernel),
     (by decide +kernel), (by decide +kernel)⟩⟩

/-- States and operands that meet the hypotheses of `Obligations.RemoteMemoryRequests`, clause by clause. -/
theorem wit_RemoteMemoryRequests :
    (∃ (env : Envelope) (x : XBody) (s : State) (t : Nat) (k : Nat), ServedFor s x.ftag.toNat t ∧ AgentAt s t (sext48 x.addr.toNat) true k
      ∧ 0 < x.data.length ∧ sext48 x.addr.toNat % 4096 + x.data.length ≤ 4096 ∧ s.hitsWeights k x.data.length = false) ∧
    (∃ (env : Envelope) (x : XBody) (s : State) (t : Nat) (k : Nat), ServedFor s x.ftag.toNat t ∧ AgentAt s t (sext48 x.addr.toNat) false
      k ∧ 0 < x.size.toNat ∧ sext48 x.addr.toNat % 4096 + x.size.toNat ≤ 4096 ∧ s.hasError k x.size.toNat = false) ∧
    (∃ (env : Envelope) (x : XBody) (s : State) (t : Nat) (k : Nat) (w : Nat), ServedFor s x.ftag.toNat t ∧ AgentAt s t (sext48
      x.addr.toNat) true k ∧ w = (if x.attr.toNat = 9 then x.data.length / 2 else x.data.length) ∧ (w = 4 ∨ w = 8) ∧ x.attr.toNat ≤ 9 ∧
      x.size.toNat = x.data.length ∧ (x.attr.toNat = 9 → x.data.length % 2 = 0) ∧ sext48 x.addr.toNat % 4096 + w ≤ 4096 ∧ s.hasError k w =
      false ∧ s.hitsWeights k w = false) ∧
    (∃ (env : Envelope) (x : XBody) (s : State), s.packageResetting = false ∧ tagTenant s x.ftag.toNat = none) :=
  ⟨⟨env7, xb 0 3 0x1FFD [1, 2, 0], { ag with mem := [(0x8000000FFF, 9)] }, 0, 0x8000000FFD, (by unfold ServedFor; decide +kernel),
     (agent_of (by decide +kernel)), (by decide +kernel), (by decide +kernel), (by decide +kernel)⟩,
   ⟨env7, xb 0 256 0x1F00 [], { ag with mem := [(0x8000000FFF, 9)] }, 0, 0x8000000F00, (by unfold ServedFor; decide +kernel), (agent_of
     (by decide +kernel)), (by decide +kernel), (by decide +kernel), (by decide +kernel)⟩,
   ⟨env7, xb 9 16 0x1FF8 (leBytes 8 9 ++ leBytes 8 0x1122334455667788), { ag with mem := [(0x8000000FF8, 9)] }, 0, 0x8000000FF8, 8,
     (by unfold ServedFor; decide +kernel), (agent_of (by decide +kernel)), (by decide +kernel), (by decide +kernel), (by decide +kernel),
     (by decide +kernel), (by decide +kernel), (by decide +kernel), (by decide +kernel), (by decide +kernel)⟩,
   ⟨env7, { xb 0 3 0x1FFD [1, 2, 0] with ftag := 6 }, ag, (by decide +kernel), (by decide +kernel)⟩⟩

/-- States and operands that meet the hypotheses of `Obligations.RemotePegRequests`, clause by clause. -/
theorem wit_RemotePegRequests :
    (∃ (env : Envelope) (x : XBody) (s : State) (t : Nat) (p : Nat), ServedFor s x.ftag.toNat t ∧ p = nfld x.addr.toNat 0 20 ∧ nfld
      x.addr.toNat 20 8 = s.get (R.PEG_BLK_GEN (p / 256)) ∧ pegOwned s t p = true ∧ s.bayDead (p / 8192) = false ∧ s.bit (R.PEG_VAL_POISON
      p) = false ∧ NoTakes s p) ∧
    (∃ (env : Envelope) (x : XBody) (s : State) (t : Nat) (p : Nat), ServedFor s x.ftag.toNat t ∧ p = nfld x.addr.toNat 0 20 ∧ nfld
      x.addr.toNat 20 8 = s.get (R.PEG_BLK_GEN (p / 256)) ∧ pegOwned s t p = true ∧ s.bayDead (p / 8192) = false ∧ s.bit (R.PEG_VAL_POISON
      p) = false ∧ NoTakes s p) ∧
    (∃ (env : Envelope) (x : XBody) (s : State) (t : Nat) (p : Nat), ServedFor s x.ftag.toNat t ∧ p = nfld x.addr.toNat 0 20 ∧ nfld
      x.addr.toNat 20 8 = s.get (R.PEG_BLK_GEN (p / 256)) ∧ pegOwned s t p = true ∧ s.bayDead (p / 8192) = false ∧ s.bit (R.PEG_VAL_POISON
      p) = false ∧ s.bit (R.PEG_VAL_POISON (p + 1)) = false ∧ NoTakes s p ∧ p % 2 = 0 ∧ s.peg p + 1 < leNat (x.data.take 2) ∧
      s.upHeld.length < 1024) ∧
    (∃ (env : Envelope) (x : XBody) (s : State) (t : Nat) (p : Nat), ServedFor s x.ftag.toNat t ∧ p = nfld x.addr.toNat 0 20 ∧ p < 65536 ∧
      nfld x.addr.toNat 20 8 ≠ s.get (R.PEG_BLK_GEN (p / 256))) ∧
    (∃ (env : Envelope) (x : XBody) (s : State) (t : Nat) (p : Nat), ServedFor s x.ftag.toNat t ∧ p = nfld x.addr.toNat 0 20 ∧ nfld
      x.addr.toNat 20 8 = s.get (R.PEG_BLK_GEN (p / 256)) ∧ pegOwned s t p = false) :=
  ⟨⟨env7, xb 0 3 65535 (leBytes 3 0xFFFFFF), sets [(R.PEG_VAL_VALUE 65535, 1)] ag, 0, 65535, (by unfold ServedFor; decide +kernel),
     (by decide +kernel), (by decide +kernel), (by decide +kernel), (by decide +kernel), (by decide +kernel), (takes_of
     (by decide +kernel))⟩,
   ⟨env7, xb 0 3 65535 (leBytes 3 2), sets [(R.PEG_VAL_VALUE 65535, 1)] ag, 0, 65535, (by unfold ServedFor; decide +kernel),
     (by decide +kernel), (by decide +kernel), (by decide +kernel), (by decide +kernel), (by decide +kernel), (takes_of
     (by decide +kernel))⟩,
   ⟨env7, xb 0 3 65534 (leBytes 2 3), sets [(R.PEG_VAL_VALUE 65534, 1)] ag, 0, 65534, (by unfold ServedFor; decide +kernel),
     (by decide +kernel), (by decide +kernel), (by decide +kernel), (by decide +kernel), (by decide +kernel), (by decide +kernel),
     (takes_of (by decide +kernel)), (by decide +kernel), (by decide +kernel), (by decide +kernel)⟩,
   ⟨env7, xb 0 3 (65535 + 2 ^ 20) (leBytes 3 2), ag, 0, 65535, (by unfold ServedFor; decide +kernel), (by decide +kernel),
     (by decide +kernel), (by decide +kernel)⟩,
   ⟨env7, xb 0 3 0 (leBytes 3 2), ag, 0, 0, (by unfold ServedFor; decide +kernel), (by decide +kernel), (by decide +kernel),
     (by decide +kernel)⟩⟩

/-- States and operands that meet the hypotheses of `Obligations.AnswersOfOtherPackages`, clause by clause. -/
theorem wit_AnswersOfOtherPackages :
    (∃ (env : Envelope) (x : XBody) (s : State) (req : Nat) (addr : Nat) (size : Nat) (u : Bool) (rd : XReg), env.src.toNat ≠ s.pkg ∧
      s.stale = [] ∧ (s.hart x.core.toNat).wait = .gld req addr size u rd ∧ req = x.iseq.toNat ∧ nfld addr 48 16 = env.src.toNat ∧ addr %
      2 ^ 48 = x.addr.toNat) ∧
    (∃ (env : Envelope) (x : XBody) (s : State) (req : Nat) (addr : Nat) (size : Nat) (rd : XReg), env.src.toNat ≠ s.pkg ∧ s.stale = [] ∧
      (s.hart x.core.toNat).wait = .gamo req addr size rd ∧ req = x.iseq.toNat ∧ nfld addr 48 16 = env.src.toNat) ∧
    (∃ (env : Envelope) (x : XBody) (s : State) (c : Nat) (e : TrackEnt), env.src.toNat ≠ s.pkg ∧ s.stale = [] ∧ answerTo env x s =
      .tracked c e ∧ e.left = 1 ∧ e.reason = none ∧ (s.hart c).wait = .none) ∧
    (∃ (env : Envelope) (x : XBody) (s : State) (req : Nat) (addr : Nat) (size : Nat) (u : Bool) (rd : XReg), env.src.toNat ≠ s.pkg ∧
      s.stale = [] ∧ (s.hart x.core.toNat).wait = .gld req addr size u rd ∧ req = x.iseq.toNat ∧ nfld addr 48 16 = env.src.toNat ∧ addr %
      2 ^ 48 = x.addr.toNat) ∧
    (∃ (env : Envelope) (x : XBody) (s : State) (c : Nat) (e : TrackEnt), env.src.toNat ≠ s.pkg ∧ s.stale = [] ∧ (s.hart
      x.core.toNat).wait = .none ∧ answerTo env x s = .tracked c e ∧ e.left = 1 ∧ c = x.core.toNat ∧ (s.hart c).fqEn = false) ∧
    (∃ (env : Envelope) (x : XBody) (s : State) (c : Nat) (k : Nat) (e : TrackEnt), env.src.toNat ≠ s.pkg ∧ s.stale = [] ∧ answerTo env x
      s = .tracked c e ∧ (s.hart c).wait = .none ∧ (s.hart c).fqEn = true ∧ ((s.hart c).fqTail + 1) % (s.hart c).fqLen ≠ (s.hart c).fqHead
      ∧ s.place ((s.hart c).fqBase * 4096 + (s.hart c).fqTail * 32) = .mem k ∧ (inHbm k && s.poison.contains (k / 64)) = false ∧
      s.hitsWeights k 32 = false ∧ s.memStopped k = false) ∧
    (∃ (env : Envelope) (x : XBody) (s : State) (u : UpSent), env.src.toNat ≠ s.pkg ∧ s.stale = [] ∧ linkAnswered env x s = some u ∧ NoTakes
      s (u.count + 1)) :=
  ⟨⟨env7, xb 0 8 0x100 (leBytes 8 (2 ^ 63)),
     { rdy with harts := [(3, { Hart.reset with wait := .gld 9 (7 * 2 ^ 48 + 0x100) 8 false 31 })] }, 9, 7 * 2 ^ 48 + 0x100, 8, false, 31,
     (by decide +kernel), (by decide +kernel), (by decide +kernel), (by decide +kernel), (by decide +kernel), (by decide +kernel)⟩,
   ⟨env7, xb 0 4 0x100 (leBytes 4 (2 ^ 31)), { rdy with harts := [(3, { Hart.reset with wait := .gamo 9 (7 * 2 ^ 48 + 0x100) 4 31 })] },
     9, 7 * 2 ^ 48 + 0x100, 4, 31, (by decide +kernel), (by decide +kernel), (by decide +kernel), (by decide +kernel),
     (by decide +kernel)⟩,
   ⟨env7, xb 0 0 0x100 [],
     { rdy with harts := [(3, { Hart.reset with track := [⟨9, 0, .write, 7 * 2 ^ 48 + 0x100, 0, 8, 1, [(0x100, 8)], 0, none, false⟩] })] },
     3, ⟨9, 0, .write, 7 * 2 ^ 48 + 0x100, 0, 8, 1, [(0x100, 8)], 0, none, false⟩, (by decide +kernel), (by decide +kernel), rfl,
     (by decide +kernel), (by decide +kernel), (by decide +kernel)⟩,
   ⟨env7, xb 1 0 0x100 [], { rdy with harts := [(3, { Hart.reset with wait := .gld 9 (7 * 2 ^ 48 + 0x100) 8 false 31 })] }, 9, 7 * 2 ^ 48
     + 0x100, 8, false, 31, (by decide +kernel), (by decide +kernel), (by decide +kernel), (by decide +kernel), (by decide +kernel),
     (by decide +kernel)⟩,
   ⟨env7, xb 1 0 0x100 [],
     { rdy with harts := [(3, { Hart.reset with track := [⟨9, 0, .write, 7 * 2 ^ 48 + 0x100, 0, 8, 1, [(0x100, 8)], 0, none, false⟩] })] },
     3, ⟨9, 0, .write, 7 * 2 ^ 48 + 0x100, 0, 8, 1, [(0x100, 8)], 0, none, false⟩, (by decide +kernel), (by decide +kernel),
     (by decide +kernel), rfl, (by decide +kernel), (by decide +kernel), (by decide +kernel)⟩,
   ⟨env7, xb 0 0 0x100 (leBytes 3 5),
     { rdy with harts := [(3, { Hart.reset with fqEn := true, fqBase := 0x9000000, fqTail := 127, fqHead := 1, track := [⟨9, 0, .pegSub, 7 * 2 ^ 32 + 0x100, 6, 0, 1, [(0x100, 0)], 0, none, false⟩] })] },
     3, 0x9000000FE0, ⟨9, 0, .pegSub, 7 * 2 ^ 32 + 0x100, 6, 0, 1, [(0x100, 0)], 0, none, false⟩, (by decide +kernel),
     (by decide +kernel), rfl, (by decide +kernel), (by decide +kernel), (by decide +kernel), (by decide +kernel), (by decide +kernel),
     (by decide +kernel), (by decide +kernel)⟩,
   ⟨env7, xb 0 0 0x100 [],
     { sets [(R.PEG_RLINK_VALID 9, 1), (R.PEG_RLINK_LOCAL 9, 65534), (R.PEG_RLINK_STATE 9, 1)] pg with upSent := [⟨9, 65534, 7, 0x100⟩] },
     ⟨9, 65534, 7, 0x100⟩, (by decide +kernel), (by decide +kernel), (by decide +kernel), (takes_of (by decide +kernel))⟩⟩

/-- States and operands that meet the hypotheses of `Obligations.HostAperture`, clause by clause. -/
theorem wit_HostAperture :
    (∃ (off : BitVec 36) (n : Nat) (a : Nat) (k : Nat) (s : State), s.decodes 0 = true ∧ s.bit R.HUB_LEVEL_STAT_WRITTEN = true ∧
      s.computeResetting = false ∧ a = s.get (R.MEM_APER_BASE 0) / 16 * 16 * 2 ^ 32 + off.toNat ∧ 0 < n ∧ a % 4096 + n ≤ 4096 ∧ s.place a
      = .mem k ∧ s.memStopped k = false ∧ s.hasError k n = false) ∧
    (∃ (off : BitVec 36) (n : Nat) (a : Nat) (k : Nat) (s : State), s.decodes 0 = true ∧ s.bit R.HUB_LEVEL_STAT_WRITTEN = true ∧
      s.computeResetting = false ∧ a = s.get (R.MEM_APER_BASE 0) / 16 * 16 * 2 ^ 32 + off.toNat ∧ 0 < n ∧ a % 4096 + n ≤ 4096 ∧ s.place a
      = .mem k ∧ s.memStopped k = false ∧ s.hasError k n = true) ∧
    (∃ (off : BitVec 36) (bs : List Byte) (a : Nat) (k : Nat) (s : State), s.decodes 0 = true ∧ s.bit R.HUB_LEVEL_STAT_WRITTEN = true ∧
      s.computeResetting = false ∧ a = s.get (R.MEM_APER_BASE 0) / 16 * 16 * 2 ^ 32 + off.toNat ∧ bs ≠ [] ∧ a % 4096 + bs.length ≤ 4096 ∧
      s.place a = .mem k ∧ s.memStopped k = false ∧ s.hitsWeights k bs.length = false) ∧
    (∃ (f : Fn) (off : BitVec 36) (n : Nat) (va : Nat) (k : Nat) (s : State), f ≠ 0 ∧ f.val < 16 ∧ s.decodes f.val = true ∧ s.bit
      R.HUB_LEVEL_STAT_WRITTEN = true ∧ s.computeResetting = false ∧ va = sext48 (s.get (R.MEM_APER_BASE f) * 2 ^ 32 + off.toNat % 2 ^ 32)
      ∧ 0 < n ∧ va % 4096 + n ≤ 4096 ∧ AgentAt s f.val va false k ∧ s.hasError k n = false) ∧
    (∃ (f : Fn) (off : BitVec 36) (n : Nat) (bs : List Byte) (s : State), s.decodes f.val = true ∧ s.bit R.HUB_LEVEL_STAT_WRITTEN = false) ∧
    (∃ (f : Fn) (off : BitVec 36) (n : Nat) (bs : List Byte) (s : State), s.decodes f.val = true ∧ s.bit R.HUB_LEVEL_STAT_WRITTEN = false) :=
  ⟨⟨0x3FFFFFF, 1, 0x9003FFFFFF, 0x9003FFFFFF, { sets [(R.MEM_APER_BASE 0, 0x90)] rdy with mem := [(0x9003FFFFFF, 3)] },
     (by decide +kernel), (by decide +kernel), (by decide +kernel), (by decide +kernel), (by decide +kernel), (by decide +kernel),
     (by decide +kernel), (by decide +kernel), (by decide +kernel)⟩,
   ⟨0xFF8, 8, 0xFF8, 0xFF8, { rdy with poison := [0x3F] }, (by decide +kernel), (by decide +kernel), (by decide +kernel),
     (by decide +kernel), (by decide +kernel), (by decide +kernel), (by decide +kernel), (by decide +kernel), (by decide +kernel)⟩,
   ⟨0xFF8, [1, 0, 0, 0, 0, 0, 0, 8], 0xFF8, 0xFF8, { rdy with mem := [(0xFF9, 3)] }, (by decide +kernel), (by decide +kernel),
     (by decide +kernel), (by decide +kernel), (by decide +kernel), (by decide +kernel), (by decide +kernel), (by decide +kernel),
     (by decide +kernel)⟩,
   ⟨0xF, 0x1FF8, 8, 0x1FF8, 0x8000000FF8,
     { sets [(R.MEM_TSATP_MODE 15, 9)] rdy with vfEnable := true, numVfs := 16, atc := [⟨15, 0, 1, 0, 0x20000000D7⟩], mem := [(0x8000000FFF, 3)] },
     (by decide +kernel), (by decide +kernel), (by decide +kernel), (by decide +kernel), (by decide +kernel), (by decide +kernel),
     (by decide +kernel), (by decide +kernel), (agent_of (by decide +kernel)), (by decide +kernel)⟩,
   ⟨0, 0, 1, [], sets [(R.HUB_LEVEL_STAT_WRITTEN, 0)] rdy, (by decide +kernel), (by decide +kernel)⟩,
   ⟨0, 0, 1, [1], sets [(R.HUB_LEVEL_STAT_WRITTEN, 0), (R.HUB_LEVEL_STAT_PRE_LEVEL, 65535)] rdy, (by decide +kernel), (by decide +kernel)⟩⟩

/-- States and operands that meet the hypotheses of `Obligations.ScrubInvalidateTags`, clause by clause. -/
theorem wit_ScrubInvalidateTags :
    (∃ (addr : BitVec 48) (k : Nat) (s : State), s.place addr.toNat = .mem k) ∧
    (∃ (addr : BitVec 48) (k : Nat) (n : Nat) (s : State), s.place addr.toNat = .mem k ∧ inHbm k = true ∧ 0 < n) ∧
    (∃ (r : Requester) (s : State), Reaches r 0x500010 s) ∧
    (∃ (s : State) (a : InvalArg), s.get R.MEM_INVAL_CMD_STATUS = 1 ∧ s.inval = some a) ∧
    (∃ (r : Requester) (v : Tenant) (val : BitVec 32) (s : State), Reaches r (0x500180 + 4 * v.val) s ∧ nfld val.toNat 16 15 = 0 ∧ nbit
      val.toNat 31 = true ∧ (∀ u, u < 16 → u ≠ v.val → s.bit (R.MEM_FTAG_VALID u) = true → s.get (R.MEM_FTAG_TAG u) ≠ nfld val.toNat 0
      16)) ∧
    (∃ (r : Requester) (v : Tenant) (val : BitVec 32) (s : State) (u : Nat), Reaches r (0x500180 + 4 * v.val) s ∧ nfld val.toNat 16 15 = 0
      ∧ nbit val.toNat 31 = true ∧ u < 16 ∧ u ≠ v.val ∧ s.bit (R.MEM_FTAG_VALID u) = true ∧ s.get (R.MEM_FTAG_TAG u) = nfld val.toNat 0
      16) :=
  ⟨⟨0x903FFFFFFF, 0x903FFFFFFF, rdy, (by decide +kernel)⟩,
   ⟨63, 63, 1, rdy, (by decide +kernel), (by decide +kernel), (by decide +kernel)⟩,
   ⟨.fn 0, sets [(R.MEM_INVAL_CMD_STATUS, 1), (R.MEM_INVAL_CMD_IGNORED, 65535)] rdy, (by unfold Reaches; decide +kernel)⟩,
   ⟨{ sets [(R.MEM_INVAL_CMD_STATUS, 1)] rdy with
        atc := [⟨0, 0, 1, 0, 0x20000000D7⟩, ⟨15, 0, 1, 0, 0x20000000D7⟩], inval := some ⟨15, 0, 0, 0⟩ }, ⟨15, 0, 0, 0⟩, (by decide +kernel), rfl⟩,
   ⟨.hart 1023, 15, 0x8000FFFF, rdy, (by unfold Reaches; decide +kernel), (by decide +kernel), (by decide +kernel), (by decide +kernel)⟩,
   ⟨.hart 1023, 15, 0x80000005, ag, 0, (by unfold Reaches; decide +kernel), (by decide +kernel), (by decide +kernel), (by decide +kernel),
     (by decide +kernel), (by decide +kernel), (by decide +kernel)⟩⟩

/-- States and operands that meet the hypotheses of `Obligations.PegBlockCommands`, clause by clause. -/
theorem wit_PegBlockCommands :
    (∃ (r : Requester) (cmd : Fin 3) (s : State), Reaches r 0x600404 s ∧ s.get R.PEG_BLKCMD_STATUS ≠ 1 ∧ 0 < s.get R.PEG_BLKARG_COUNT ∧
      s.get R.PEG_BLKARG_COUNT ≤ 256 ∧ (∀ j, j < s.get R.PEG_BLKARG_COUNT → blockCond (cmd.val + 1) (s.get R.PEG_BLKARG_TENANT) (j + s.get
      R.PEG_BLKARG_FIRST) s = true)) ∧
    (∃ (r : Requester) (cmd : Fin 3) (s : State) (j : Nat), Reaches r 0x600404 s ∧ s.get R.PEG_BLKCMD_STATUS ≠ 1 ∧ j < s.get
      R.PEG_BLKARG_COUNT ∧ blockCond (cmd.val + 1) (s.get R.PEG_BLKARG_TENANT) (j + s.get R.PEG_BLKARG_FIRST) s = false) ∧
    (∃ (s : State) (cmd : Nat) (first : Nat) (count : Nat) (tn : Nat), s.blkCmd = some (cmd, first, count, tn) ∧ HartsOk s ∧ (∀ w ∈
      s.queues, ∀ x ∈ w.2.tasks, x.st ≠ .ready)) :=
  ⟨⟨.fn 0, 0, sets [(R.PEG_BLKARG_FIRST, 254), (R.PEG_BLKARG_COUNT, 2), (R.PEG_BLKARG_TENANT, 15), (R.PEG_VAL_VALUE 65535, 7),
     (R.PEG_BLK_GEN 255, 255)] rdy, (by unfold Reaches; decide +kernel), (by decide +kernel), (by decide +kernel), (by decide +kernel),
     (by decide +kernel)⟩,
   ⟨.fn 0, 2, sets [(R.PEG_BLKARG_FIRST, 255), (R.PEG_BLKARG_COUNT, 256)] pg, 255, (by unfold Reaches; decide +kernel),
     (by decide +kernel), (by decide +kernel), (by decide +kernel)⟩,
   ⟨{ sets [(R.PEG_BLKCMD_STATUS, 1)] rdy with blkCmd := some (2, 255, 1, 15), harts := [(3, { Hart.reset with wait := .peg true 65535 3 1 })] },
     2, 255, 1, 15, (by decide +kernel), (by unfold HartsOk; decide +kernel), (by decide +kernel)⟩⟩

/-- States and operands that meet the hypotheses of `Obligations.QueuesAndDoorbells`, clause by clause. -/
theorem wit_QueuesAndDoorbells :
    (∃ (r : Requester) (t : Tenant) (q : QNum) (base : BitVec 64) (s : State), Reaches r (qbaseAddr t.val q.val) s ∧ s.get (R.DSP_Q_EN t
      q) = 0 ∧ nfld base.toNat 1 2 ≤ 1 ∧ nfld base.toNat 3 1 = 0 ∧ nfld base.toNat 7 1 = 0 ∧ nfld base.toNat 48 16 = 0 ∧ s.bayIn (nfld
      base.toNat 4 3) = true) ∧
    (∃ (r : Requester) (t : Tenant) (q : QNum) (base : BitVec 64) (s : State), Reaches r (qbaseAddr t.val q.val) s ∧ s.get (R.DSP_Q_EN t
      q) = 0 ∧ 1 < nfld base.toNat 1 2 ∧ nfld base.toNat 7 1 = 0 ∧ nfld base.toNat 48 16 = 0) ∧
    (∃ (r : Requester) (t : Tenant) (q : QNum) (s : State), Reaches r (qbaseAddr t.val q.val) s) ∧
    (∃ (t : Tenant) (q : QNum) (off : BitVec 24) (v : BitVec 32) (s : State), s.decodes 0 = true ∧ s.bit R.HUB_LEVEL_STAT_WRITTEN = true ∧
      off.toNat = t.val * 0x10000 + q.val * 0x100 ∧ s.bit (R.DSP_Q_EN t q) = true ∧ s.bit (R.DSP_Q_PEGDB t q) = false ∧ s.bit
      (R.DSP_Q_STOPPED t q) = false ∧ 65535 < v.toNat) ∧
    (∃ (t : Tenant) (q : QNum) (off : BitVec 24) (v : BitVec 32) (s : State), s.decodes 0 = true ∧ s.bit R.HUB_LEVEL_STAT_WRITTEN = true ∧
      off.toNat = t.val * 0x10000 + q.val * 0x100 ∧ s.bit (R.DSP_Q_EN t q) = true ∧ s.bit (R.DSP_Q_PEGDB t q) = false ∧ s.bit
      (R.DSP_Q_STOPPED t q) = false ∧ v.toNat ≤ 65535) ∧
    (∃ (t : Tenant) (q : QNum) (off : BitVec 24) (v : BitVec 32) (s : State), s.decodes 0 = true ∧ s.bit R.HUB_LEVEL_STAT_WRITTEN = true ∧
      off.toNat = t.val * 0x10000 + q.val * 0x100 ∧ s.bit (R.DSP_Q_EN t q) = false) ∧
    (∃ (t : Tenant) (q : QNum) (s : State) (p : Nat), s.bayRuns (s.get (R.DSP_Q_HOME t q)) = true ∧ s.bit (R.DSP_Q_EN t q) = true ∧ s.bit
      (R.DSP_Q_PEGDB t q) = true ∧ s.bit (R.DSP_Q_STOPPED t q) = false ∧ p = s.get (R.DSP_Q_DBPEG t q) ∧ pegOwned s t p = true ∧ s.bit
      (R.PEG_VAL_POISON p) = false ∧ 0 < s.peg p ∧ NoTakes s p ∧ (s.get (R.DSP_Q_TAIL t q) + 65536 - s.get (R.DSP_Q_RETIRE t q)) % 65536 ≠
      s.qSize t q) ∧
    (∃ (t : Tenant) (q : QNum) (s : State), s.bayRuns (s.get (R.DSP_Q_HOME t q)) = true ∧ s.bit (R.DSP_Q_EN t q) = true ∧ s.bit
      (R.DSP_Q_STOPPED t q) = false ∧ s.wq (qKey t q) = ⟨[], false, none⟩ ∧ s.get (R.DSP_Q_HEAD t q) ≠ s.get (R.DSP_Q_TAIL t q) ∧
      fetchesOf s (s.get (R.DSP_Q_HOME t q)) < 16 ∧ s.bit R.HUB_SOLO_EN = false) :=
  ⟨⟨.fn 0, 15, 255, 0x0000FFFFFFFFFF73, rdy, (by unfold Reaches; decide +kernel), (by decide +kernel), (by decide +kernel),
     (by decide +kernel), (by decide +kernel), (by decide +kernel), (by decide +kernel)⟩,
   ⟨.fn 0, 15, 255, 0x0000FFFFFFFFFF7D, rdy, (by unfold Reaches; decide +kernel), (by decide +kernel), (by decide +kernel),
     (by decide +kernel), (by decide +kernel)⟩,
   ⟨.fn 0, 0, 0, q0, (by unfold Reaches; decide +kernel)⟩,
   ⟨0, 0, 0, 0x10010, q0, (by decide +kernel), (by decide +kernel), (by decide +kernel), (by decide +kernel), (by decide +kernel),
     (by decide +kernel), (by decide +kernel)⟩,
   ⟨0, 0, 0, 16, q0, (by decide +kernel), (by decide +kernel), (by decide +kernel), (by decide +kernel), (by decide +kernel),
     (by decide +kernel), (by decide +kernel)⟩,
   ⟨15, 255, 0xFFF00, 16, q0, (by decide +kernel), (by decide +kernel), (by decide +kernel), (by decide +kernel)⟩,
   ⟨0, 0, sets [(R.DSP_Q_PEGDB 0 0, 1), (R.DSP_Q_DBPEG 0 0, 65535), (R.PEG_VAL_VALUE 65535, 1), (R.DSP_Q_TAIL 0 0, 65535), (R.DSP_Q_RETIRE
     0 0, 65520)] q0, 65535, (by decide +kernel), (by decide +kernel), (by decide +kernel), (by decide +kernel), (by decide +kernel),
     (by decide +kernel), (by decide +kernel), (by decide +kernel), (takes_of (by decide +kernel)), (by decide +kernel)⟩,
   ⟨0, 0, q0, (by decide +kernel), (by decide +kernel), (by decide +kernel), (by decide +kernel), (by decide +kernel),
     (by decide +kernel), (by decide +kernel)⟩⟩

/-- States and operands that meet the hypotheses of `Obligations.TasksOfQueues`, clause by clause. -/
theorem wit_TasksOfQueues :
    (∃ (t : Tenant) (q : QNum) (s : State) (k : Nat) (d : List Byte), s.bayRuns (s.get (R.DSP_Q_HOME t q)) = true ∧ s.wq (qKey t q) = ⟨[],
      true, none⟩ ∧ s.bit (R.DSP_Q_STOPPED t q) = false ∧ s.get (R.DSP_Q_HEAD t q) ≠ s.get (R.DSP_Q_TAIL t q) ∧ AgentAt s t (sext48 (s.get
      (R.DSP_Q_BASE t q) * 4096 + s.get (R.DSP_Q_HEAD t q) % s.qSize t q * 128)) false k ∧ s.hasError k 128 = false ∧ d = s.bytesAt k 128
      ∧ pegOwned s t (descCpeg d) = true ∧ s.get (R.DSP_Q_TYPE t q) = 1 ∧ dmaFieldOk d = true ∧ dmaKind d = 0 ∧ dmaWaitEn d = false) ∧
    (∃ (t : Tenant) (q : QNum) (s : State) (x : Tile), s.bayRuns (s.get (R.DSP_Q_HOME t q)) = true ∧ (s.wq (qKey t q)).held = some x ∧
      s.engFull x.engine = false ∧ s.engServing x.engine = true) ∧
    (∃ (t : Tenant) (q : QNum) (i : BitVec 16) (s : State) (x : Task) (k : Nat), DmaRuns s t q x ∧ x.idx = i.toNat ∧ dmaKind x.desc = 0 ∧
      StatusAt s t q i.toNat k ∧ CpegTakes s t x.desc) ∧
    (∃ (t : Tenant) (q : QNum) (i : BitVec 16) (s : State) (x : Task), DmaRuns s t q x ∧ x.idx = i.toNat ∧ dmaKind x.desc = 1 ∧ piecesMeet
      x.src x.dst = false ∧ copiesInFlight s = []) ∧
    (∃ (t : Tenant) (q : QNum) (i : BitVec 16) (s : State) (x : Task), DmaRuns s t q x ∧ x.idx = i.toNat ∧ dmaKind x.desc = 1 ∧ piecesMeet
      x.src x.dst = true) ∧
    (∃ (t : Tenant) (q : QNum) (i : BitVec 16) (s : State) (x : Task) (k : Nat) (a : Nat) (b : Nat), s.bayRuns (s.get (R.DSP_Q_HOME t q))
      = true ∧ (s.wq (qKey t q)).tasks.find? (fun y => y.idx == i.toNat && y.st == .running && !y.dst.isEmpty) = some x ∧ x.src = [(a,
      64)] ∧ x.dst = [(b, 64)] ∧ s.hasError a 64 = false ∧ s.memStopped a = false ∧ s.hitsWeights b 64 = false ∧ s.memStopped b = false ∧
      StatusAt s t q i.toNat k ∧ (k + 8 ≤ b ∨ b + 64 ≤ k) ∧ CpegTakes s t x.desc) ∧
    (∃ (t : Tenant) (q : QNum) (i : BitVec 16) (s : State) (x : Task) (k : Nat) (p : Nat), DmaRuns s t q x ∧ x.idx = i.toNat ∧ dmaKind
      x.desc = 2 ∧ pegRemote (dmaSig x.desc) = false ∧ p = dmaSig x.desc % 65536 ∧ p ≠ descCpeg x.desc ∧ pegOwned s t p = true ∧ s.bit
      (R.PEG_VAL_POISON p) = false ∧ NoTakes s p ∧ StatusAt s t q i.toNat k ∧ CpegTakes s t x.desc) ∧
    (∃ (t : Tenant) (q : QNum) (i : BitVec 16) (s : State) (x : Task), DmaRuns s t q x ∧ x.idx = i.toNat ∧ dmaKind x.desc = 2 ∧ pegRemote
      (dmaSig x.desc) = true ∧ s.hasRoute (nfld (dmaSig x.desc) 32 16) = true) ∧
    (∃ (t : Tenant) (q : QNum) (i : BitVec 16) (s : State) (x : Task) (k : Nat), s.bayRuns (s.get (R.DSP_Q_HOME t q)) = true ∧ (s.wq (qKey
      t q)).tasks.find? (fun y => y.idx == i.toNat && y.signal.isSome) = some x ∧ StatusAt s t q i.toNat k ∧ CpegTakes s t x.desc) :=
  ⟨⟨0, 0, { q0 with queues := [(0, ⟨[], true, none⟩)], mem := memOf 0x8000000000 (desc 0) }, 0x8000000000, desc 0, (by decide +kernel),
     (by decide +kernel), (by decide +kernel), (by decide +kernel), (agent_of (by decide +kernel)), (by decide +kernel),
     (by decide +kernel), (by decide +kernel), (by decide +kernel), (by decide +kernel), (by decide +kernel), (by decide +kernel)⟩,
   ⟨0, 0,
     { sets [(R.PMX_STAT_STATE 1, 2)] q0 with queues := [(0, ⟨[⟨0, .ready, desc 1, [], [], none⟩], false, some (tile0 1 (.queue 0 0 0))⟩)] },
     tile0 1 (.queue 0 0 0), (by decide +kernel), (by decide +kernel), (by decide +kernel), (by decide +kernel)⟩,
   ⟨0, 0, 0, q0t (desc 0) .ready [] [] none, ⟨0, .ready, desc 0, [], [], none⟩, 0x8000000800, (by unfold DmaRuns; decide +kernel),
     (by decide +kernel), (by decide +kernel), (status_of (by decide +kernel) (by decide +kernel) (by decide +kernel)), (cpeg_of
     (by decide +kernel) (by decide +kernel))⟩,
   ⟨0, 0, 0, q0t (desc 1) .ready [(0x8000000000, 64)] [(0x8000000040, 64)] none, ⟨0, .ready, desc 1, [(0x8000000000, 64)], [(0x8000000040,
     64)], none⟩, (by unfold DmaRuns; decide +kernel), (by decide +kernel), (by decide +kernel), (by decide +kernel), (by decide +kernel)⟩,
   ⟨0, 0, 0, q0t (desc 1) .ready [(0x8000000000, 128)] [(0x8000000040, 128)] none, ⟨0, .ready, desc 1, [(0x8000000000, 128)],
     [(0x8000000040, 128)], none⟩, (by unfold DmaRuns; decide +kernel), (by decide +kernel), (by decide +kernel), (by decide +kernel)⟩,
   ⟨0, 0, 0, { q0t (desc 1) .running [(0x8000000000, 64)] [(0x8000000040, 64)] none with mem := [(0x800000003F, 7), (0x8000000040, 9)] },
     ⟨0, .running, desc 1, [(0x8000000000, 64)], [(0x8000000040, 64)], none⟩, 0x8000000800, 0x8000000000, 0x8000000040,
     (by decide +kernel), (by decide +kernel), (by decide +kernel), (by decide +kernel), (by decide +kernel), (by decide +kernel),
     (by decide +kernel), (by decide +kernel), (status_of (by decide +kernel) (by decide +kernel) (by decide +kernel)),
     (by decide +kernel), (cpeg_of (by decide +kernel) (by decide +kernel))⟩,
   ⟨0, 0, 0, q0t (sigDesc 65534) .ready [] [] none, ⟨0, .ready, sigDesc 65534, [], [], none⟩, 0x8000000800, 65534,
     (by unfold DmaRuns; decide +kernel), (by decide +kernel), (by decide +kernel), (by decide +kernel), (by decide +kernel),
     (by decide +kernel), (by decide +kernel), (by decide +kernel), (takes_of (by decide +kernel)), (status_of (by decide +kernel)
     (by decide +kernel) (by decide +kernel)), (cpeg_of (by decide +kernel) (by decide +kernel))⟩,
   ⟨0, 0, 0, q0t (sigDesc (2 ^ 28)) .ready [] [] none, ⟨0, .ready, sigDesc (2 ^ 28), [], [], none⟩, (by unfold DmaRuns; decide +kernel),
     (by decide +kernel), (by decide +kernel), (by decide +kernel), (by decide +kernel)⟩,
   ⟨0, 0, 0, q0t (sigDesc (2 ^ 28)) .running [] [] (some (0, 0, 0)), ⟨0, .running, sigDesc (2 ^ 28), [], [], some (0, 0, 0)⟩,
     0x8000000800, (by decide +kernel), (by decide +kernel), (status_of (by decide +kernel) (by decide +kernel) (by decide +kernel)),
     (cpeg_of (by decide +kernel) (by decide +kernel))⟩⟩

/-- States and operands that meet the hypotheses of `Obligations.CancelAndWatch`, clause by clause. -/
theorem wit_CancelAndWatch :
    (∃ (r : Requester) (s : State) (t : Nat) (q : Nat), Reaches r 0x402004 s ∧ s.get R.DSP_QCMD_STATUS ≠ 1 ∧ t = s.get
      R.DSP_QCMDARG_TENANT ∧ q = s.get R.DSP_QCMDARG_QUEUE ∧ s.get R.DSP_QCMDARG_INDEX = s.get (R.DSP_Q_TAIL t q)) ∧
    (∃ (r : Requester) (s : State) (t : Nat) (q : Nat) (i : Nat) (k : Nat) (x : Task), Reaches r 0x402004 s ∧ s.get R.DSP_QCMD_STATUS ≠ 1
      ∧ t = s.get R.DSP_QCMDARG_TENANT ∧ q = s.get R.DSP_QCMDARG_QUEUE ∧ i = s.get R.DSP_QCMDARG_INDEX ∧ (s.wq (qKey t q)).task i = some x
      ∧ x.st = .ready ∧ cancellable t q i s = true ∧ (removeTile t q i s).1 = none ∧ StatusAt s t q i k ∧ CpegTakes s t x.desc) ∧
    (∃ (r : Requester) (s : State) (t : Nat) (q : Nat), Reaches r 0x402004 s ∧ s.get R.DSP_QCMD_STATUS ≠ 1 ∧ t = s.get
      R.DSP_QCMDARG_TENANT ∧ q = s.get R.DSP_QCMDARG_QUEUE) ∧
    (∃ (w : Fin 8) (v : BitVec 64) (s : State) (p : Nat), Reaches (.fn 0) (pwatchAddr 0 w.val) s ∧ p = nfld v.toNat 0 20 ∧ p < 65536 ∧
      nfld v.toNat 24 8 = 0 ∧ nfld v.toNat 56 8 = 0 ∧ pegOwned s 0 p = true ∧ s.bit (R.PEG_VAL_POISON p) = false ∧ s.peg p < nfld v.toNat
      32 24) ∧
    (∃ (w : Fin 8) (v : BitVec 64) (s : State) (p : Nat), Reaches (.fn 0) (pwatchAddr 0 w.val) s ∧ p = nfld v.toNat 0 20 ∧ p < 65536 ∧
      nfld v.toNat 24 8 = 0 ∧ nfld v.toNat 56 8 = 0 ∧ pegOwned s 0 p = true ∧ s.bit (R.PEG_VAL_POISON p) = false ∧ nfld v.toNat 32 24 ≤
      s.peg p ∧ (s.cfg 0).msixEnable = true ∧ (s.cfg 0).busMaster = true ∧ (s.cfg 0).msixFnMask = false ∧ s.bit (R.MSIX_TABLE_CTL_MASK 0
      (2 + w.val)) = false) ∧
    (∃ (w : Fin 8) (v : BitVec 64) (s : State) (p : Nat), Reaches (.fn 0) (pwatchAddr 0 w.val) s ∧ p = nfld v.toNat 0 20 ∧ p < 65536 ∧
      nfld v.toNat 24 8 = 0 ∧ nfld v.toNat 56 8 = 0 ∧ pegOwned s 0 p = false) ∧
    (∃ (f : Fn) (w : Fin 8) (s : State), Reaches (.fn f) (pwatchAddr f.val w.val) s) :=
  ⟨⟨.fn 0, sets [(R.DSP_QCMDARG_INDEX, 1)] (q0t (desc 0) .ready [] [] none), 0, 0, (by unfold Reaches; decide +kernel),
     (by decide +kernel), (by decide +kernel), (by decide +kernel), (by decide +kernel)⟩,
   ⟨.fn 0, q0t (desc 0) .ready [] [] none, 0, 0, 0, 0x8000000800, ⟨0, .ready, desc 0, [], [], none⟩, (by unfold Reaches; decide +kernel),
     (by decide +kernel), (by decide +kernel), (by decide +kernel), (by decide +kernel), (by decide +kernel), (by decide +kernel),
     (by decide +kernel), (by decide +kernel), (status_of (by decide +kernel) (by decide +kernel) (by decide +kernel)), (cpeg_of
     (by decide +kernel) (by decide +kernel))⟩,
   ⟨.fn 0, sets [(R.DSP_QCMDARG_TENANT, 15), (R.DSP_QCMDARG_QUEUE, 255), (R.DSP_Q_STOPPED 15 255, 1), (R.DSP_Q_ERR 15 255, 4)] rdy, 15,
     255, (by unfold Reaches; decide +kernel), (by decide +kernel), (by decide +kernel), (by decide +kernel)⟩,
   ⟨7, 0x000000010000FFFF, pg, 65535, (by unfold Reaches; decide +kernel), (by decide +kernel), (by decide +kernel), (by decide +kernel),
     (by decide +kernel), (by decide +kernel), (by decide +kernel), (by decide +kernel)⟩,
   ⟨7, 0x000000020000FFFF,
     { sets [(R.PEG_VAL_VALUE 65535, 2), (R.MSIX_TABLE_CTL_MASK 0 9, 0)] pg with fnCfg := [(0, ⟨false, true, true, false⟩)] }, 65535,
     (by unfold Reaches; decide +kernel), (by decide +kernel), (by decide +kernel), (by decide +kernel), (by decide +kernel),
     (by decide +kernel), (by decide +kernel), (by decide +kernel), (by decide +kernel), (by decide +kernel), (by decide +kernel),
     (by decide +kernel)⟩,
   ⟨7, 0x000000020000FFFF, rdy, 65535, (by unfold Reaches; decide +kernel), (by decide +kernel), (by decide +kernel), (by decide +kernel),
     (by decide +kernel), (by decide +kernel)⟩,
   ⟨16, 7, { sets [(R.HUB_PWATCH_EN 16 7, 1), (R.HUB_PWATCH_REVOKED 16 7, 1)] rdy with vfEnable := true, numVfs := 16 },
     (by unfold Reaches; decide +kernel)⟩⟩

/-- States and operands that meet the hypotheses of `Obligations.StagingAndStarting`, clause by clause. -/
theorem wit_StagingAndStarting :
    (∃ (e : Sys2Proof.Eng) (s : State) (x : Tile) (r : List Tile) (m : List (Nat × Nat)), EngRuns s e ∧ s.engServing e = true ∧ (s.eng
      e).running = false ∧ (s.eng e).queue = x :: r ∧ x.staging = false ∧ x.digital = false ∧ x.pages = some m) ∧
    (∃ (e : Sys2Proof.Eng) (s : State) (x : Tile) (r : List Tile) (c : Nat), EngRuns s e ∧ s.engServing e = true ∧ (s.eng e).running =
      false ∧ (s.eng e).queue = x :: r ∧ x.staging = false ∧ x.digital = false ∧ x.pages = none ∧ x.engine = e.val ∧ x.engine / 2 = x.bay
      ∧ x.fieldOk = false ∧ x.src = .hart c none ∧ CpegTakes s x.tenant x.desc) ∧
    (∃ (e : Sys2Proof.Eng) (s : State) (x : Tile) (m : List (Nat × Nat)), EngRuns s e ∧ (s.eng e).queue.find? (fun t => t.staging &&
      t.staged.isNone && !t.digital) = some x ∧ x.pages = some m ∧ (∀ p ∈ areaPieces m x.rowArea ++ areaPieces m x.scaleArea, s.hasError
      p.1 p.2 = false ∧ s.memStopped p.1 = false)) ∧
    (∃ (e : Sys2Proof.Eng) (s : State) (x : Tile) (r : List Tile) (st : Staged), EngRuns s e ∧ s.engState e = 2 ∧ (s.eng e).running =
      false ∧ (s.eng e).queue = x :: r ∧ x.staged = some st ∧ x.digital = false ∧ (s.eng e).drain = none ∧ nbit (s.get
      R.DSP_REPRO_TENANT_MASK) x.tenant = false ∧ x.ceiling ≠ 0 ∧ (x.ceiling = 0xFFFF ∨ s.get (R.PMX_ERR_ERR e (combo x.mode x.sparse)) ≤
      x.ceiling)) ∧
    (∃ (e : Sys2Proof.Eng) (s : State) (x : Tile) (r : List Tile) (st : Staged), EngRuns s e ∧ s.engState e = 2 ∧ (s.eng e).running =
      false ∧ (s.eng e).queue = x :: r ∧ x.staged = some st ∧ x.digital = false ∧ (s.eng e).drain = none ∧ nbit (s.get
      R.DSP_REPRO_TENANT_MASK) x.tenant = false ∧ x.ceiling ≠ 0 ∧ x.ceiling ≠ 0xFFFF ∧ x.ceiling < s.get (R.PMX_ERR_ERR e (combo x.mode
      x.sparse)) ∧ x.strict = false) ∧
    (∃ (e : Sys2Proof.Eng) (s : State), EngRuns s e ∧ s.engState e = 3) :=
  ⟨⟨15, en 2 { Machine.Eng.reset with queue := [tl 9 1] }, tl 9 1, [], tpages, (by unfold EngRuns; decide +kernel), (by decide +kernel),
     (by decide +kernel), (by decide +kernel), (by decide +kernel), (by decide +kernel), (by decide +kernel)⟩,
   ⟨15, en 2 { Machine.Eng.reset with queue := [{ tl 9 0 with pages := none, src := .hart 0 none }] },
     { tl 9 0 with pages := none, src := .hart 0 none }, [], 0, (by unfold EngRuns; decide +kernel), (by decide +kernel),
     (by decide +kernel), (by decide +kernel), (by decide +kernel), (by decide +kernel), (by decide +kernel), (by decide +kernel),
     (by decide +kernel), (by decide +kernel), (by decide +kernel), (cpeg_of (by decide +kernel) (by decide +kernel))⟩,
   ⟨15,
     { en 2 { Machine.Eng.reset with queue := [{ tl 9 1 with staging := true }] } with mem := [(0x8000000000, 0x80), (0x8000000FFF, 0x7F)] },
     { tl 9 1 with staging := true }, tpages, (by unfold EngRuns; decide +kernel), (by decide +kernel), (by decide +kernel),
     (by decide +kernel)⟩,
   ⟨15, en 2 { Machine.Eng.reset with queue := [{ tl 100 1 with staged := some stg }] }, { tl 100 1 with staged := some stg }, [], stg,
     (by unfold EngRuns; decide +kernel), (by decide +kernel), (by decide +kernel), (by decide +kernel), (by decide +kernel),
     (by decide +kernel), (by decide +kernel), (by decide +kernel), (by decide +kernel), (by decide +kernel)⟩,
   ⟨15, en 2 { Machine.Eng.reset with queue := [{ tl 99 1 with staged := some stg }] }, { tl 99 1 with staged := some stg }, [], stg,
     (by unfold EngRuns; decide +kernel), (by decide +kernel), (by decide +kernel), (by decide +kernel), (by decide +kernel),
     (by decide +kernel), (by decide +kernel), (by decide +kernel), (by decide +kernel), (by decide +kernel), (by decide +kernel),
     (by decide +kernel)⟩,
   ⟨15, en 3 Machine.Eng.reset, (by unfold EngRuns; decide +kernel), (by decide +kernel)⟩⟩

/-- States and operands that meet the hypotheses of `Obligations.VectorsAndProbes`, clause by clause. -/
theorem wit_VectorsAndProbes :
    (∃ (e : Sys2Proof.Eng) (codes : List Byte) (s : State) (x : Tile) (st : Staged), EngRuns s e ∧ Streams s e x st) ∧
    (∃ (e : Sys2Proof.Eng) (codes : List Byte) (s : State) (x : Tile) (st : Staged), EngRuns s e ∧ Streams s e x st ∧ capLets (s.eng e)
      (if x.mode = 2 then 2 else 1) = false) ∧
    (∃ (e : Sys2Proof.Eng) (codes : List Byte) (s : State) (x : Tile) (st : Staged) (m : List (Nat × Nat)) (c : CalSet) (k : Nat), EngRuns
      s e ∧ Streams s e x st ∧ capLets (s.eng e) (if x.mode = 2 then 2 else 1) = true ∧ x.pages = some m ∧ st.bad = false ∧ (s.eng e).act
      = some c ∧ (∀ p ∈ homePieces m ((x.inAddr + (s.eng e).vec * x.inStride) % 2 ^ 64) (packedLen x.mode x.sparse) ++ homePieces m
      ((x.isAddr + 2 * (s.eng e).vec) % 2 ^ 64) 2, s.hasError p.1 p.2 = false ∧ s.memStopped p.1 = false) ∧ homePieces m ((x.outAddr +
      (s.eng e).vec * x.outStride) % 2 ^ 64) 128 = [(k, 128)] ∧ s.hitsWeights k 128 = false ∧ s.memStopped k = false) ∧
    (∃ (e : Sys2Proof.Eng) (codes : List Byte) (s : State) (c : CalSet), EngRuns s e ∧ s.engServing e = true ∧ s.engState e ≠ 3 ∧ (s.eng
      e).act = some c ∧ (s.eng e).slotCnt = 4095 ∧ (s.eng e).probesDue = 0 ∧ capLets (s.eng e) (if (s.eng e).rings.map Staged.mode = some
      2 then 2 else 1) = true) ∧
    (∃ (e : Sys2Proof.Eng) (s : State) (x : Tile) (r : List Tile) (c : Nat) (slot : Nat) (serial : Nat) (i : Nat) (sl : Slot), EngRuns s e
      ∧ s.engState e = 4 ∧ (s.eng e).running = true ∧ (s.eng e).queue = x :: r ∧ x.nvec ≤ (s.eng e).vec ∧ x.engine = e.val ∧ (s.eng
      e).drain = none ∧ x.src = .hart c (some (slot, serial)) ∧ (s.hart c).slots.find? (fun y => y.1 == slot) = some (i, sl) ∧ sl.serial =
      serial ∧ (s.hart c).wait = .none ∧ CpegTakes s x.tenant x.desc ∧ s.bit (R.PMX_CTL_SVC_OUT e) = false ∧ (s.eng e).selftest = none) :=
  ⟨⟨15, [], en 4 { Machine.Eng.reset with queue := [tl 100 1], running := true, rings := some stg, idleRun := 63 }, tl 100 1, stg,
     (by unfold EngRuns; decide +kernel), (by unfold Streams; decide +kernel)⟩,
   ⟨15, [], en 4 { Machine.Eng.reset with queue := [tl 100 1], running := true, rings := some stg, idleRun := 63 }, tl 100 1, stg,
     (by unfold EngRuns; decide +kernel), (by unfold Streams; decide +kernel), (by decide +kernel)⟩,
   ⟨15, List.replicate 64 0x85,
     { en 4 { Machine.Eng.reset with queue := [tl 100 1], running := true, rings := some stg, act := some ⟨[], 31, 0⟩, cap := 128 } with mem := [(0x8000001100, 3), (0x8000001201, 0x3C)] },
     tl 100 1, stg, tpages, ⟨[], 31, 0⟩, 0x8000002000, (by unfold EngRuns; decide +kernel), (by unfold Streams; decide +kernel),
     (by decide +kernel), (by decide +kernel), (by decide +kernel), (by decide +kernel), (by decide +kernel), (by decide +kernel),
     (by decide +kernel), (by decide +kernel)⟩,
   ⟨15, List.replicate 64 0x85, en 4
     { Machine.Eng.reset with queue := [tl 100 1], running := true, rings := some stg, act := some ⟨[], 31, 0⟩, cap := 128, slotCnt := 4095, lfsr := 1 },
     ⟨[], 31, 0⟩, (by unfold EngRuns; decide +kernel), (by decide +kernel), (by decide +kernel), (by decide +kernel), (by decide +kernel),
     (by decide +kernel), (by decide +kernel)⟩,
   ⟨15, en 4 { Machine.Eng.reset with queue := [tl 100 1], running := true, rings := some stg, vec := 1 }, tl 100 1, [], 0, 2, 9, 2, ⟨9,
     none⟩, (by unfold EngRuns; decide +kernel), (by decide +kernel), (by decide +kernel), (by decide +kernel), (by decide +kernel),
     (by decide +kernel), (by decide +kernel), (by decide +kernel), (by decide +kernel), (by decide +kernel), (by decide +kernel),
     (cpeg_of (by decide +kernel) (by decide +kernel)), (by decide +kernel), (by decide +kernel)⟩⟩

/-- States and operands that meet the hypotheses of `Obligations.WeirWindows`, clause by clause. -/
theorem wit_WeirWindows :
    (∃ (e : Sys2Proof.Eng) (s : State), EngRuns s e ∧ s.engServing e = true ∧ (s.eng e).running = false) ∧
    (∃ (e : Sys2Proof.Eng) (s : State), EngRuns s e ∧ s.engServing e = false) ∧
    (∃ (e : Sys2Proof.Eng) (s : State) (x : Tile) (r : List Tile), EngRuns s e ∧ s.engState e = 4 ∧ (s.eng e).running = true ∧ (s.eng
      e).queue = x :: r ∧ (s.eng e).vec < x.nvec ∧ (s.eng e).cur = [] ∧ (s.eng e).hist = [] ∧ x.ceiling ≠ 0xFFFF ∧ x.ceiling < s.get
      (R.PMX_ERR_ERR e (combo x.mode x.sparse)) ∧ x.strict = false ∧ s.bit (R.PMX_CTL_SVC_OUT e) = false ∧ (s.eng e).selftest = none ∧
      x.mode < 3) ∧
    (∃ (e : Sys2Proof.Eng) (s : State) (pad : Nat), EngRuns s e ∧ s.engServing e = true ∧ pad = (if s.engState e = 3 then 0 else (s.eng
      e).floor / 64 - (s.eng e).subDriven)) :=
  ⟨⟨15, en 2 { Machine.Eng.reset with driven := 400000, cur := [(0, 0), (0, 0), (4096, 1024)] }, (by unfold EngRuns; decide +kernel),
     (by decide +kernel), (by decide +kernel)⟩,
   ⟨15, en 1 { Machine.Eng.reset with driven := 400000 }, (by unfold EngRuns; decide +kernel), (by decide +kernel)⟩,
   ⟨15, en 4 { Machine.Eng.reset with queue := [tl 99 2], running := true, vec := 1 }, tl 99 2, [], (by unfold EngRuns; decide +kernel),
     (by decide +kernel), (by decide +kernel), (by decide +kernel), (by decide +kernel), (by decide +kernel), (by decide +kernel),
     (by decide +kernel), (by decide +kernel), (by decide +kernel), (by decide +kernel), (by decide +kernel), (by decide +kernel)⟩,
   ⟨15, en 2 { Machine.Eng.reset with floor := 64 * 20000, subDriven := 1, withheld := true }, 19999, (by unfold EngRuns; decide +kernel),
     (by decide +kernel), (by decide +kernel)⟩⟩

/-- States and operands that meet the hypotheses of `Obligations.FallbackPath`, clause by clause. -/
theorem wit_FallbackPath :
    (∃ (b : Bay) (s : State) (x : Tile) (r : List Tile), s.bayRuns b = true ∧ (s.fallback b).length < 1024 ∧ (s.eng (2 * b.val)).queue = x
      :: r ∧ x.digital = true ∧ (s.eng (2 * b.val)).running = false ∧ (s.eng (2 * b.val + 1)).queue = []) ∧
    (∃ (b : Bay) (s : State) (x : Tile) (m : List (Nat × Nat)) (k : Nat) (c : Nat) (slot : Nat) (serial : Nat) (i : Nat) (n : Nat) (sl :
      Slot) (w : List Byte) (v : List Byte), s.bayRuns b = true ∧ s.fallback b = [x] ∧ x.pages = some m ∧ x.nvec = 1 ∧ n = (if x.sparse
      then 32 else 64) ∧ (∀ p ∈ areaPieces m x.rowArea ++ areaPieces m x.scaleArea ++ homePieces m (x.inAddr % 2 ^ 64) (packedLen x.mode
      x.sparse) ++ homePieces m (x.isAddr % 2 ^ 64) 2, s.hasError p.1 p.2 = false ∧ s.memStopped p.1 = false) ∧ homePieces m (x.outAddr %
      2 ^ 64) 128 = [(k, 128)] ∧ s.hitsWeights k 128 = false ∧ s.memStopped k = false ∧ (s.eng x.engine).drain = none ∧ x.src = .hart c
      (some (slot, serial)) ∧ (s.hart c).slots.find? (fun y => y.1 == slot) = some (i, sl) ∧ sl.serial = serial ∧ (s.hart c).wait = .none
      ∧ CpegTakes s x.tenant x.desc ∧ w = (areaPieces m x.rowArea).flatMap (fun p => s.bytesAt p.1 p.2) ∧ v = (homePieces m (x.inAddr % 2
      ^ 64) (packedLen x.mode x.sparse)).flatMap (fun p => s.bytesAt p.1 p.2)) :=
  ⟨⟨7,
     { en 2 Machine.Eng.reset with engs := [(14, { Machine.Eng.reset with queue := [{ tile0 14 (.hart 0 none) with digital := true }] })] },
     { tile0 14 (.hart 0 none) with digital := true }, [], (by decide +kernel), (by decide +kernel), (by decide +kernel),
     (by decide +kernel), (by decide +kernel), (by decide +kernel)⟩,
   ⟨7, fb1, tl 9 1, tpages, 0x8000002000, 0, 2, 9, 2, 64, ⟨9, none⟩, (areaPieces tpages (tl 9 1).rowArea).flatMap (fun p => fb1.bytesAt
     p.1 p.2), (homePieces tpages ((tl 9 1).inAddr % 2 ^ 64) (packedLen (tl 9 1).mode (tl 9 1).sparse)).flatMap (fun p => fb1.bytesAt p.1
     p.2), (by decide +kernel), (by decide +kernel), (by decide +kernel), (by decide +kernel), (by decide +kernel), (by decide +kernel),
     (by decide +kernel), (by decide +kernel), (by decide +kernel), (by decide +kernel), (by decide +kernel), (by decide +kernel),
     (by decide +kernel), (by decide +kernel), (cpeg_of (by decide +kernel) (by decide +kernel)), rfl, rfl⟩⟩

/-- States and operands that meet the hypotheses of `Obligations.EngineService`, clause by clause. -/
theorem wit_EngineService :
    (∃ (r : Requester) (e : Sys2Proof.Eng) (s : State), Reaches r (0x400000 + 0x100 * e.val) s ∧ s.engState e = 2 ∧ (s.eng e).queue = [] ∧
      (s.eng e).running = false) ∧
    (∃ (r : Requester) (e : Sys2Proof.Eng) (s : State), Reaches r (0x400000 + 0x100 * e.val) s ∧ s.engState e = 6 ∧ s.engMarked e = false
      ∧ (s.eng e).selftest = none) ∧
    (∃ (r : Requester) (e : Sys2Proof.Eng) (en : BitVec 1) (duty : BitVec 3) (s : State), Reaches r (0x400000 + 0x100 * e.val) s) ∧
    (∃ (e : Sys2Proof.Eng) (s : State), s.engMarked e = false ∧ s.engServing e = true ∧ (s.eng e).queue = [] ∧ (s.eng e).running = false ∧
      s.scbQueue = [] ∧ s.scbRun = none ∧ LogOpen s) ∧
    (∃ (e : Sys2Proof.Eng) (s : State), s.engServing e = true ∧ (s.eng e).queue = [] ∧ (s.eng e).running = false) ∧
    (∃ (tag : BitVec 16) (e : Byte) (s : State), e.toNat < 16 ∧ MbxFree tag 4 0x40 s ∧ s.get (R.HUB_PERMIT_HOLDER (32 + e.toNat)) = 0 ∧
      s.engServing e.toNat = true ∧ (s.eng e.toNat).queue = [] ∧ (s.eng e.toNat).running = false) ∧
    (∃ (e : Sys2Proof.Eng) (s : State) (path : Nat), (s.eng e).selftest = some path ∧ (s.eng e).running = false ∧ s.engState e = 6 ∧
      s.engMarked e = false ∧ s.bit (R.PMX_CTL_SVC_OUT e) = false ∧ s.bit (R.PMX_STAT_LOCKED e) = true) :=
  ⟨⟨.fn 0, 15, en 2 Machine.Eng.reset, (by unfold Reaches; decide +kernel), (by decide +kernel), (by decide +kernel), (by decide +kernel)⟩,
   ⟨.fn 0, 15, en 6 { Machine.Eng.reset with errs := [1, 2, 3, 4, 5, 6] }, (by unfold Reaches; decide +kernel), (by decide +kernel),
     (by decide +kernel), (by decide +kernel)⟩,
   ⟨.fn 0, 15, 1, 7, sets [(R.PMX_CTL_SVC_OUT 15, 1)] rdy, (by unfold Reaches; decide +kernel)⟩,
   ⟨15, en 2 Machine.Eng.reset, (by decide +kernel), (by decide +kernel), (by decide +kernel), (by decide +kernel), (by decide +kernel),
     (by decide +kernel), (by unfold LogOpen; decide +kernel)⟩,
   ⟨15, en 2 Machine.Eng.reset, (by decide +kernel), (by decide +kernel), (by decide +kernel)⟩,
   ⟨3, 15, en 2 Machine.Eng.reset, (by decide +kernel), (by unfold MbxFree Reaches; decide +kernel), (by decide +kernel),
     (by decide +kernel), (by decide +kernel), (by decide +kernel)⟩,
   ⟨15, en 6 { Machine.Eng.reset with selftest := some 1 }, 1, (by decide +kernel), (by decide +kernel), (by decide +kernel),
     (by decide +kernel), (by decide +kernel), (by decide +kernel)⟩⟩

/-- States and operands that meet the hypotheses of `Obligations.FramesReadBack`, clause by clause. -/
theorem wit_FramesReadBack :
    (∃ (f : Frame) (lseq : Nat), f.cls < 3 ∧ f.dst < 2 ^ 20 ∧ f.src < 2 ^ 20 ∧ f.flow < 2 ^ 16 ∧ f.hops < 16 ∧ lseq < 2 ^ 16 ∧ 1 ≤
      f.xs.length ∧ f.xs.length ≤ 8 ∧ (∀ x ∈ f.xs, x.body.data.length = if x.op = 2 then 0 else x.body.size.toNat) ∧ (f.xs.flatMap
      xactBytes).length ≤ 492) ∧
    (∃ (f : Frame) (lseq : Nat) (hops : Nat) (lseq' : Nat), f.cls < 3 ∧ f.dst < 2 ^ 20 ∧ f.src < 2 ^ 20 ∧ f.flow < 2 ^ 16 ∧ f.hops < 16 ∧
      lseq < 2 ^ 16 ∧ 1 ≤ f.xs.length ∧ f.xs.length ≤ 8 ∧ (∀ x ∈ f.xs, x.body.data.length = if x.op = 2 then 0 else x.body.size.toNat) ∧
      (f.xs.flatMap xactBytes).length ≤ 492 ∧ hops < 16 ∧ lseq' < 2 ^ 16) ∧
    (∃ (hops : Nat) (dst : Nat) (src : Nat) (body : List Byte), hops < 16 ∧ dst < 2 ^ 20 ∧ src < 2 ^ 20 ∧ body.length = 16) :=
  ⟨⟨fr 7 15, 65535, (by decide +kernel), (by decide +kernel), (by decide +kernel), (by decide +kernel), (by decide +kernel),
     (by decide +kernel), (by decide +kernel), (by decide +kernel), (by decide +kernel), (by decide +kernel)⟩,
   ⟨fr 7 15, 65535, 14, 0, (by decide +kernel), (by decide +kernel), (by decide +kernel), (by decide +kernel), (by decide +kernel),
     (by decide +kernel), (by decide +kernel), (by decide +kernel), (by decide +kernel), (by decide +kernel), (by decide +kernel),
     (by decide +kernel)⟩,
   ⟨15, 2 ^ 20 - 1, 0, List.replicate 16 0xFF, (by decide +kernel), (by decide +kernel), (by decide +kernel), (by decide +kernel)⟩⟩

/-- States and operands that meet the hypotheses of `Obligations.FramesAndAcknowledgements`, clause by clause. -/
theorem wit_FramesAndAcknowledgements :
    (∃ (p : Port) (s : State) (h : RoutedXact) (f : Frame), s.portUp p = true ∧ s.draining p = false ∧ s.transit = [] ∧ s.fabricOut = [h]
      ∧ h.cls < 3 ∧ h.dst ≠ s.pkg ∧ s.selectPort h.dst h.flow = some p.val ∧ (xactBytes h.x).length ≤ 492 ∧ f = ⟨h.cls, h.dst, s.get
      R.LNK_GLOBAL_PKG, h.flow, s.get R.LNK_GLOBAL_HOPS_INIT, [h.x]⟩ ∧ f.credits ≤ (s.port p).credit h.cls) ∧
    (∃ (p : Port) (s : State) (q : Nat) (n : Nat) (f : Frame), s.portUp p = true ∧ s.draining p = false ∧ s.transit = [(q, n, f)] ∧
      s.fabricOut = [] ∧ f.cls < 3 ∧ s.selectPort (f.dst % 65536) f.flow = some p.val ∧ f.credits ≤ (s.port p).credit f.cls) ∧
    (∃ (p : Port) (bytes : List Byte) (s : State), readFrame bytes = none ∧ s.portUp p = true) ∧
    (∃ (p : Port) (bytes : List Byte) (s : State) (f : Frame) (lseq : Nat), readFrame bytes = some (.frame f lseq) ∧ s.portUp p = true ∧
      lseq = (s.port p).rxSeq ∧ f.dst % 65536 ≠ s.pkg) ∧
    (∃ (p : Port) (bytes : List Byte) (s : State) (f : Frame) (lseq : Nat), readFrame bytes = some (.frame f lseq) ∧ lseq ≠ (s.port
      p).rxSeq) ∧
    (∃ (p : Port) (b : LinkAckBody) (s : State) (n : Nat), s.portUp p = true ∧ n = (b.ackseq.toNat + 65536 - ((s.port p).replay.head?.map
      Prod.fst).getD (s.port p).txSeq) % 65536 ∧ n ≤ (s.port p).replay.length ∧ b.nak = false) ∧
    (∃ (p : Port) (b : LinkAckBody) (s : State) (n : Nat), s.portUp p = true ∧ n = (b.ackseq.toNat + 65536 - ((s.port p).replay.head?.map
      Prod.fst).getD (s.port p).txSeq) % 65536 ∧ n ≤ (s.port p).replay.length ∧ b.nak = true ∧ ((s.port p).nakSeq ≠ b.ackseq.toNat ∨
      (s.port p).nakRun < 7)) ∧
    (∃ (p : Port) (b : LinkAckBody) (s : State) (n : Nat), s.portUp p = true ∧ n = (b.ackseq.toNat + 65536 - ((s.port p).replay.head?.map
      Prod.fst).getD (s.port p).txSeq) % 65536 ∧ n ≤ (s.port p).replay.length ∧ b.nak = true ∧ (s.port p).nakSeq = b.ackseq.toNat ∧ n = 0
      ∧ 7 ≤ (s.port p).nakRun) ∧
    (∃ (p : Port) (s : State), s.portUp p = true) :=
  ⟨⟨31, { net.putPort 31 { PortSt.reset with txSeq := 65535 } with fabricOut := [⟨0, 7, 0, 5, wr3⟩] }, ⟨0, 7, 0, 5, wr3⟩, ⟨0, 7, 0, 5, 8,
     [wr3]⟩, (by decide +kernel), (by decide +kernel), (by decide +kernel), (by decide +kernel), (by decide +kernel), (by decide +kernel),
     (by decide +kernel), (by decide +kernel), (by decide +kernel), (by decide +kernel)⟩,
   ⟨31, { net.putPort 31 { PortSt.reset with txSeq := 65535 } with transit := [(30, 1, fr 7 0)] }, 30, 1, fr 7 0, (by decide +kernel),
     (by decide +kernel), (by decide +kernel), (by decide +kernel), (by decide +kernel), (by decide +kernel), (by decide +kernel)⟩,
   ⟨31, [1, 2, 3], net.putPort 31 { PortSt.reset with rxSeq := 65535 }, (by decide +kernel), (by decide +kernel)⟩,
   ⟨31, (fr 7 1).bytes 65535, net.putPort 31 { PortSt.reset with rxSeq := 65535 }, fr 7 1, 65535, (by decide +kernel),
     (by decide +kernel), (by decide +kernel), (by decide +kernel)⟩,
   ⟨31, (fr 7 1).bytes 65535, net, fr 7 1, 65535, (by decide +kernel), (by decide +kernel)⟩,
   ⟨31, ⟨false, 0, 0, 0, 0⟩, net.putPort 31 { PortSt.reset with replay := [(65535, fr 7 1), (0, fr 7 2)], txSeq := 1 }, 1,
     (by decide +kernel), (by decide +kernel), (by decide +kernel), (by decide +kernel)⟩,
   ⟨31, ⟨true, 0, 0, 0, 0⟩, net.putPort 31 { PortSt.reset with replay := [(65535, fr 7 1), (0, fr 7 2)], txSeq := 1 }, 1,
     (by decide +kernel), (by decide +kernel), (by decide +kernel), (by decide +kernel), (by decide +kernel)⟩,
   ⟨31, ⟨true, 65535, 0, 0, 0⟩, net.putPort 31
     { PortSt.reset with replay := [(65535, fr 7 1), (0, fr 7 2)], txSeq := 1, nakSeq := 65535, nakRun := 7 }, 0, (by decide +kernel),
     (by decide +kernel), (by decide +kernel), (by decide +kernel), (by decide +kernel), (by decide +kernel), (by decide +kernel)⟩,
   ⟨31, net.putPort 31 { PortSt.reset with rxSeq := 65535 }, (by decide +kernel)⟩⟩

/-- States and operands that meet the hypotheses of `Obligations.Training`, clause by clause. -/
theorem wit_Training :
    (∃ (p : Port) (s : State), s.mayTrain p = true ∧ s.ptState p = 1 ∧ s.bit (R.LNK_CFG_AUTO_RETRAIN p) = true ∧ (s.port p).needRise =
      false ∧ (s.port p).retryWait = false) ∧
    (∃ (p : Port) (s : State), s.mayTrain p = true ∧ s.ptState p = 1 ∧ (s.port p).retryWait = true) ∧
    (∃ (p : Port) (b : TrainBody) (s : State), s.ptState p = 2) ∧
    (∃ (p : Port) (b : TrainBody) (s : State) (left : Nat), s.ptState p = 4 ∧ left = wholeGroups (s.get (R.LNK_LINES_ACTIVE p) &&&
      b.linesOk.toNat) ∧ left ≠ 0 ∧ left ≠ s.get (R.LNK_LINES_ACTIVE p)) ∧
    (∃ (p : Port) (m : TrainMeasure) (s : State) (b : TrainBody) (lines : Nat), s.ptState p = 2 ∧ (s.port p).peer = some b ∧ (s.port
      p).keep = false ∧ m.delayPs ≤ 10000000 ∧ lines = wholeGroups (m.linesLocked.toNat &&& s.linesMax p &&& s.termMask p &&&
      b.linesOk.toNat) ∧ lines ≠ 0 ∧ s.bit (R.LNK_CFG_NBR_CHECK p) = false ∧ s.bit (R.LNK_CFG_LIGHT p) = false) ∧
    (∃ (p : Port) (m : TrainMeasure) (s : State) (b : TrainBody), s.ptState p = 2 ∧ (s.port p).peer = some b ∧ m.delayPs ≤ 10000000 ∧
      wholeGroups (m.linesLocked.toNat &&& s.linesMax p &&& s.termMask p &&& b.linesOk.toNat) = 0) ∧
    (∃ (p : Port) (s : State), s.ptState p = 2) :=
  ⟨⟨31, ptAt 1 PortSt.reset, (by decide +kernel), (by decide +kernel), (by decide +kernel), (by decide +kernel), (by decide +kernel)⟩,
   ⟨31, ptAt 1 { PortSt.reset with retryWait := true }, (by decide +kernel), (by decide +kernel), (by decide +kernel)⟩,
   ⟨31, tb 0 0xFFFF, ptAt 2 PortSt.reset, (by decide +kernel)⟩,
   ⟨31, tb 7 0xF7FF, sets [(R.LNK_LINES_ACTIVE 31, 0xFFFF)] net, 0xF0FF, (by decide +kernel), (by decide +kernel), (by decide +kernel),
     (by decide +kernel)⟩,
   ⟨31, ⟨0xFFFF, false, 10000000⟩, sets [(R.LNK_CFG_NBR_CHECK 31, 0)] (ptAt 2 { PortSt.reset with peer := some (tb 0 0xF0FF) }), tb 0
     0xF0FF, 0xF0FF, (by decide +kernel), (by decide +kernel), (by decide +kernel), (by decide +kernel), (by decide +kernel),
     (by decide +kernel), (by decide +kernel), (by decide +kernel)⟩,
   ⟨31, ⟨0x7777, false, 10000000⟩, ptAt 2 { PortSt.reset with peer := some (tb 0 0xF0FF) }, tb 0 0xF0FF, (by decide +kernel),
     (by decide +kernel), (by decide +kernel), (by decide +kernel)⟩,
   ⟨31, ptAt 2 { PortSt.reset with fails := 7 }, (by decide +kernel)⟩⟩

/-- States and operands that meet the hypotheses of `Obligations.PortStates`, clause by clause. -/
theorem wit_PortStates :
    (∃ (r : Requester) (p : Port) (s : State), Reaches r (0x700004 + 0x100 * p.val) s ∧ s.get (R.LNK_CMD_STATUS p) ≠ 1 ∧ s.ptState p = 4 ∧
      s.mayTrain p = true) ∧
    (∃ (r : Requester) (p : Port) (s : State), Reaches r (0x700004 + 0x100 * p.val) s ∧ s.get (R.LNK_CMD_STATUS p) ≠ 1 ∧ s.ptState p = 4) ∧
    (∃ (r : Requester) (p : Port) (s : State), Reaches r (0x700004 + 0x100 * p.val) s ∧ s.get (R.LNK_CMD_STATUS p) = 1) ∧
    (∃ (r : Requester) (p : Port) (s : State), Reaches r (0x700004 + 0x100 * p.val) s ∧ s.get (R.LNK_CMD_STATUS p) = 1) ∧
    (∃ (r : Requester) (p : Port) (s : State), Reaches r (0x700000 + 0x100 * p.val) s ∧ s.ptState p ≠ 5) ∧
    (∃ (r : Requester) (p : Port) (s : State), Reaches r (0x700000 + 0x100 * p.val) s ∧ s.ptState p ≠ 5) ∧
    (∃ (p : Port) (l : Line) (cause : LineCause) (s : State) (left : Nat), s.ptState p = 4 ∧ nbit (s.get (R.LNK_LINES_FAILED p)) l = false
      ∧ nbit (s.get (R.LNK_LINES_ACTIVE p)) l = true ∧ LogOpen s ∧ left = wholeGroups (s.get (R.LNK_LINES_ACTIVE p) &&& (0xFFFF ^^^ 15 * 2
      ^ (l.val / 4 * 4))) ∧ left ≠ 0) ∧
    (∃ (p : Port) (s : State), (s.ptState p = 4 ∨ s.ptState p = 2 ∨ s.ptState p = 3)) ∧
    (∃ (p : Port) (s : State), s.ptState p = 4 ∧ s.bit (R.LNK_STAT_FEC p) = false) ∧
    (∃ (k : Pair) (s : State), nbit s.pairsOut k = false) :=
  ⟨⟨.hart 3, 31, net.putPort 31 { PortSt.reset with replay := [(0, fr 7 0)] }, (by unfold Reaches; decide +kernel), (by decide +kernel),
     (by decide +kernel), (by decide +kernel)⟩,
   ⟨.fn 0, 31, net.putPort 31 { PortSt.reset with replay := [(0, fr 7 0)] }, (by unfold Reaches; decide +kernel), (by decide +kernel),
     (by decide +kernel)⟩,
   ⟨.fn 0, 31, sets [(R.LNK_CMD_STATUS 31, 1)] net, (by unfold Reaches; decide +kernel), (by decide +kernel)⟩,
   ⟨.fn 0, 31, sets [(R.LNK_CMD_STATUS 31, 1), (R.LNK_CMD_IGNORED 31, 65535)] net, (by unfold Reaches; decide +kernel),
     (by decide +kernel)⟩,
   ⟨.fn 0, 31, net, (by unfold Reaches; decide +kernel), (by decide +kernel)⟩,
   ⟨.fn 0, 31, ptAt 0 PortSt.reset, (by unfold Reaches; decide +kernel), (by decide +kernel)⟩,
   ⟨31, 15, .power, sets [(R.LNK_LINES_ACTIVE 31, 0xFFFF)] net, 0x0FFF, (by decide +kernel), (by decide +kernel), (by decide +kernel),
     (by unfold LogOpen; decide +kernel), (by decide +kernel), (by decide +kernel)⟩,
   ⟨31, sets [(R.LNK_LINES_ACTIVE 31, 0xFFFF)] net, (by decide +kernel)⟩,
   ⟨31, net, (by decide +kernel), (by decide +kernel)⟩,
   ⟨7, net, (by decide +kernel)⟩⟩

/-- States and operands that meet the hypotheses of `Obligations.GangsAndIdentity`, clause by clause. -/
theorem wit_GangsAndIdentity :
    (∃ (r : Requester) (g : Fin 16) (ports : BitVec 32) (s : State), Reaches r (0x704100 + 8 * g.val) s ∧ (∀ h : Fin 16, h ≠ g → s.get
      (R.LNK_GANG_PORTS h) &&& ports.toNat = 0)) ∧
    (∃ (r : Requester) (g : Fin 16) (ports : BitVec 32) (s : State) (h : Fin 16), Reaches r (0x704100 + 8 * g.val) s ∧ h ≠ g ∧ s.get
      (R.LNK_GANG_PORTS h) &&& ports.toNat ≠ 0) ∧
    (∃ (p : Port) (s : State) (g : Nat) (old : Nat), (s.port p).replay = [] ∧ s.gangDrain = [(g, old, [p.val])] ∧ s.transit = []) ∧
    (∃ (r : Requester) (v : BitVec 20) (s : State), Reaches r 0x704000 s ∧ v.toNat ≤ 65535 ∧ (∀ p : Port, s.ptState p ≠ 4 ∧ s.ptState p ≠
      3)) ∧
    (∃ (r : Requester) (v : BitVec 20) (s : State) (p : Port), Reaches r 0x704000 s ∧ v.toNat ≤ 65535 ∧ (s.ptState p = 4 ∨ s.ptState p =
      3)) ∧
    (∃ (r : Requester) (v : BitVec 20) (s : State), Reaches r 0x704000 s ∧ 65535 < v.toNat) ∧
    (∃ (p : Port) (n : BitVec 128) (rise : Bool) (depth : Nat) (s : State), (rise = false ∨ 150 ≤ depth) ∧ n.toNat % 65536 = 0xB5C3 ∧ nfld
      n.toNat 120 8 = beaconCrc n.toNat ∧ s.bit (R.LNK_STAT_AMBIENT p) = false ∧ (s.port p).beacon = some (nfld n.toNat 20 20, nfld
      n.toNat 40 7, nfld n.toNat 48 32)) ∧
    (∃ (p : Port) (n : BitVec 128) (rise : Bool) (depth : Nat) (s : State), (rise = false ∨ 150 ≤ depth) ∧ (n.toNat % 65536 ≠ 0xB5C3 ∨
      nfld n.toNat 120 8 ≠ beaconCrc n.toNat)) ∧
    (∃ (p : Port) (s : State), s.bit (R.LNK_CFG_BEACON_EN p) = true ∧ s.feedLit p = true ∧ s.ptState p ≠ 0 ∧ s.ptState p ≠ 5) :=
  ⟨⟨.fn 0, 15, 0x7FFFFFFF, net, (by unfold Reaches; decide +kernel), (by decide +kernel)⟩,
   ⟨.fn 0, 15, 0x80000000, net, 1, (by unfold Reaches; decide +kernel), (by decide +kernel), (by decide +kernel)⟩,
   ⟨31, { net with gangDrain := [(15, 2 ^ 31, [31])] }, 15, 2 ^ 31, (by decide +kernel), (by decide +kernel), (by decide +kernel)⟩,
   ⟨.fn 0, 65535, rdy, (by unfold Reaches; decide +kernel), (by decide +kernel), (by decide +kernel)⟩,
   ⟨.fn 0, 65535, net, 31, (by unfold Reaches; decide +kernel), (by decide +kernel), (by decide +kernel)⟩,
   ⟨.fn 0, 65536, rdy, (by unfold Reaches; decide +kernel), (by decide +kernel)⟩,
   ⟨31, BitVec.ofNat 128 bcn, true, 150, net.putPort 31 { PortSt.reset with beacon := some (9, 3, 0) }, (by decide +kernel),
     (by decide +kernel), (by decide +kernel), (by decide +kernel), (by decide +kernel)⟩,
   ⟨31, BitVec.ofNat 128 (bcn + 2 ^ 48), true, 150, net, (by decide +kernel), (by decide +kernel)⟩,
   ⟨31, sets [(R.LAS_STAT_STATE 9, 3), (R.LAS_STAT_SERVES 9, 7)] net, (by decide +kernel), (by decide +kernel), (by decide +kernel),
     (by decide +kernel)⟩⟩

/-- States and operands that meet the hypotheses of `Obligations.StagingAndPlanning`, clause by clause. -/
theorem wit_StagingAndPlanning :
    (∃ (r : Requester) (off : Fin 2048) (data : List Byte) (s : State), data ≠ [] ∧ off.val % 4 + data.length ≤ 4 ∧ off.val + data.length
      ≤ 0x440 ∧ Reaches r (0x800000 + off.val / 4 * 4) s ∧ s.slcStatus ≠ 1) ∧
    (∃ (r : Requester) (off : Fin 2048) (data : List Byte) (s : State), data ≠ [] ∧ off.val % 4 + data.length ≤ 4 ∧ off.val + data.length
      ≤ 0x440 ∧ Reaches r (0x800000 + off.val / 4 * 4) s ∧ s.slcStatus = 1) ∧
    (∃ (r : Requester) (s : State), Reaches r 0x808000 s ∧ s.get R.HDG_CMD_STATUS ≠ 1 ∧ s.slcStatus ≠ 4 ∧ s.slcStatus ≠ 5) ∧
    (∃ (s : State) (es : List Nat) (cs : List Nat) (reason : _), s.slcStatus = 1 ∧ es = mapEntries s.stagedMap ∧ cs = mapEntries
      s.committedMap ∧ planChecks s.stagedMap es cs s = some reason) ∧
    (∃ (s : State) (es : List Nat) (cs : List Nat), s.slcStatus = 1 ∧ es = mapEntries s.stagedMap ∧ cs = mapEntries s.committedMap ∧
      planChecks s.stagedMap es cs s = none ∧ mapClash es = false ∧ ((makePlan s.stagedMap es cs s).coll.any fun k => entKeep (es.getD k
      0)) = false) ∧
    (∃ (s : State) (es : List Nat) (cs : List Nat), s.slcStatus = 1 ∧ es = mapEntries s.stagedMap ∧ cs = mapEntries s.committedMap ∧
      planChecks s.stagedMap es cs s = none ∧ mapClash es = true) ∧
    (∃ (r : Requester) (s : State) (p : SlcPlan), Reaches r 0x808000 s ∧ s.get R.HDG_CMD_STATUS ≠ 1 ∧ s.slcPlan = some p ∧ s.slcStatus = 2
      ∧ s.activeHdg ≠ none ∧ (∀ m : Fin 16, s.get (R.HUB_PERMIT_HOLDER (58 + m.val)) = 0) ∧ mapImmediate p.words = false ∧ timeDiff
      s.time64 (mapActTime p.words) < 0) ∧
    (∃ (r : Requester) (s : State), Reaches r 0x808000 s ∧ s.get R.HDG_CMD_STATUS ≠ 1 ∧ s.slcStatus = 4) ∧
    (∃ (r : Requester) (s : State), Reaches r 0x808000 s ∧ s.get R.HDG_CMD_STATUS ≠ 1 ∧ s.slcStatus = 5) ∧
    (∃ (r : Requester) (s : State), Reaches r 0x808000 s ∧ s.get R.HDG_CMD_STATUS ≠ 1 ∧ (s.slcStatus = 2 ∨ s.slcStatus = 3)) ∧
    (∃ (r : Requester) (s : State), Reaches r 0x808000 s ∧ s.get R.HDG_CMD_STATUS ≠ 1 ∧ s.slcPlan = none) :=
  ⟨⟨.fn 0, 0x43F, [0xA5], rdy, (by decide +kernel), (by decide +kernel), (by decide +kernel), (by unfold Reaches; decide +kernel),
     (by decide +kernel)⟩,
   ⟨.fn 0, 0, [1, 2, 3, 4], staged, (by decide +kernel), (by decide +kernel), (by decide +kernel), (by unfold Reaches; decide +kernel),
     (by decide +kernel)⟩,
   ⟨.fn 0, rdy, (by unfold Reaches; decide +kernel), (by decide +kernel), (by decide +kernel), (by decide +kernel)⟩,
   ⟨sets [(R.SLC_PLAN_STATUS, 1)] rdy, mapEntries (sets [(R.SLC_PLAN_STATUS, 1)] rdy).stagedMap, mapEntries (sets [(R.SLC_PLAN_STATUS, 1)]
     rdy).committedMap, 1, (by decide +kernel), rfl, rfl, (by decide +kernel)⟩,
   ⟨stagedNone, mapEntries stagedNone.stagedMap, mapEntries stagedNone.committedMap, (by decide +kernel), rfl, rfl, checks_none, (noClash
     (zeroEntries (by decide +kernel))), (noColl (zeroEntries (by decide +kernel)))⟩,
   ⟨stagedClash, mapEntries stagedClash.stagedMap, mapEntries stagedClash.committedMap, (by decide +kernel), rfl, rfl, checks_clash,
     clash_clash⟩,
   ⟨.hart 1023, { planned 2 with slcPlan := some { plan0 with words := mapW.set 4 100 } }, { plan0 with words := mapW.set 4 100 },
     (by unfold Reaches; decide +kernel), (by decide +kernel), (by decide +kernel), (by decide +kernel), (by decide +kernel),
     (by decide +kernel), (by decide +kernel), (by decide +kernel)⟩,
   ⟨.fn 0, sets [(R.HUB_PERMIT_HOLDER 58, 0x109), (R.HUB_PERMIT_HOLDER 79, 0x106)] (planned 4), (by unfold Reaches; decide +kernel),
     (by decide +kernel), (by decide +kernel)⟩,
   ⟨.fn 0, planned 5, (by unfold Reaches; decide +kernel), (by decide +kernel), (by decide +kernel)⟩,
   ⟨.fn 0, planned 3, (by unfold Reaches; decide +kernel), (by decide +kernel), (by decide +kernel)⟩,
   ⟨.fn 0, rdy, (by unfold Reaches; decide +kernel), (by decide +kernel), (by decide +kernel)⟩⟩

/-- States and operands that meet the hypotheses of `Obligations.Activation`, clause by clause. -/
theorem wit_Activation :
    (∃ (s : State) (p : SlcPlan), s.slcPlan = some p ∧ s.slcStatus = 4 ∧ s.activeHdg ≠ none ∧ s.actDue = false ∧ 0 ≤ timeDiff s.time64
      (mapActTime p.words) ∧ unitChecks (mapEntries p.words) s = none) ∧
    (∃ (s : State) (p : SlcPlan) (reason : _), s.slcPlan = some p ∧ s.slcStatus = 4 ∧ s.activeHdg ≠ none ∧ s.actDue = false ∧ 0 ≤ timeDiff
      s.time64 (mapActTime p.words) ∧ unitChecks (mapEntries p.words) s = some reason) ∧
    (∃ (s : State) (p : SlcPlan), s.slcPlan = some p ∧ s.slcStatus = 5 ∧ s.get R.SLC_MAPID_MAP_ID ≠ mapId p.words) ∧
    (∃ (s : State) (p : SlcPlan), s.slcPlan = some p ∧ s.slcStatus = 5 ∧ s.get R.SLC_MAPID_MAP_ID = mapId p.words) ∧
    (∃ (p : Port) (s : State), p.val ∈ s.relight ∧ s.slcStatus ≠ 5 ∧ s.ptState p = 4 ∧ s.mayTrain p = true) :=
  ⟨⟨planned 4, plan0, (by decide +kernel), (by decide +kernel), (by decide +kernel), (by decide +kernel), (by decide +kernel), units_mapW⟩,
   ⟨{ planned 4 with pairsOut := 1 }, plan0, 4, (by decide +kernel), (by decide +kernel), (by decide +kernel), (by decide +kernel),
     (by decide +kernel), units_mapW_pair⟩,
   ⟨planned 5, plan0, (by decide +kernel), (by decide +kernel), (by decide +kernel)⟩,
   ⟨{ sets [(R.SLC_MAPID_MAP_ID, 7), (R.HUB_PERMIT_HOLDER 58, 0x109)] (planned 5) with shuttered := [16, 511] }, plan0,
     (by decide +kernel), (by decide +kernel), (by decide +kernel)⟩,
   ⟨31, { net with relight := [30, 31] }, (by decide +kernel), (by decide +kernel), (by decide +kernel), (by decide +kernel)⟩⟩

/-- States and operands that meet the hypotheses of `Obligations.Headgates`, clause by clause. -/
theorem wit_Headgates :
    (∃ (r : Requester) (g : Nat) (o : Nat) (s : State), Reaches r 0x808000 s ∧ s.get R.HDG_CMD_STATUS ≠ 1 ∧ (g = 0 ∧ o = 1 ∨ g = 1 ∧ o =
      0) ∧ s.hdg g = 1 ∧ s.hdg o = 0 ∧ s.slcStatus ≠ 1 ∧ s.slcStatus ≠ 5 ∧ s.get (R.HUB_PERMIT_HOLDER 74) = 0) ∧
    (∃ (r : Requester) (g : Gate) (s : State), Reaches r 0x808000 s ∧ s.get R.HDG_CMD_STATUS ≠ 1 ∧ s.hdg g = 2 ∧ s.get
      (R.HUB_PERMIT_HOLDER 74) = 0) ∧
    (∃ (r : Requester) (g : Gate) (s : State), Reaches r 0x808000 s ∧ s.get R.HDG_CMD_STATUS ≠ 1 ∧ s.hdg g ≠ 2) ∧
    (∃ (g : Nat) (o : Nat) (s : State), (g = 0 ∧ o = 1 ∨ g = 1 ∧ o = 0) ∧ s.hdg g = 3 ∧ s.hdg o = 1) ∧
    (∃ (s : State), s.activeHdg ≠ none) ∧
    (∃ (s : State), s.activeHdg ≠ none) ∧
    (∃ (s : State), s.activeHdg = none) ∧
    (∃ (g : Nat) (o : Nat) (s : State) (self : Bool), (g = 0 ∧ o = 1 ∨ g = 1 ∧ o = 0) ∧ s.hdg g = 1 ∧ s.hdg o ≠ 1 ∧ s.slcStatus ≠ 4 ∧
      LogOpen s) ∧
    (∃ (s : State), (∀ m j : Nat, m < 16 → j < 208 → nbit (s.get R.HUB_PLANE_MAP_PLANE_IN_SERVICE) m = true → s.get (R.SLC_ELEM_SILL m j)
      = s.sillClass m j (s.get (R.SLC_ELEM_CODE m j))) ∧ s.sillPlanes.findSome? (fun m => (planeMismatch s (mapEntries s.committedMap)
      m).map fun j => (m, j)) = none) ∧
    (∃ (s : State) (m : Nat) (j : Nat), (∀ m j : Nat, m < 16 → j < 208 → nbit (s.get R.HUB_PLANE_MAP_PLANE_IN_SERVICE) m = true → s.get
      (R.SLC_ELEM_SILL m j) = s.sillClass m j (s.get (R.SLC_ELEM_CODE m j))) ∧ m < 16 ∧ j < 208 ∧ s.sillPlanes.findSome? (fun m =>
      (planeMismatch s (mapEntries s.committedMap) m).map fun j => (m, j)) = some (m, j) ∧ s.hdg 0 = 1 ∧ s.hdg 1 = 0 ∧ s.slcStatus ≠ 4) :=
  ⟨⟨.fn 0, 0, 1, rdy, (by unfold Reaches; decide +kernel), (by decide +kernel), (by decide +kernel), (by decide +kernel),
     (by decide +kernel), (by decide +kernel), (by decide +kernel), (by decide +kernel)⟩,
   ⟨.fn 0, 1, sets [(R.HDG_STAT_B_STATE, 2)] rdy, (by unfold Reaches; decide +kernel), (by decide +kernel), (by decide +kernel),
     (by decide +kernel)⟩,
   ⟨.fn 0, 1, rdy, (by unfold Reaches; decide +kernel), (by decide +kernel), (by decide +kernel)⟩,
   ⟨1, 0, sets [(R.HDG_STAT_B_STATE, 3), (R.HUB_PERMIT_HOLDER 74, 0x108)] rdy, (by decide +kernel), (by decide +kernel),
     (by decide +kernel)⟩,
   ⟨sets [(R.HDG_LEASE_RENEWALS, 65535)] rdy, (by decide +kernel)⟩,
   ⟨planned 5, (by decide +kernel)⟩,
   ⟨sets [(R.HDG_STAT_A_STATE, 2)] rdy, (by decide +kernel)⟩,
   ⟨0, 1, rdy, true, (by decide +kernel), (by decide +kernel), (by decide +kernel), (by decide +kernel),
     (by unfold LogOpen; decide +kernel)⟩,
   ⟨plane0, (silled0 rfl (by decide +kernel) (by decide +kernel)), (by decide +kernel)⟩,
   ⟨plane0x, 0, 144, (silled0 rfl (by decide +kernel) (by decide +kernel)), (by decide +kernel), (by decide +kernel), (by decide +kernel),
     (by decide +kernel), (by decide +kernel), (by decide +kernel)⟩⟩

/-- States and operands that meet the hypotheses of `Obligations.LaserFailures`, clause by clause. -/
theorem wit_LaserFailures :
    (∃ (j : Fin 8) (s : State), s.las j = 3 ∧ s.get (R.LAS_STAT_SERVES j) = j.val ∧ s.takeovers.find? (fun x => x.1 == j.val / 4) = none ∧
      (∀ e, e / 2 = j.val → (s.eng e).queue = [] ∧ (s.eng e).running = false) ∧ s.las (8 + j.val / 4) = 1) ∧
    (∃ (j : Fin 8) (s : State), s.las j = 3 ∧ s.get (R.LAS_STAT_SERVES j) = j.val ∧ s.takeovers.find? (fun x => x.1 == j.val / 4) = none ∧
      (∀ e, e / 2 = j.val → (s.eng e).queue = [] ∧ (s.eng e).running = false) ∧ s.las (8 + j.val / 4) ≠ 1) ∧
    (∃ (b : Bank) (s : State) (x : Takeover), s.takeovers.find? (fun x => x.1 == b.val) = some (b.val, x) ∧ x.litAt = none ∧ x.laser < 8 ∧
      (∀ e, e / 2 = x.laser → (s.eng e).queue = [] ∧ (s.eng e).running = false)) ∧
    (∃ (b : Bank) (s : State) (x : Takeover), s.takeovers.find? (fun x => x.1 == b.val) = some (b.val, x) ∧ x.litAt = none ∧ x.laser < 8 ∧
      (∀ e, e / 2 = x.laser → (s.eng e).queue = [] ∧ (s.eng e).running = false) ∧ s.feedLocked x.laser = false) ∧
    (∃ (b : Bank) (s : State) (x : Takeover), s.takeovers.find? (fun x => x.1 == b.val) = some (b.val, x) ∧ x.litAt = none ∧ x.laser < 8 ∧
      (∀ e, e / 2 = x.laser → (s.eng e).queue = [] ∧ (s.eng e).running = false) ∧ s.feedLocked x.laser = true ∧ x.planned = 0 ∧ LogOpen s) ∧
    (∃ (j : Laser) (f : Nat) (s : State), s.lasTarget.find? (fun x => x.1 == j.val) = some (j.val, f) ∧ f < 16 ∧ s.las j = 2) :=
  ⟨⟨7, lz 1, (by decide +kernel), (by decide +kernel), (by decide +kernel), (fun e _ => idle_eng (by decide +kernel) e),
     (by decide +kernel)⟩,
   ⟨7, lz 4, (by decide +kernel), (by decide +kernel), (by decide +kernel), (fun e _ => idle_eng (by decide +kernel) e),
     (by decide +kernel)⟩,
   ⟨1, { lz 2 with takeovers := [(1, ⟨7, 0, 0, none⟩)] }, ⟨7, 0, 0, none⟩, (by decide +kernel), (by decide +kernel), (by decide +kernel),
     (fun e _ => idle_eng (by decide +kernel) e)⟩,
   ⟨1, { lz 2 with takeovers := [(1, ⟨7, 0, 0, none⟩)] }, ⟨7, 0, 0, none⟩, (by decide +kernel), (by decide +kernel), (by decide +kernel),
     (fun e _ => idle_eng (by decide +kernel) e), (by decide +kernel)⟩,
   ⟨1,
     { sets [(R.HUB_ENG_MAP_ENG_OUT, 0xC000), (R.LNK_STAT_STATE 28, 5), (R.LNK_STAT_STATE 29, 5), (R.LNK_STAT_STATE 30, 5), (R.LNK_STAT_STATE 31, 5)] (lz 2) with ftime := 390625 * 2 ^ 32, takeovers := [(1, ⟨7, 0, 0, none⟩)] },
     ⟨7, 0, 0, none⟩, (by decide +kernel), (by decide +kernel), (by decide +kernel), (fun e _ => idle_eng (by decide +kernel) e),
     (by decide +kernel), (by decide +kernel), (by unfold LogOpen; decide +kernel)⟩,
   ⟨9, 15, { lz 2 with lasTarget := [(9, 15)] }, (by decide +kernel), (by decide +kernel), (by decide +kernel)⟩⟩

/-- States and operands that meet the hypotheses of `Obligations.LaserCommands`, clause by clause. -/
theorem wit_LaserCommands :
    (∃ (r : Requester) (j : Fin 8) (s : State), Reaches r 0x880040 s ∧ s.get R.LAS_CMD_STATUS ≠ 1 ∧ (∀ e, e / 2 = j.val → (s.eng e).queue
      = [] ∧ (s.eng e).running = false) ∧ s.las (8 + j.val / 4) = 1 ∧ s.las j = 3 ∧ s.get (R.LAS_STAT_SERVES j) = j.val ∧ (∀ k ∈
      swapPermits j, s.get (R.HUB_PERMIT_HOLDER k) = 0)) ∧
    (∃ (r : Requester) (j : Fin 8) (s : State), Reaches r 0x880040 s ∧ s.get R.LAS_CMD_STATUS ≠ 1 ∧ (∀ e, e / 2 = j.val → (s.eng e).queue
      = [] ∧ (s.eng e).running = false) ∧ s.las j = 1 ∧ s.las (8 + j.val / 4) = 3 ∧ s.get (R.LAS_STAT_SERVES (8 + j.val / 4)) = j.val ∧ (∀
      k ∈ swapPermits j, s.get (R.HUB_PERMIT_HOLDER k) = 0)) ∧
    (∃ (r : Requester) (j : Fin 8) (s : State), Reaches r 0x880040 s ∧ s.get R.LAS_CMD_STATUS ≠ 1 ∧ (∀ e, e / 2 = j.val → (s.eng e).queue
      = [] ∧ (s.eng e).running = false) ∧ (s.las j ≠ 3 ∨ (∃ k ∈ swapPermits j, s.get (R.HUB_PERMIT_HOLDER k) ≠ 0))) ∧
    (∃ (r : Requester) (b : Bank) (s : State), Reaches r 0x880040 s ∧ s.get R.LAS_CMD_STATUS ≠ 1 ∧ s.las (8 + b.val) = 1 ∧ s.get
      (R.HUB_PERMIT_HOLDER (56 + b.val)) = 0) ∧
    (∃ (b : Bank) (s : State), s.spareTesting b = true) ∧
    (∃ (r : Requester) (j : Laser) (s : State), Reaches r 0x890200 s ∧ s.get R.LPE_VERIFY_STATUS ≠ 1) :=
  ⟨⟨.fn 0, 7, lz 1, (by unfold Reaches; decide +kernel), (by decide +kernel), (fun e _ => idle_eng (by decide +kernel) e),
     (by decide +kernel), (by decide +kernel), (by decide +kernel), (by decide +kernel)⟩,
   ⟨.fn 0, 7, sets [(R.LAS_STAT_STATE 7, 1), (R.LAS_STAT_SERVES 9, 7)] (lz 3), (by unfold Reaches; decide +kernel), (by decide +kernel),
     (fun e _ => idle_eng (by decide +kernel) e), (by decide +kernel), (by decide +kernel), (by decide +kernel), (by decide +kernel)⟩,
   ⟨.fn 0, 7, sets [(R.HUB_PERMIT_HOLDER 31, 0x102)] (lz 1), (by unfold Reaches; decide +kernel), (by decide +kernel), (fun e _ =>
     idle_eng (by decide +kernel) e), (by decide +kernel)⟩,
   ⟨.fn 0, 1, lz 1, (by unfold Reaches; decide +kernel), (by decide +kernel), (by decide +kernel), (by decide +kernel)⟩,
   ⟨1, sets [(R.LAS_CMD_STATUS, 1), (R.HUB_PERMIT_HOLDER 57, 0x104)] (lz 2), (by decide +kernel)⟩,
   ⟨.fn 0, 9, lz 3, (by unfold Reaches; decide +kernel), (by decide +kernel)⟩⟩

/-- States and operands that meet the hypotheses of `Obligations.RingLoops`, clause by clause. -/
theorem wit_RingLoops :
    (∃ (r : Ring) (adc : BitVec 12) (refv : BitVec 12) (s : State) (l : Loop) (e : Int) (v : Int) (c : Coefs), l = s.loop (ringId r) ∧
      l.st = 2 ∧ l.apply = false ∧ s.bit (R.LPE_ENG_STOPPED (ringEngine (ringId r))) = false ∧ e = errSample (l.polarity (ringId r))
      adc.toNat (if ringClass (ringId r) = 5 then refv.toNat else l.setpoint) ∧ c = l.activeSet (ringId r) ∧ e.natAbs ≤ s.get
      (R.LPE_CLASS_LOSS_THR (ringClass (ringId r))) ∧ v = max (-32768) (min 32767 (divRne ((toSigned 16 c.b0 * (e * 8) + toSigned 16 c.b1
      * l.x.getD 0 0 + toSigned 16 c.b2 * l.x.getD 1 0 + toSigned 16 c.a1 * l.v.getD 0 0 + toSigned 16 c.a2 * l.v.getD 1 0 + (if c.form =
      1 then toSigned 16 c.b3 * l.x.getD 2 0 + toSigned 16 c.a3 * l.v.getD 2 0 else 0)) * 2 ^ c.shift) 32768)) ∧ -32768 < v ∧ v < 32767) ∧
    (∃ (r : Ring) (adc : BitVec 12) (refv : BitVec 12) (s : State) (l : Loop), l = s.loop (ringId r) ∧ l.st = 2 ∧ l.apply = false ∧
      l.verify = false ∧ s.bit (R.LPE_ENG_STOPPED (ringEngine (ringId r))) = false ∧ s.get (R.LPE_CLASS_LOSS_THR (ringClass (ringId r))) <
      (errSample (l.polarity (ringId r)) adc.toNat (if ringClass (ringId r) = 5 then refv.toNat else l.setpoint)).natAbs ∧ s.get
      (R.LPE_CLASS_LOSS_N (ringClass (ringId r))) ≤ l.overRun + 1 ∧ (∀ e, 32 + e = ringUser (ringId r) → (s.eng e).queue = [] ∧ (s.eng
      e).running = false)) ∧
    (∃ (r : Ring) (adc : BitVec 12) (refv : BitVec 12) (s : State) (l : Loop), l = s.loop (ringId r) ∧ l.st = 2 ∧ l.apply = false ∧ s.bit
      (R.LPE_ENG_STOPPED (ringEngine (ringId r))) = false) ∧
    (∃ (q : Requester) (r : Ring) (s : State), Reaches q (0x100000C + 32 * ringId r) s) ∧
    (∃ (r : Ring) (s : State), (s.loop (ringId r)).st = 5 ∧ (∀ e, 32 + e = ringUser (ringId r) → (s.eng e).queue = [] ∧ (s.eng e).running
      = false)) ∧
    (∃ (p : Port) (l : Line) (steps : BitVec 16) (s : State) (id : Nat), id = ringId (.link 3 p l) ∧ (s.loop id).st = 2) ∧
    (∃ (p : Port) (l : Line) (s : State) (id : Nat) (c : Nat), id = ringId (.link 3 p l) ∧ (s.loop id).st = 4 ∧ (s.loop id).saved = some
      c) ∧
    (∃ (n : Fin 8) (s : State), (∀ e, e / 2 = n.val → (s.eng e).queue = [] ∧ (s.eng e).running = false)) :=
  ⟨⟨rg, 2100, 2000, lps (lp 2), lp 2, 100, max (-32768) (min 32767 (divRne ((16384 * 800 + (-536) * 8 + 7 * (-8) + 8192 * 100 + (-1) * 200
     + (9 * 3 + 1 * 300)) * 2) 32768)),
     { b0 := 16384, b1 := 65000, b2 := 7, b3 := 9, a1 := 8192, a2 := 65535, a3 := 1, shift := 1, form := 1 }, (by decide +kernel),
     (by decide +kernel), (by decide +kernel), (by decide +kernel), (by decide +kernel), (by decide +kernel), (by decide +kernel),
     (by decide +kernel), (by decide +kernel), (by decide +kernel)⟩,
   ⟨rg, 4095, 0, lps { lp 2 with overRun := 65535 }, { lp 2 with overRun := 65535 }, (by decide +kernel), (by decide +kernel),
     (by decide +kernel), (by decide +kernel), (by decide +kernel), (by decide +kernel), (by decide +kernel), (fun e _ => idle_eng
     (by decide +kernel) e)⟩,
   ⟨rg, 0, 0, lps (lp 2), lp 2, (by decide +kernel), (by decide +kernel), (by decide +kernel), (by decide +kernel)⟩,
   ⟨.fn 0, rg, lps (lp 2), (by unfold Reaches; decide +kernel)⟩,
   ⟨rg, lps (lp 5), (by decide +kernel), (fun e _ => idle_eng (by decide +kernel) e)⟩,
   ⟨31, 15, 65535, { rdy with loops := [(3 * 65536 + 511, { lp 2 with code := 32768 })] }, 3 * 65536 + 511, (by decide +kernel),
     (by decide +kernel)⟩,
   ⟨31, 15, { rdy with loops := [(3 * 65536 + 511, { lp 4 with saved := some 77 })] }, 3 * 65536 + 511, 77, (by decide +kernel),
     (by decide +kernel), (by decide +kernel)⟩,
   ⟨7, lz 1, (fun e _ => idle_eng (by decide +kernel) e)⟩⟩

/-- States and operands that meet the hypotheses of `Obligations.Acquisition`, clause by clause. -/
theorem wit_Acquisition :
    (∃ (ch : Chain) (sw : List RingSweep) (s : State) (k : Nat) (id : Nat) (w : RingSweep) (x : Resonance), k < 16 ∧ (chainRings ch).getD
      k 0 = id ∧ (s.loop id).st = 1 ∧ (∀ i ∈ chainRings ch, i ≠ id → (s.loop i).st = 2) ∧ s.bit (R.LPE_ENG_STOPPED (ringEngine
      ((chainRings ch).headD 0))) = false ∧ sw[k]? = some w ∧ assigned k w = some x ∧ (s.loop id).shutter = none) ∧
    (∃ (ch : Chain) (sw : List RingSweep) (s : State) (k : Nat) (id : Nat), k < 16 ∧ (chainRings ch).getD k 0 = id ∧ (s.loop id).st = 1 ∧
      (∀ i ∈ chainRings ch, i ≠ id → (s.loop i).st = 2) ∧ s.bit (R.LPE_ENG_STOPPED (ringEngine ((chainRings ch).headD 0))) = false ∧ (∀ w,
      sw[k]? = some w → assigned k w = none) ∧ tget 0 s.ringFails id < 2) ∧
    (∃ (ch : Chain) (s : State), (∀ e, (s.eng e).queue = [] ∧ (s.eng e).running = false)) ∧
    (∃ (l : Line) (r : Ring) (d : Nat) (s : State), ringLine (ringId r) ≠ l.val ∧ 2000 ≤ d ∧ s.maybeScored (ringId r) = true ∧ s.farLight
      (ringId r) = false ∧ (s.loop (ringId r)).verify = false ∧ s.verifyLeft = 0 ∧ (∀ e, 32 + e = ringUser (ringId r) → (s.eng e).queue =
      [] ∧ (s.eng e).running = false)) ∧
    (∃ (l : Line) (s : State), 0 < s.verifyLeft) :=
  ⟨⟨.engWeight 15 63 3, List.replicate 16 sweep15, ch15, 15, ringId rg, sweep15, res15, (by decide +kernel), (by decide +kernel),
     (by decide +kernel), (by decide +kernel), (by decide +kernel), (by decide +kernel), (by decide +kernel), (by decide +kernel)⟩,
   ⟨.engWeight 15 63 3, [], { ch15 with ringFails := [(ringId rg, 1)] }, 15, ringId rg, (by decide +kernel), (by decide +kernel),
     (by decide +kernel), (by decide +kernel), (by decide +kernel), (by decide +kernel), (by decide +kernel)⟩,
   ⟨.engWeight 15 63 3,
     { sets [(R.PMX_STAT_STATE 15, 2)] rdy with loops := (chainRings (.engWeight 15 63 3)).map fun i => (i, { lp 2 with verify := true, wrong := true }) },
     (fun e => idle_eng (by decide +kernel) e)⟩,
   ⟨0, rg, 2000, lps (lp 2), (by decide +kernel), (by decide +kernel), (by decide +kernel), (by decide +kernel), (by decide +kernel),
     (by decide +kernel), (fun e _ => idle_eng (by decide +kernel) e)⟩,
   ⟨15, { rdy with verifyLeft := 1 }, (by decide +kernel)⟩⟩

/-- States and operands that meet the hypotheses of `Obligations.CalibrationRequests`, clause by clause. -/
theorem wit_CalibrationRequests :
    (∃ (r : Requester) (a : CalArg) (s : State) (u : Nat), Reaches r 0x8C0000 s ∧ s.get R.SCB_CMD_STATUS ≠ 1 ∧ u = s.get R.SCB_ARG_UNIT ∧
      u ≤ 73 ∧ s.scbState u = 0 ∧ scbAvail u s = true ∧ (u < 32 → s.termMask u = 0xFFFF) ∧ s.scbQueue.length < 16 ∧ (∀ k ∈ scbPermits u s,
      s.get (R.HUB_PERMIT_HOLDER k) = 0) ∧ s.bit R.SCB_ARG_TIMED = false) ∧
    (∃ (r : Requester) (a : CalArg) (s : State) (u : Nat), Reaches r 0x8C0000 s ∧ s.get R.SCB_CMD_STATUS ≠ 1 ∧ u = s.get R.SCB_ARG_UNIT ∧
      (73 < u ∨ s.scbState u ≠ 0)) ∧
    (∃ (r : Requester) (b : Byte) (s : State) (u : Nat) (q : ScbReq), Reaches r 0x8C0000 s ∧ s.get R.SCB_CMD_STATUS ≠ 1 ∧ u = s.get
      R.SCB_ARG_UNIT ∧ u ≤ 73 ∧ (∀ k ∈ q.res, k < 80) ∧ s.scbQueue = [q] ∧ q.unit = u) ∧
    (∃ (r : Requester) (b : Byte) (s : State) (u : Nat) (q : ScbReq), Reaches r 0x8C0000 s ∧ s.get R.SCB_CMD_STATUS ≠ 1 ∧ u = s.get
      R.SCB_ARG_UNIT ∧ u ≤ 73 ∧ (∀ k ∈ q.res, k < 80) ∧ s.scbQueue = [] ∧ s.scbRun = some q ∧ q.unit = u ∧ s.scbState u = 3) ∧
    (∃ (r : Requester) (b : Byte) (s : State) (u : Nat) (q : ScbReq), Reaches r 0x8C0000 s ∧ s.get R.SCB_CMD_STATUS ≠ 1 ∧ u = s.get
      R.SCB_ARG_UNIT ∧ u ≤ 73 ∧ (∀ k ∈ q.res, k < 80) ∧ s.scbQueue = [] ∧ s.scbRun = none) ∧
    (∃ (s : State) (q : ScbReq), s.scbRun = none ∧ s.scbQueue = [q] ∧ q.timed = false ∧ q.force = false ∧ q.unit ≤ 73) ∧
    (∃ (s : State) (q : ScbReq), s.scbRun = some q ∧ s.scbState q.unit = 2 ∧ q.force = false ∧ q.unit ≤ 73 ∧ (∀ k ∈ q.res, k < 80) ∧
      q.ready s = true ∧ s.scbQueue = [] ∧ ¬(48 ≤ q.unit ∧ q.unit < 58)) ∧
    (∃ (s : State) (q : ScbReq), s.scbRun = some q ∧ s.scbState q.unit = 2 ∧ q.force = false ∧ q.unit ≤ 73 ∧ (∀ k ∈ q.res, k < 80) ∧
      q.ready s = false) :=
  ⟨⟨.fn 0, ⟨0, 0⟩, sets [(R.SCB_ARG_UNIT, 73), (R.HUB_PLANE_MAP_PLANE_IN_SERVICE, 0x8000)] rdy, 73, (by unfold Reaches; decide +kernel),
     (by decide +kernel), (by decide +kernel), (by decide +kernel), (by decide +kernel), (by decide +kernel), (by decide +kernel),
     (by decide +kernel), (by decide +kernel), (by decide +kernel)⟩,
   ⟨.fn 0, ⟨0, 0⟩, sets [(R.SCB_ARG_UNIT, 74)] rdy, 74, (by unfold Reaches; decide +kernel), (by decide +kernel), (by decide +kernel),
     (by decide +kernel)⟩,
   ⟨.fn 0, 0,
     { sets [(R.SCB_ARG_UNIT, 73), (R.SCB_UNIT_STATE 73, 1), (R.HUB_PERMIT_HOLDER 73, 0x102)] rdy with scbQueue := [scb 73 [73]] }, 73,
     scb 73 [73], (by unfold Reaches; decide +kernel), (by decide +kernel), (by decide +kernel), (by decide +kernel), (by decide +kernel),
     (by decide +kernel), (by decide +kernel)⟩,
   ⟨.fn 0, 0,
     { sets [(R.SCB_ARG_UNIT, 73), (R.SCB_UNIT_STATE 73, 3), (R.HUB_PERMIT_HOLDER 73, 0x102)] rdy with scbRun := some (scb 73 [73]) }, 73,
     scb 73 [73], (by unfold Reaches; decide +kernel), (by decide +kernel), (by decide +kernel), (by decide +kernel), (by decide +kernel),
     (by decide +kernel), (by decide +kernel), (by decide +kernel), (by decide +kernel)⟩,
   ⟨.fn 0, 0, sets [(R.SCB_ARG_UNIT, 73)] rdy, 73, scb 73 [73], (by unfold Reaches; decide +kernel), (by decide +kernel),
     (by decide +kernel), (by decide +kernel), (by decide +kernel), (by decide +kernel), (by decide +kernel)⟩,
   ⟨{ en 2 { Machine.Eng.reset with queue := [tl 9 1] } with scbQueue := [scb 47 [47]] }, scb 47 [47], (by decide +kernel),
     (by decide +kernel), (by decide +kernel), (by decide +kernel), (by decide +kernel)⟩,
   ⟨{ sets [(R.SCB_UNIT_STATE 47, 2)] (en 2 { Machine.Eng.reset with queue := [tl 9 1], drain := some [] }) with scbRun := some (scb 47 [47]) },
     scb 47 [47], (by decide +kernel), (by decide +kernel), (by decide +kernel), (by decide +kernel), (by decide +kernel),
     (by decide +kernel), (by decide +kernel), (by decide +kernel)⟩,
   ⟨{ sets [(R.SCB_UNIT_STATE 47, 2), (R.HUB_PERMIT_HOLDER 47, 0x102)] (en 4 { Machine.Eng.reset with queue := [tl 9 1], running := true, drain := some [7] }) with scbRun := some (scb 47 [47]) },
     scb 47 [47], (by decide +kernel), (by decide +kernel), (by decide +kernel), (by decide +kernel), (by decide +kernel),
     (by decide +kernel)⟩⟩

/-- States and operands that meet the hypotheses of `Obligations.CalibrationResults`, clause by clause. -/
theorem wit_CalibrationResults :
    (∃ (m : CalMeasure) (stored : Bool) (s : State) (q : ScbReq) (cs : List CalCheck) (c : CalCheck) (v : Int), s.scbRun = some q ∧
      s.scbState q.unit = 3 ∧ q.unit ≤ 73 ∧ (∀ k ∈ q.res, k < 80) ∧ (∀ e, 32 + e = q.unit → (s.eng e).queue = [] ∧ (s.eng e).running =
      false) ∧ scbChecks q.unit m s = some cs ∧ cs.findSome? (fun c => c.bad.map fun v => (c, v)) = some (c, v)) ∧
    (∃ (m : CalMeasure) (stored : Bool) (s : State) (q : ScbReq) (cs : List CalCheck), s.scbRun = some q ∧ s.scbState q.unit = 3 ∧ q.unit
      ≤ 73 ∧ (∀ k ∈ q.res, k < 80) ∧ (∀ e, 32 + e = q.unit → (s.eng e).queue = [] ∧ (s.eng e).running = false) ∧ scbChecks q.unit m s =
      some cs ∧ cs.findSome? (fun c => c.bad.map fun v => (c, v)) = none ∧ ¬(32 ≤ q.unit ∧ q.unit < 48)) ∧
    (∃ (j : Laser) (r1 : Int) (r2 : Int) (pwr : Int) (temp : Int) (s : State) (q : ScbReq), s.scbRun = some q ∧ q.unit = 48 + j.val ∧
      s.scbState q.unit = 3 ∧ (r1 - r2).natAbs ≤ 800000 ∧ (r1 + r2 - 2 * s.small 0 j 0).natAbs ≤ 2400000 ∧ trising s.calSmall = true) ∧
    (∃ (e : Sys2Proof.Eng) (temp : Int) (s : State) (c : CalSet), (s.eng e).shadow = none ∧ (s.eng e).act = some c ∧ 128 ≤ (temp -
      c.temp256).natAbs) ∧
    (∃ (e : Sys2Proof.Eng) (temp : Int) (s : State) (c : CalSet), (s.eng e).shadow = none ∧ (s.eng e).act = some c ∧ (temp -
      c.temp256).natAbs < 128) :=
  ⟨⟨.plane [(0, 0, 399, 200)] 0, true, cal73, scb 73 [73], checkPlane 15 [(0, 0, 399, 200)] cal73, ⟨6, scbRejected, some 399⟩, 399,
     (by decide +kernel), (by decide +kernel), (by decide +kernel), (by decide +kernel), (fun e _ => idle_eng (by decide +kernel) e), rfl,
     (by decide +kernel)⟩,
   ⟨.plane [] 0, false, cal73, scb 73 [73], checkPlane 15 [] cal73, (by decide +kernel), (by decide +kernel), (by decide +kernel),
     (by decide +kernel), (fun e _ => idle_eng (by decide +kernel) e), rfl, (by decide +kernel), (by decide +kernel)⟩,
   ⟨9, 1000000, 200000, -5, 6400,
     { sets [(R.SCB_UNIT_STATE 57, 3)] rdy with scbRun := some (scb 57 [57]), calSmall := [(smallKey 0 9 0, -600000)] }, scb 57 [57],
     (by decide +kernel), (by decide +kernel), (by decide +kernel), (by decide +kernel), (by decide +kernel), (by decide +kernel)⟩,
   ⟨15, -128, en 2 { Machine.Eng.reset with act := some ⟨[], 31, 0⟩ }, ⟨[], 31, 0⟩, (by decide +kernel), (by decide +kernel),
     (by decide +kernel)⟩,
   ⟨15, -127, en 2 { Machine.Eng.reset with act := some ⟨[], 31, 0⟩ }, ⟨[], 31, 0⟩, (by decide +kernel), (by decide +kernel),
     (by decide +kernel)⟩⟩

/-- States and operands that meet the hypotheses of `Obligations.TimeExchanges`, clause by clause. -/
theorem wit_TimeExchanges :
    (∃ (p : Port) (b : TimeBody) (raw : BitVec 64) (s : State) (d : Nat), d = b.domain.val ∧ b.trn = false ∧ b.msg = 0 ∧ s.childOn d p =
      true ∧ b.gmPkg.toNat = s.get (R.FTM_DOM_GM_PKG d) ∧ s.get (R.FTM_DOM_STATE d) ≠ 3 ∧ (s.dom d).exch = []) ∧
    (∃ (p : Port) (b : TimeBody) (raw : BitVec 64) (s : State) (d : Nat) (e : Exch) (t3 : Nat) (t4 : Nat), d = b.domain.val ∧ b.trn =
      false ∧ b.msg = 0 ∧ s.childOn d p = true ∧ b.gmPkg.toNat = s.get (R.FTM_DOM_GM_PKG d) ∧ s.get (R.FTM_DOM_STATE d) ≠ 3 ∧ (s.dom
      d).exch = [e] ∧ (e.seq + 1) % 65536 = b.seqid.toNat ∧ e.gm = b.gmPkg.toNat ∧ e.t3 = some t3 ∧ e.t4 = some t4 ∧ (s.dom d).updated =
      false ∧ (s.dom d).good < 15 ∧ e.disturbed = false ∧ delayAgrees (exchSums b.stamp.toNat e.t2 t3 t4).1 (s.get (R.LNK_DELAY (s.get
      (R.FTM_DOM_PARENT d)))) = true) ∧
    (∃ (p : Port) (b : TimeBody) (raw : BitVec 64) (s : State) (d : Nat) (e : Exch) (t3 : Nat) (t4 : Nat), d = b.domain.val ∧ b.trn =
      false ∧ b.msg = 0 ∧ s.childOn d p = true ∧ b.gmPkg.toNat = s.get (R.FTM_DOM_GM_PKG d) ∧ s.get (R.FTM_DOM_STATE d) ≠ 3 ∧ (s.dom
      d).exch = [e] ∧ (e.seq + 1) % 65536 = b.seqid.toNat ∧ e.gm = b.gmPkg.toNat ∧ e.t3 = some t3 ∧ e.t4 = some t4 ∧ (s.dom d).updated =
      false ∧ (s.dom d).good < 15 ∧ e.disturbed = true) ∧
    (∃ (p : Port) (b : TimeBody) (raw : BitVec 64) (s : State) (d : Nat), d = b.domain.val ∧ b.trn = false ∧ b.msg = 0 ∧ s.childOn d p =
      true ∧ b.gmPkg.toNat ≠ s.get (R.FTM_DOM_GM_PKG d) ∧ (s.dom d).exch = []) ∧
    (∃ (d : Domain) (s : State), s.bit (R.FTM_DOM_EN d) = true ∧ s.bit (R.FTM_DOM_GM d) = true) ∧
    (∃ (p : Port) (b : TimeBody) (raw : BitVec 64) (s : State) (d : Nat), d = b.domain.val ∧ b.trn = false ∧ b.msg = 1 ∧ s.bit
      (R.FTM_DOM_EN d) = true ∧ nbit (s.get (R.FTM_DOM_DOWN_PORTS d)) p = true ∧ s.portUp p = true) ∧
    (∃ (d : Domain) (raw : BitVec 64) (s : State) (e : Exch), (s.dom d).exch = [e] ∧ e.t3 = none ∧ e.seq < 65536 ∧ s.childOn d (s.get
      (R.FTM_DOM_PARENT d)) = true) ∧
    (∃ (p : Port) (b : TimeBody) (s : State) (d : Nat) (e : Exch) (t3 : Nat), d = b.domain.val ∧ b.trn = false ∧ b.msg = 2 ∧ s.childOn d p
      = true ∧ (s.dom d).exch = [e] ∧ e.seq = b.seqid.toNat ∧ e.t3 = some t3 ∧ e.t1 = none ∧ b.gmPkg.toNat = s.get (R.FTM_DOM_GM_PKG d)) ∧
    (∃ (p : Port) (b : TimeBody) (s : State) (d : Nat) (e : Exch) (t3 : Nat), d = b.domain.val ∧ b.trn = false ∧ b.msg = 2 ∧ s.childOn d p
      = true ∧ (s.dom d).exch = [e] ∧ e.seq = b.seqid.toNat ∧ e.t3 = some t3 ∧ e.t1 = none ∧ b.gmPkg.toNat ≠ s.get (R.FTM_DOM_GM_PKG d)) :=
  ⟨⟨31, tbd 0 0 9 7, 1000, dm 1 dom0, 1, (by decide +kernel), (by decide +kernel), (by decide +kernel), (by decide +kernel),
     (by decide +kernel), (by decide +kernel), (by decide +kernel)⟩,
   ⟨31, tbd 0 0 9 1000, 9000, dm 1 { dom0 with exch := [ex (some 2000) (some 2004) false] }, 1, ex (some 2000) (some 2004) false, 2000,
     2004, (by decide +kernel), (by decide +kernel), (by decide +kernel), (by decide +kernel), (by decide +kernel), (by decide +kernel),
     (by decide +kernel), (by decide +kernel), (by decide +kernel), (by decide +kernel), (by decide +kernel), (by decide +kernel),
     (by decide +kernel), (by decide +kernel), (by decide +kernel)⟩,
   ⟨31, tbd 0 0 9 1000, 9000, dm 1 { dom0 with exch := [ex (some 2000) (some 2004) true] }, 1, ex (some 2000) (some 2004) true, 2000,
     2004, (by decide +kernel), (by decide +kernel), (by decide +kernel), (by decide +kernel), (by decide +kernel), (by decide +kernel),
     (by decide +kernel), (by decide +kernel), (by decide +kernel), (by decide +kernel), (by decide +kernel), (by decide +kernel),
     (by decide +kernel), (by decide +kernel)⟩,
   ⟨31, tbd 0 0 8 1000, 9000, dm 2 { dom0 with good := 14, updated := true }, 1, (by decide +kernel), (by decide +kernel),
     (by decide +kernel), (by decide +kernel), (by decide +kernel), (by decide +kernel)⟩,
   ⟨1, sets [(R.FTM_DOM_EN 1, 1), (R.FTM_DOM_GM 1, 1), (R.FTM_DOM_DOWN_PORTS 1, 0xC0000000)] (net.putDom 1 dom0), (by decide +kernel),
     (by decide +kernel)⟩,
   ⟨31, tbd 1 9 9 1000, 9000, sets [(R.FTM_DOM_EN 1, 1), (R.FTM_DOM_DOWN_PORTS 1, 0xC0000000)] net, 1, (by decide +kernel),
     (by decide +kernel), (by decide +kernel), (by decide +kernel), (by decide +kernel), (by decide +kernel)⟩,
   ⟨1, 9000, dm 1 { dom0 with exch := [ex none none false] }, ex none none false, (by decide +kernel), (by decide +kernel),
     (by decide +kernel), (by decide +kernel)⟩,
   ⟨31, tbd 2 65535 9 2004, dm 1 { dom0 with exch := [ex (some 2000) none false] }, 1, ex (some 2000) none false, 2000,
     (by decide +kernel), (by decide +kernel), (by decide +kernel), (by decide +kernel), (by decide +kernel), (by decide +kernel),
     (by decide +kernel), (by decide +kernel), (by decide +kernel)⟩,
   ⟨31, tbd 2 65535 8 2004, dm 1 { dom0 with exch := [ex (some 2000) none false] }, 1, ex (some 2000) none false, 2000,
     (by decide +kernel), (by decide +kernel), (by decide +kernel), (by decide +kernel), (by decide +kernel), (by decide +kernel),
     (by decide +kernel), (by decide +kernel), (by decide +kernel)⟩⟩

/-- States and operands that meet the hypotheses of `Obligations.TimeOutput`, clause by clause. -/
theorem wit_TimeOutput :
    (∃ (d : Domain) (s : State), s.domLocked d = true ∧ s.bit (R.FTM_DOM_GM d) = false ∧ s.slcPlan = none) ∧
    (∃ (s : State) (p : Nat), p = s.get R.FTM_CFG_PRIMARY ∧ s.domLocked p = true ∧ s.get R.FTM_STAT_STATE = 1 ∧ s.get R.FTM_STAT_FOLLOWING
      ≠ p ∧ withinNs (s.domOffset p) 20 = true ∧ s.slcPlan = none) ∧
    (∃ (s : State) (d : Nat), d = s.get R.FTM_STAT_FOLLOWING ∧ s.get R.FTM_STAT_STATE = 2 ∧ s.bit (R.FTM_DOM_GM d) = false ∧ s.get
      (R.FTM_DOM_STATE d) ≠ 0) ∧
    (∃ (r : Requester) (d : Domain) (v : BitVec 32) (s : State), Reaches r (0x900100 + 0x40 * d.val) s ∧ v.toNat < 128 ∧ s.slcPlan = none) ∧
    (∃ (r : Requester) (d : Domain) (v : BitVec 32) (s : State), Reaches r (0x900100 + 0x40 * d.val) s ∧ 128 ≤ v.toNat) ∧
    (∃ (r : Requester) (s : State), Reaches r 0x90000C s ∧ s.get R.FTM_CMD_STATUS ≠ 1 ∧ s.domLocked 0 = false ∧ s.domLocked 1 = false ∧
      s.slcPlan = none) ∧
    (∃ (r : Requester) (s : State), Reaches r 0x90000C s ∧ s.get R.FTM_CMD_STATUS ≠ 1 ∧ s.domLocked 0 = false ∧ s.domLocked 1 = false ∧
      s.slcPlan = none) ∧
    (∃ (s : State), s.bit R.FTM_CFG_PPS_IN_EN = true) ∧
    (∃ (s : State), s.bit R.FTM_CFG_PPS_IN_EN = false) :=
  ⟨⟨1, dm 2 dom0, (by decide +kernel), (by decide +kernel), (by decide +kernel)⟩,
   ⟨sets [(R.FTM_CFG_PRIMARY, 1), (R.FTM_STAT_STATE, 1)] (dm 2 dom0), 1, (by decide +kernel), (by decide +kernel), (by decide +kernel),
     (by decide +kernel), (by decide +kernel), (by decide +kernel)⟩,
   ⟨sets [(R.FTM_DOM_STATE 0, 2), (R.FTM_STAT_STATE, 2)] rdy, 0, (by decide +kernel), (by decide +kernel), (by decide +kernel),
     (by decide +kernel)⟩,
   ⟨.fn 0, 1, 127, dm 2 dom0, (by unfold Reaches; decide +kernel), (by decide +kernel), (by decide +kernel)⟩,
   ⟨.fn 0, 1, 128, rdy, (by unfold Reaches; decide +kernel), (by decide +kernel)⟩,
   ⟨.fn 0, sets [(R.FTM_SETVAL_VALUE, 2 ^ 64 - 1)] rdy, (by unfold Reaches; decide +kernel), (by decide +kernel), (by decide +kernel),
     (by decide +kernel), (by decide +kernel)⟩,
   ⟨.fn 0, { sets [(R.FTM_SETVAL_VALUE, 2 ^ 64 - 1)] rdy with ftime := 390625 * 5 + 3 }, (by unfold Reaches; decide +kernel),
     (by decide +kernel), (by decide +kernel), (by decide +kernel), (by decide +kernel)⟩,
   ⟨{ sets [(R.FTM_CFG_PPS_IN_EN, 1)] rdy with ftime := 390625 * (2 ^ 32 * 5 - 50), ppsGood := 3 }, (by decide +kernel)⟩,
   ⟨rdy, (by decide +kernel)⟩⟩

/-- States and operands that meet the hypotheses of `Obligations.HostFunctions`, clause by clause. -/
theorem wit_HostFunctions :
    (∃ (s : State), s.powered = true ∧ s.tripped = false ∧ s.packageResetting = false ∧ s.computeResetting = false) ∧
    (∃ (g : Fin 7) (w : Fin 17) (s : State), s.powered = true ∧ s.tripped = false ∧ s.perst = false ∧ 1 ≤ s.get R.HUB_BOOT_STEP ∧ g ≠ 0 ∧
      w ≠ 0 ∧ 4 ≤ g.val ∧ 4 ≤ w.val) ∧
    (∃ (g : Fin 7) (w : Fin 17) (s : State), s.powered = true ∧ s.tripped = false ∧ s.perst = false ∧ 1 ≤ s.get R.HUB_BOOT_STEP ∧ g ≠ 0 ∧
      w ≠ 0 ∧ (g.val < 4 ∨ w.val < 4)) ∧
    (∃ (f : Fn) (s : State) (d : Bool), s.configured f = true) ∧
    (∃ (f : Fn) (s : State) (w : CfgWrite) (c : FnCfg), s.configured f = true ∧ ((∃ on, w = .busMaster on ∧ c =
      { s.cfg f with busMaster := on }) ∨ (∃ en m, w = .msixControl en m ∧ c = { s.cfg f with msixEnable := en, msixFnMask := m }))) ∧
    (∃ (f : Fn) (s : State) (n : Fin 17), s.configured f = true ∧ f ≠ 0) ∧
    (∃ (f : Fn) (s : State) (n : Fin 17), s.configured f = true ∧ f = 0 ∧ s.vfEnable = false) ∧
    (∃ (f : Fn) (s : State) (n : Fin 17), s.configured f = true ∧ f = 0) ∧
    (∃ (f : Fn) (w : CfgWrite) (s : State), s.configured f = false) :=
  ⟨⟨host, (by decide +kernel), (by decide +kernel), (by decide +kernel), (by decide +kernel)⟩,
   ⟨4, 4, rdy, (by decide +kernel), (by decide +kernel), (by decide +kernel), (by decide +kernel), (by decide +kernel),
     (by decide +kernel), (by decide +kernel), (by decide +kernel)⟩,
   ⟨3, 16, rdy, (by decide +kernel), (by decide +kernel), (by decide +kernel), (by decide +kernel), (by decide +kernel),
     (by decide +kernel), (by decide +kernel)⟩,
   ⟨16, host, true, (by decide +kernel)⟩,
   ⟨0, { sets [(R.MSIX_PBA_PENDING 0, 0x203)] host with fnCfg := [(0, ⟨false, true, true, true⟩)] }, .msixControl true false, ⟨false,
     true, true, false⟩, (by decide +kernel), (by decide +kernel)⟩,
   ⟨16, host, 3, (by decide +kernel), (by decide +kernel)⟩,
   ⟨0, { host with vfEnable := false }, 16, (by decide +kernel), (by decide +kernel), (by decide +kernel)⟩,
   ⟨0, host, 0, (by decide +kernel), (by decide +kernel)⟩,
   ⟨16, .busMaster true, rdy, (by decide +kernel)⟩⟩

/-- States and operands that meet the hypotheses of `Obligations.MailboxRequests`, clause by clause. -/
theorem wit_MailboxRequests :
    (∃ (f : Fn) (h : MbxHdr) (s : State) (e : OdEnt) (a : Nat) (i : Nat), a = h.area.toNat ∧ i = h.index.toNat ∧ MbxTakes f 1 a i s ∧
      odEntry a i = some e ∧ e.acc ≠ .wo ∧ e.acc ≠ .cmd ∧ a ≠ 3 ∧ ¬(a = 6 ∧ i = 0x10) ∧ (f = 0 ∨ a ≠ 1 ∧ a ≠ 4) ∧ h.offset.toNat ≤ e.size
      ∧ h.length.toNat ≤ 240) ∧
    (∃ (f : Fn) (h : MbxHdr) (s : State), MbxTakes f 1 h.area.toNat h.index.toNat s ∧ odEntry h.area.toNat h.index.toNat = none) ∧
    (∃ (f : Fn) (h : MbxHdr) (s : State), musServed (.mbx f h.tag) 1 h.area.toNat h.index.toNat s = true ∧ Reaches (.fn f) (0x10000000 *
      f.val + 0x1000) s ∧ s.get (R.HUB_MBX_CMD_STATUS f) = 1) ∧
    (∃ (h : MbxHdr) (data : List Byte) (s : State) (i : Nat) (v : Nat), i = h.index.toNat ∧ v = leNat data ∧ h.area = 1 ∧ (i = 3 ∧
      data.length = 2 ∨ (i = 0x10 ∨ i = 0x20 ∨ i = 0x21 ∨ i = 1 ∧ v < 128) ∧ data.length = 1 ∨ i = 0x40 ∧ data.length = 4 ∧ v < 4096) ∧
      h.offset = 0 ∧ h.length.toNat = data.length ∧ MbxTakes 0 2 1 i s ∧ s.get (R.HUB_PERMIT_HOLDER 77) = 0 ∧ s.nvmDead = false) ∧
    (∃ (h : MbxHdr) (data : List Byte) (s : State) (i : Nat) (v : Nat), i = h.index.toNat ∧ v = leNat data ∧ h.area = 1 ∧ (i = 3 ∧
      data.length = 2 ∨ (i = 0x10 ∨ i = 0x20 ∨ i = 0x21 ∨ i = 1 ∧ v < 128) ∧ data.length = 1 ∨ i = 0x40 ∧ data.length = 4 ∧ v < 4096) ∧
      h.offset = 0 ∧ h.length.toNat = data.length ∧ MbxTakes 0 2 1 i s ∧ s.get (R.HUB_PERMIT_HOLDER 77) = 0 ∧ s.nvmDead = true) ∧
    (∃ (h : MbxHdr) (data : List Byte) (s : State) (i : Nat) (v : Nat) (g : _), i = h.index.toNat ∧ v = leNat data ∧ h.area = 1 ∧ (i = 3 ∧
      data.length = 2 ∨ (i = 0x10 ∨ i = 0x20 ∨ i = 0x21 ∨ i = 1 ∧ v < 128) ∧ data.length = 1 ∨ i = 0x40 ∧ data.length = 4 ∧ v < 4096) ∧
      h.offset = 0 ∧ h.length.toNat = data.length ∧ MbxTakes 0 2 1 i s ∧ s.get (R.HUB_PERMIT_HOLDER 77) = g ∧ g ≠ 0 ∧ g / 256 ≠ 1) ∧
    (∃ (h : MbxHdr) (s : State) (e : OdEnt) (a : Nat) (i : Nat), a = h.area.toNat ∧ i = h.index.toNat ∧ MbxTakes 0 4 a i s ∧ odEntry a i =
      some e) ∧
    (∃ (f : Fn) (h : MbxHdr) (s : State) (a : Nat) (i : Nat) (b : Nat) (j : Nat), a = h.area.toNat ∧ i = h.index.toNat ∧ MbxTakes f 5 a i
      s ∧ (odEntry b j).isSome = true ∧ (a < b ∨ a = b ∧ i < j) ∧ (∀ c k : Nat, (odEntry c k).isSome = true → (a < c ∨ a = c ∧ i < k) → b
      < c ∨ b = c ∧ j ≤ k)) ∧
    (∃ (f : Fn) (h : MbxHdr) (s : State) (a : Nat) (i : Nat), a = h.area.toNat ∧ i = h.index.toNat ∧ MbxTakes f 5 a i s ∧ (∀ c k : Nat,
      (odEntry c k).isSome = true → c < a ∨ c = a ∧ k ≤ i)) ∧
    (∃ (f : Fn) (s : State), s.get (R.HUB_MBX_CMD_STATUS f) = 1 ∧ (s.cfg f).msixEnable = true ∧ (s.cfg f).busMaster = true) ∧
    (∃ (f : Fn) (s : State), s.get (R.HUB_MBX_CMD_STATUS f) ≠ 1) ∧
    (∃ (tag : BitVec 16) (mask : BitVec 80) (force : Bool) (s : State), MbxFree tag 4 0x10 s ∧ (∀ r, r < 80 → nbit mask.toNat r = true → r
      < 78 ∧ s.get (R.HUB_PERMIT_HOLDER r) = 0)) ∧
    (∃ (tag : BitVec 16) (mask : BitVec 80) (force : Bool) (s : State) (r : _) (g : _), MbxFree tag 4 0x10 s ∧ r < 80 ∧ nbit mask.toNat r
      = true ∧ s.get (R.HUB_PERMIT_HOLDER r) = g ∧ g ≠ 0 ∧ (∀ k, k < r → nbit mask.toNat k = true → s.get (R.HUB_PERMIT_HOLDER k) = 0)) ∧
    (∃ (tag : BitVec 16) (mask : BitVec 80) (force : Bool) (s : State), MbxFree tag 4 0x11 s) ∧
    (∃ (tag : BitVec 16) (mask : BitVec 80) (force : Bool) (s : State) (n : Fin 16), MbxTakes n.succ 3 4 0x10 s) ∧
    (∃ (tag : BitVec 16) (s : State) (v : Nat), MbxFree tag 4 0xF0 s ∧ Reaches (.hart 0) 0x600400 s) ∧
    (∃ (tag : BitVec 16) (s : State) (v : Nat), MbxFree tag 4 0xF1 s ∧ Reaches (.hart 0) 0x600400 s ∧ v < 2 ^ 32 ∧ nfld v 17 3 = 0 ∧ nfld
      v 24 8 = 0) ∧
    (∃ (tag : BitVec 16) (s : State) (v : Nat), MbxFree tag 4 0xF1 s) :=
  ⟨⟨16, ⟨2, 0x20, 319, 240, 7⟩, host, odBlob 0 320, 2, 0x20, (by decide +kernel), (by decide +kernel),
     (by unfold MbxTakes Reaches; decide +kernel), (by decide +kernel), (by decide +kernel), (by decide +kernel), (by decide +kernel),
     (by decide +kernel), (by decide +kernel), (by decide +kernel), (by decide +kernel)⟩,
   ⟨16, ⟨7, 0, 0, 0, 7⟩, host, (by unfold MbxTakes Reaches; decide +kernel), (by decide +kernel)⟩,
   ⟨16, ⟨7, 0, 0, 0, 7⟩, sets [(R.HUB_MBX_CMD_STATUS 16, 1)] host, (by decide +kernel), (by unfold Reaches; decide +kernel),
     (by decide +kernel)⟩,
   ⟨⟨1, 0x40, 0, 4, 7⟩, leBytes 4 4095, host, 0x40, 4095, (by decide +kernel), (by decide +kernel), (by decide +kernel),
     (by decide +kernel), (by decide +kernel), (by decide +kernel), (by unfold MbxTakes Reaches; decide +kernel), (by decide +kernel),
     (by decide +kernel)⟩,
   ⟨⟨1, 3, 0, 2, 7⟩, leBytes 2 65535, { host with deadDies := [99] }, 3, 65535, (by decide +kernel), (by decide +kernel),
     (by decide +kernel), (by decide +kernel), (by decide +kernel), (by decide +kernel), (by unfold MbxTakes Reaches; decide +kernel),
     (by decide +kernel), (by decide +kernel)⟩,
   ⟨⟨1, 1, 0, 1, 7⟩, [127], sets [(R.HUB_PERMIT_HOLDER 77, 0x205)] host, 1, 127, 0x205, (by decide +kernel), (by decide +kernel),
     (by decide +kernel), (by decide +kernel), (by decide +kernel), (by decide +kernel), (by unfold MbxTakes Reaches; decide +kernel),
     (by decide +kernel), (by decide +kernel), (by decide +kernel)⟩,
   ⟨⟨1, 0x21, 0, 0, 7⟩, host, odSetting 0 2 0 unitGib, 1, 0x21, (by decide +kernel), (by decide +kernel),
     (by unfold MbxTakes Reaches; decide +kernel), (by decide +kernel)⟩,
   ⟨16, ⟨1, 0x40, 0, 0, 7⟩, host, 1, 0x40, 1, 0x50, (by decide +kernel), (by decide +kernel),
     (by unfold MbxTakes Reaches; decide +kernel), (by decide +kernel), (by decide +kernel),
     (by intro c k h hc; by_cases h1 : 1 < c; exact .inl h1; obtain ⟨rfl, hk⟩ : 1 = c ∧ 0x40 < k := (by omega); have := od_mem h; simp [odArea, odArea1] at this; omega)⟩,
   ⟨16, ⟨6, 0x20, 0, 0, 7⟩, host, 6, 0x20, (by decide +kernel), (by decide +kernel), (by unfold MbxTakes Reaches; decide +kernel),
     (by intro c k h; have ha := od_area h; by_cases h6 : c < 6; exact .inl h6; obtain rfl : c = 6 := (by omega); have := od_mem h; simp [odArea, odArea6] at this; omega)⟩,
   ⟨0, sets [(R.HUB_MBX_CMD_STATUS 0, 1)] host, (by decide +kernel), (by decide +kernel), (by decide +kernel)⟩,
   ⟨16, host, (by decide +kernel)⟩,
   ⟨7, BitVec.ofNat 80 (2 ^ 77 + 1), false, host, (by unfold MbxFree Reaches; decide +kernel), (by decide +kernel)⟩,
   ⟨7, BitVec.ofNat 80 (2 ^ 79 + 2 ^ 77 + 1), false, sets [(R.HUB_PERMIT_HOLDER 77, 0x205)] host, 77, 0x205,
     (by unfold MbxFree Reaches; decide +kernel), (by decide +kernel), (by decide +kernel), (by decide +kernel), (by decide +kernel),
     (by decide +kernel)⟩,
   ⟨7, BitVec.ofNat 80 (2 ^ 80 - 1), true, sets [(R.HUB_PERMIT_HOLDER 77, 0x205), (R.HUB_PERMIT_HOLDER 79, 0x201)] host,
     (by unfold MbxFree Reaches; decide +kernel)⟩,
   ⟨7, 1, false, host, 15, (by unfold MbxTakes Reaches; decide +kernel)⟩,
   ⟨7, sets [(R.PEG_BLKARG_FIRST, 255), (R.PEG_BLKARG_TENANT, 15)] host, 0, (by unfold MbxFree Reaches; decide +kernel),
     (by unfold Reaches; decide +kernel)⟩,
   ⟨7, host, 0xF001FF, (by unfold MbxFree Reaches; decide +kernel), (by unfold Reaches; decide +kernel), (by decide +kernel),
     (by decide +kernel), (by decide +kernel)⟩,
   ⟨7, host, 0xF001FF, (by unfold MbxFree Reaches; decide +kernel)⟩⟩

/-- States and operands that meet the hypotheses of `Obligations.CanTransactions`, clause by clause. -/
theorem wit_CanTransactions :
    (∃ (d : List Byte) (s : State) (x : CanTxn) (txn : Nat) (op : Nat), CanOn s ∧ 8 ≤ d.length ∧ txn = reqFld (padTo 64 d) 1 1 ∧ op =
      reqFld (padTo 64 d) 2 1 ∧ s.can.txn = some x ∧ x.txn ≠ txn) ∧
    (∃ (d : List Byte) (s : State) (e : OdEnt) (txn : Nat) (a : Nat) (i : Nat) (len : Nat), CanOn s ∧ 8 ≤ d.length ∧ txn = reqFld (padTo
      64 d) 1 1 ∧ reqFld (padTo 64 d) 2 1 = 1 ∧ a = reqFld (padTo 64 d) 3 1 ∧ i = reqFld (padTo 64 d) 4 2 ∧ reqFld (padTo 64 d) 8 4 = 0 ∧
      len = reqFld (padTo 64 d) 12 4 ∧ s.can.txn = none ∧ a ≤ 1 ∧ odEntry a i = some e ∧ e.size ≤ len ∧ len ≤ 4096 ∧ musServed (.can 0) 1
      a i s = true) ∧
    (∃ (d : List Byte) (s : State) (len : Nat), CanOn s ∧ 8 ≤ d.length ∧ reqFld (padTo 64 d) 2 1 = 2 ∧ len = reqFld (padTo 64 d) 12 4 ∧ 48
      < len ∧ len ≤ 4096 ∧ s.can.txn = none) ∧
    (∃ (d : List Byte) (s : State) (x : CanTxn), CanOn s ∧ 8 ≤ d.length ∧ s.can.txn = some x ∧ x.answered = false ∧ x.txn = reqFld (padTo
      64 d) 1 1 ∧ x.nextSeg = reqFld (padTo 64 d) 2 2 ∧ x.data.length + 60 < x.length) ∧
    (∃ (d : List Byte) (s : State) (x : CanTxn), CanOn s ∧ 8 ≤ d.length ∧ s.can.txn = some x ∧ x.answered = false ∧ x.txn = reqFld (padTo
      64 d) 1 1 ∧ x.nextSeg = reqFld (padTo 64 d) 2 2 ∧ 48 < x.length ∧ x.length ≤ x.data.length + 60 ∧ x.length ≤ 4096 ∧ x.op = 2 ∧
      x.area = 1 ∧ (odEntry 1 x.index).isSome = true ∧ musServed (.can 0) 2 1 x.index s = true) ∧
    (∃ (d : List Byte) (s : State) (x : CanTxn), CanOn s ∧ 8 ≤ d.length ∧ s.can.txn = some x ∧ x.answered = false ∧ (x.txn ≠ reqFld (padTo
      64 d) 1 1 ∨ x.nextSeg ≠ reqFld (padTo 64 d) 2 2)) ∧
    (∃ (txn : Byte) (why : Byte) (s : State) (x : CanTxn), CanOn s ∧ s.can.txn = some x ∧ x.txn = txn.toNat) ∧
    (∃ (txn : Byte) (why : Byte) (s : State) (x : CanTxn), CanOn s ∧ s.can.txn = some x ∧ x.txn ≠ txn.toNat) ∧
    (∃ (txn : Byte) (why : Byte) (s : State) (x : CanTxn), CanOn s ∧ s.can.txn = some x) :=
  ⟨⟨creq 0 8 1 1 3 0 2, canAt (some (ctx1 100)) [], ctx1 100, 8, 1, (by unfold CanOn; decide +kernel), (by decide +kernel),
     (by decide +kernel), (by decide +kernel), (by decide +kernel), (by decide +kernel)⟩,
   ⟨creq 0 8 1 1 0x40 0 4096, canAt none [], odSetting 2 1 0xFFE, 8, 1, 0x40, 4096, (by unfold CanOn; decide +kernel),
     (by decide +kernel), (by decide +kernel), (by decide +kernel), (by decide +kernel), (by decide +kernel), (by decide +kernel),
     (by decide +kernel), (by decide +kernel), (by decide +kernel), (by decide +kernel), (by decide +kernel), (by decide +kernel),
     (by decide +kernel)⟩,
   ⟨creq 0 8 2 1 3 0 49, canAt none [], 49, (by unfold CanOn; decide +kernel), (by decide +kernel), (by decide +kernel),
     (by decide +kernel), (by decide +kernel), (by decide +kernel), (by decide +kernel)⟩,
   ⟨leBytes 1 1 ++ leBytes 1 9 ++ leBytes 2 1 ++ List.replicate 60 7, canAt (some (ctx1 109)) [], ctx1 109,
     (by unfold CanOn; decide +kernel), (by decide +kernel), (by decide +kernel), (by decide +kernel), (by decide +kernel),
     (by decide +kernel), (by decide +kernel)⟩,
   ⟨leBytes 1 1 ++ leBytes 1 9 ++ leBytes 2 1 ++ List.replicate 60 7, canAt (some (ctx1 108)) [canf 3 true none], ctx1 108,
     (by unfold CanOn; decide +kernel), (by decide +kernel), (by decide +kernel), (by decide +kernel), (by decide +kernel),
     (by decide +kernel), (by decide +kernel), (by decide +kernel), (by decide +kernel), (by decide +kernel), (by decide +kernel),
     (by decide +kernel), (by decide +kernel)⟩,
   ⟨leBytes 1 1 ++ leBytes 1 9 ++ leBytes 2 2 ++ List.replicate 60 7, canAt (some (ctx1 109)) [canf 3 true (some 9), canf 4 false (some
     9), canf 5 false none], ctx1 109, (by unfold CanOn; decide +kernel), (by decide +kernel), (by decide +kernel), (by decide +kernel),
     (by decide +kernel)⟩,
   ⟨9, 0, canAt (some (ctx1 109)) [canf 3 true (some 9), canf 4 false (some 9), canf 5 false none], ctx1 109,
     (by unfold CanOn; decide +kernel), (by decide +kernel), (by decide +kernel)⟩,
   ⟨8, 0, canAt (some (ctx1 109)) [canf 3 true (some 9)], ctx1 109, (by unfold CanOn; decide +kernel), (by decide +kernel),
     (by decide +kernel)⟩,
   ⟨8, 0, canAt (some (ctx1 109)) [canf 3 true (some 9)], ctx1 109, (by unfold CanOn; decide +kernel), (by decide +kernel)⟩⟩

/-- States and operands that meet the hypotheses of `Obligations.CanNode`, clause by clause. -/
theorem wit_CanNode :
    (∃ (n : BitVec 7) (s : State), CanOn s ∧ (n = 0 ∨ n.toNat = s.get R.HUB_CAN_STAT_NODE)) ∧
    (∃ (n : BitVec 7) (s : State), CanOn s ∧ (n = 0 ∨ n.toNat = s.get R.HUB_CAN_STAT_NODE)) ∧
    (∃ (n : BitVec 7) (s : State), CanOn s ∧ n ≠ 0 ∧ n.toNat ≠ s.get R.HUB_CAN_STAT_NODE) ∧
    (∃ (tag : BitVec 16) (s : State), MbxFree tag 4 0x60 s) ∧
    (∃ (s : State), CanOn s ∧ s.odGet 1 3 1000 ≠ 0) ∧
    (∃ (s : State), s.odGet 1 3 1000 = 0) ∧
    (∃ (i : BitVec 11) (s : State) (a : List CanFrame) (b : List CanFrame) (f : CanFrame), CanOn s ∧ s.can.txq = a ++ f :: b ∧ f.ident =
      i.toNat ∧ (∀ g ∈ a, g.ident ≠ i.toNat) ∧ tget 0 s.can.dup i.toNat ≠ 7) ∧
    (∃ (i : BitVec 11) (s : State) (a : List CanFrame) (b : List CanFrame) (f : CanFrame), CanOn s ∧ s.can.txq = a ++ f :: b ∧ f.ident =
      i.toNat ∧ (∀ g ∈ a, g.ident ≠ i.toNat) ∧ tget 0 s.can.dup i.toNat = 7) ∧
    (∃ (i : BitVec 11) (s : State) (a : List CanFrame) (b : List CanFrame) (f : CanFrame), CanOn s ∧ s.can.txq = a ++ f :: b ∧ f.ident =
      i.toNat ∧ (∀ g ∈ a, g.ident ≠ i.toNat)) ∧
    (∃ (i : BitVec 11) (s : State) (a : List CanFrame) (b : List CanFrame) (f : CanFrame), CanOn s ∧ s.can.txq = a ++ f :: b ∧ f.ident =
      i.toNat ∧ (∀ g ∈ a, g.ident ≠ i.toNat)) ∧
    (∃ (i : BitVec 11) (s : State) (a : List CanFrame) (b : List CanFrame) (f : CanFrame), CanOn s ∧ s.can.txq = a ++ f :: b ∧ f.ident =
      i.toNat ∧ (∀ g ∈ a, g.ident ≠ i.toNat)) ∧
    (∃ (s : State), CanOn s) ∧
    (∃ (s : State), s.get R.HUB_CAN_STAT_STATE = 3) :=
  ⟨⟨5, canAt none [canf 0x705 false none, canf 0x705 true none], (by unfold CanOn; decide +kernel), (by decide +kernel)⟩,
   ⟨0, { canAt (some (ctx1 109)) [canf 3 true (some 9)] with can := { host.can with strap := 9, dup := [(3, 4)] } },
     (by unfold CanOn; decide +kernel), (by decide +kernel)⟩,
   ⟨6, host, (by unfold CanOn; decide +kernel), (by decide +kernel), (by decide +kernel)⟩,
   ⟨7, host, (by unfold MbxFree Reaches; decide +kernel)⟩,
   ⟨host, (by unfold CanOn; decide +kernel), (by decide +kernel)⟩,
   ⟨{ host with od := [(65536 + 3, 0)] }, (by decide +kernel)⟩,
   ⟨3,
     { canAt none [canf 4 false none, canf 3 true none] with can := { host.can with txq := [canf 4 false none, canf 3 true none], dup := [(3, 6)] } },
     [canf 4 false none], [], canf 3 true none, (by unfold CanOn; decide +kernel), (by decide +kernel), (by decide +kernel),
     (by decide +kernel), (by decide +kernel)⟩,
   ⟨3, { host with can := { host.can with txq := [canf 4 false none, canf 3 true none], dup := [(3, 7)] } }, [canf 4 false none], [], canf
     3 true none, (by unfold CanOn; decide +kernel), (by decide +kernel), (by decide +kernel), (by decide +kernel), (by decide +kernel)⟩,
   ⟨3,
     { sets [(R.HUB_CAN_STAT_TEC, 128)] host with can := { host.can with txq := [canf 4 false none, canf 3 true none], dup := [(3, 7)], good := [(3, 63)] } },
     [canf 4 false none], [], canf 3 true none, (by unfold CanOn; decide +kernel), (by decide +kernel), (by decide +kernel),
     (by decide +kernel)⟩,
   ⟨3, canAt none [canf 4 false none, canf 3 false none], [canf 4 false none], [], canf 3 false none, (by unfold CanOn; decide +kernel),
     (by decide +kernel), (by decide +kernel), (by decide +kernel)⟩,
   ⟨3, canAt none [canf 4 false none, canf 3 false none, canf 3 false none], [canf 4 false none], [canf 3 false none], canf 3 false none,
     (by unfold CanOn; decide +kernel), (by decide +kernel), (by decide +kernel), (by decide +kernel)⟩,
   ⟨host, (by unfold CanOn; decide +kernel)⟩,
   ⟨sets [(R.HUB_CAN_STAT_STATE, 3), (R.HUB_CAN_STAT_TEC, 255)] host, (by decide +kernel)⟩⟩

/-- States and operands that meet the hypotheses of `Obligations.ResetsAndNotices`, clause by clause. -/
theorem wit_ResetsAndNotices :
    (∃ (r : Requester) (s : State), Reaches r 0x700 s ∧ s.get R.HUB_CRESET_CMD_STATUS ≠ 1 ∧ s.get R.HUB_CRESET_CMD_STATUS ≠ 3 ∧ s.get
      R.HUB_BOOT_STATE = 1 ∧ s.packageResetting = false ∧ s.powered = true ∧ s.tripped = false) ∧
    (∃ (r : Requester) (s : State), Reaches r 0x700 s ∧ (s.get R.HUB_CRESET_CMD_STATUS = 1 ∨ s.get R.HUB_CRESET_CMD_STATUS = 3)) ∧
    (∃ (absent : BitVec 8) (s : State), s.computeResetting = true ∧ s.get R.HUB_RESET_STAT_PHASE = 1) ∧
    (∃ (s : State), s.computeResetting = true ∧ s.get R.HUB_RESET_STAT_PHASE ≠ 1 ∧ (∀ e, (s.eng e).queue = []) ∧ (∀ n, n < 8 → s.bayIn n =
      true → s.deadDies.contains n = false)) ∧
    (∃ (s : State) (n : _), s.computeResetting = true ∧ s.get R.HUB_RESET_STAT_PHASE ≠ 1 ∧ (∀ e, (s.eng e).queue = []) ∧ n < 8 ∧ s.bayIn n
      = true ∧ s.deadDies.contains n = true) ∧
    (∃ (s : State), s.computeResetting = true ∧ s.get R.HUB_CRESET_CMD_STATUS = 1) ∧
    (∃ (s : State), s.computeResetting = false) ∧
    (∃ (r : Requester) (s : State), Reaches r 0x704 s ∧ s.get R.HUB_PRESET_CMD_STATUS ≠ 1 ∧ s.powered = true ∧ s.tripped = false ∧
      s.packageResetting = false ∧ s.computeResetting = false) ∧
    (∃ (absent : BitVec 8) (s : State), s.packageResetting = true ∧ s.get R.HUB_RESET_STAT_PHASE = 1 ∧ s.presetBusy = true ∧ Quiet s) ∧
    (∃ (s : State) (slot : Nat) (cells : List (Nat × Byte)), s.sumWait = some (slot, cells) ∧ s.nvmDead = false ∧ s.packageResetting =
      false ∧ trising cells = true ∧ (∀ p ∈ cells, p.1 < 262144)) ∧
    (∃ (s : State) (slot : Nat) (cells : List (Nat × Byte)), s.sumWait = some (slot, cells) ∧ s.nvmDead = false ∧ s.packageResetting =
      true ∧ s.get R.HUB_RESET_STAT_PHASE = 2 ∧ s.presetBusy = false) ∧
    (∃ (r : Requester) (s : State) (d : Nat) (n : Nat), Reaches r 0x828 s ∧ s.get R.HUB_FCTX_CMD_STATUS ≠ 1 ∧ d = s.get R.HUB_FCTX_ARG_DST
      ∧ n = s.get R.HUB_FCTX_ARG_SIZE ∧ 10 ≤ s.get R.HUB_BOOT_STEP ∧ s.get R.HUB_FCTX_ARG_OP = 0x22 ∧ 1 ≤ n ∧ n ≤ 32 ∧ d ≠ s.pkg ∧
      s.usablePorts d ≠ []) ∧
    (∃ (r : Requester) (s : State) (d : Nat) (n : Nat), Reaches r 0x828 s ∧ s.get R.HUB_FCTX_CMD_STATUS ≠ 1 ∧ d = s.get R.HUB_FCTX_ARG_DST
      ∧ n = s.get R.HUB_FCTX_ARG_SIZE ∧ 10 ≤ s.get R.HUB_BOOT_STEP ∧ (s.get R.HUB_FCTX_ARG_OP ≠ 0x22 ∨ n = 0 ∨ 32 < n)) ∧
    (∃ (r : Requester) (s : State) (d : Nat) (n : Nat), Reaches r 0x828 s ∧ s.get R.HUB_FCTX_CMD_STATUS ≠ 1 ∧ d = s.get R.HUB_FCTX_ARG_DST
      ∧ n = s.get R.HUB_FCTX_ARG_SIZE ∧ 10 ≤ s.get R.HUB_BOOT_STEP ∧ s.get R.HUB_FCTX_ARG_OP = 0x22 ∧ 1 ≤ n ∧ n ≤ 32 ∧ d ≠ s.pkg ∧
      s.usablePorts d = []) ∧
    (∃ (r : Requester) (s : State) (d : Nat) (n : Nat), Reaches r 0x828 s ∧ s.get R.HUB_FCTX_CMD_STATUS ≠ 1 ∧ d = s.get R.HUB_FCTX_ARG_DST
      ∧ n = s.get R.HUB_FCTX_ARG_SIZE ∧ s.get R.HUB_BOOT_STEP < 10) ∧
    (∃ (env : Envelope) (op : Byte) (data : List Byte) (s : State) (k : Nat), s.packageResetting = false ∧ k = s.get R.HUB_FCRX_STAT_TAIL
      ∧ 0x20 ≤ op.toNat ∧ op.toNat ≤ 0x22 ∧ (k + 1) % 16 ≠ s.get R.HUB_FCRX_HEAD_HEAD ∧ s.get R.HUB_FCRX_CFG_EN = 0) ∧
    (∃ (env : Envelope) (op : Byte) (data : List Byte) (s : State) (k : Nat), s.packageResetting = false ∧ k = s.get R.HUB_FCRX_STAT_TAIL
      ∧ 0x20 ≤ op.toNat ∧ op.toNat ≤ 0x22 ∧ (k + 1) % 16 = s.get R.HUB_FCRX_HEAD_HEAD) ∧
    (∃ (r : Requester) (peg : BitVec 20) (s : State), Reaches r 0x830 s ∧ peg.toNat < 65536) ∧
    (∃ (r : Requester) (peg : BitVec 20) (s : State), Reaches r 0x830 s ∧ 65536 ≤ peg.toNat) :=
  ⟨⟨.hart 255, host, (by unfold Reaches; decide +kernel), (by decide +kernel), (by decide +kernel), (by decide +kernel),
     (by decide +kernel), (by decide +kernel), (by decide +kernel)⟩,
   ⟨.fn 0, rst 1 1, (by unfold Reaches; decide +kernel), (by decide +kernel)⟩,
   ⟨1, { rst 1 1 with mem := [(0x7F, 3)], harts := [(0, hx 1 2 3)] }, (by decide +kernel), (by decide +kernel)⟩,
   ⟨rst 1 3, (by decide +kernel), (by decide +kernel), (fun e => (idle_eng (by decide +kernel) e).1), (by decide +kernel)⟩,
   ⟨{ rst 1 3 with deadDies := [7] }, 7, (by decide +kernel), (by decide +kernel), (fun e => (idle_eng (by decide +kernel) e).1),
     (by decide +kernel), (by decide +kernel), (by decide +kernel)⟩,
   ⟨rst 1 3, (by decide +kernel), (by decide +kernel)⟩,
   ⟨rst 1 4, (by decide +kernel)⟩,
   ⟨.fn 0, host, (by unfold Reaches; decide +kernel), (by decide +kernel), (by decide +kernel), (by decide +kernel), (by decide +kernel),
     (by decide +kernel)⟩,
   ⟨1, { rst 2 1 with presetBusy := true }, (by decide +kernel), (by decide +kernel), (by decide +kernel), (quiet_of rfl rfl rfl rfl)⟩,
   ⟨{ rst 1 2 with sumWait := some (3, [(0, 5), (262143, 6)]) }, 3, [(0, 5), (262143, 6)], (by decide +kernel), (by decide +kernel),
     (by decide +kernel), (by decide +kernel), (by decide +kernel)⟩,
   ⟨{ rst 2 2 with sumWait := some (3, [(0, 5)]), pending := [.brownOut], ledger := [led] }, 3, [(0, 5)], (by decide +kernel),
     (by decide +kernel), (by decide +kernel), (by decide +kernel), (by decide +kernel)⟩,
   ⟨.hart 0, fct 0x22 7 32, 7, 32, (by unfold Reaches; decide +kernel), (by decide +kernel), (by decide +kernel), (by decide +kernel),
     (by decide +kernel), (by decide +kernel), (by decide +kernel), (by decide +kernel), (by decide +kernel), (by decide +kernel)⟩,
   ⟨.hart 0, fct 0x22 7 33, 7, 33, (by unfold Reaches; decide +kernel), (by decide +kernel), (by decide +kernel), (by decide +kernel),
     (by decide +kernel), (by decide +kernel)⟩,
   ⟨.hart 0, fct 0x22 8 1, 8, 1, (by unfold Reaches; decide +kernel), (by decide +kernel), (by decide +kernel), (by decide +kernel),
     (by decide +kernel), (by decide +kernel), (by decide +kernel), (by decide +kernel), (by decide +kernel), (by decide +kernel)⟩,
   ⟨.hart 0, sets [(R.HUB_BOOT_STEP, 9)] (fct 0x22 8 1), 8, 1, (by unfold Reaches; decide +kernel), (by decide +kernel),
     (by decide +kernel), (by decide +kernel), (by decide +kernel)⟩,
   ⟨⟨0xFFFFF, 3⟩, 0x22, List.replicate 31 5, sets [(R.HUB_FCRX_STAT_TAIL, 15), (R.HUB_FCRX_HEAD_HEAD, 15)] net, 15, (by decide +kernel),
     (by decide +kernel), (by decide +kernel), (by decide +kernel), (by decide +kernel), (by decide +kernel)⟩,
   ⟨⟨0xFFFFF, 3⟩, 0x20, List.replicate 31 5, sets [(R.HUB_FCRX_STAT_TAIL, 15)] net, 15, (by decide +kernel), (by decide +kernel),
     (by decide +kernel), (by decide +kernel), (by decide +kernel)⟩,
   ⟨.fn 0, 65535, pg, (by unfold Reaches; decide +kernel), (by decide +kernel)⟩,
   ⟨.fn 0, 65536, pg, (by unfold Reaches; decide +kernel), (by decide +kernel)⟩⟩

/-- States and operands that meet the hypotheses of `Obligations.BootAndFirmware`, clause by clause. -/
theorem wit_BootAndFirmware :
    (∃ (node : BitVec 7) (p : Bool) (s : State), s.powered = false ∧ s.brownOut = false ∧ s.fw = none ∧ (∀ r ∈ s.cfgStore, r.index <
      65536) ∧ s.sumWait = none) ∧
    (∃ (node : BitVec 7) (p : Bool) (s : State), s.powered = true) ∧
    (∃ (b : BootEnv) (s : State), s.powered = true ∧ s.tripped = false ∧ s.packageResetting = false ∧ s.sumWait = none ∧ s.get
      R.HUB_BOOT_STEP = 0 ∧ s.get R.HUB_BOOT_STATE = 0 ∧ BootsTo5 b s) ∧
    (∃ (b : BootEnv) (s : State), s.powered = true ∧ s.tripped = false ∧ s.packageResetting = false ∧ s.sumWait = none ∧ s.get
      R.HUB_BOOT_STEP = 0 ∧ s.get R.HUB_BOOT_STATE = 0 ∧ b.testEn = true) ∧
    (∃ (s : State) (k : Nat), s.get R.HUB_BOOT_STATE = 0 ∧ s.get R.HUB_BOOT_STEP = k ∧ 1 ≤ k ∧ k ≤ 11 ∧ stepNib (s.get
      R.HUB_BOOT_STEPS_STEPS) k = 0xE ∧ k ≠ 2 ∧ k ≠ 3 ∧ k ≠ 4 ∧ k ≠ 7) ∧
    (∃ (s : State) (k : Nat), s.get R.HUB_BOOT_STATE = 0 ∧ s.get R.HUB_BOOT_STEP = k ∧ 1 ≤ k ∧ k ≤ 11 ∧ stepNib (s.get
      R.HUB_BOOT_STEPS_STEPS) k = 0xE ∧ k = 2) ∧
    (∃ (s : State) (k : Nat) (b : BootEnv), s.get R.HUB_BOOT_STATE = 0 ∧ s.get R.HUB_BOOT_STEP = k ∧ 1 ≤ k ∧ k ≤ 11 ∧ k = 2 ∧ stepNib
      (s.get R.HUB_BOOT_STEPS_STEPS) k = 2 ∧ s.fw = none ∧ BootsTo5 b s) ∧
    (∃ (tag : BitVec 16) (len : BitVec 32) (s : State), MbxFree tag 4 0x71 s ∧ s.get (R.HUB_PERMIT_HOLDER 75) = 0 ∧ imageLength len.toNat
      = true) ∧
    (∃ (tag : BitVec 16) (len : BitVec 32) (s : State), MbxFree tag 4 0x71 s ∧ s.get (R.HUB_PERMIT_HOLDER 75) = 0 ∧ imageLength len.toNat
      = false) ∧
    (∃ (tag : BitVec 16) (addr : BitVec 64) (len : BitVec 32) (s : State) (h : List Byte), MbxFree tag 4 0x70 s ∧ s.get
      (R.HUB_PERMIT_HOLDER 75) = 0 ∧ h = (List.range 256).map (fun i => match s.place (addr.toNat + i) with | .mem k => s.byte k | _ => 0)
      ∧ s.hbmBays ≠ [] ∧ addr.toNat + len.toNat ≤ s.hbmBays.length * 48 * gib ∧ headerOk h len.toNat = true) ∧
    (∃ (tag : BitVec 16) (addr : BitVec 64) (len : BitVec 32) (s : State) (h : List Byte), MbxFree tag 4 0x70 s ∧ s.get
      (R.HUB_PERMIT_HOLDER 75) = 0 ∧ h = (List.range 256).map (fun i => match s.place (addr.toNat + i) with | .mem k => s.byte k | _ => 0)
      ∧ s.hbmBays.length * 48 * gib < addr.toNat + len.toNat) ∧
    (∃ (tag : BitVec 16) (off : BitVec 32) (data : List Byte) (s : State) (f : FwStaging), MbxFree tag 4 0x72 s ∧ s.fw = some f ∧ 1 ≤
      data.length ∧ data.length ≤ 236 ∧ f.viaMbx = true ∧ off.toNat = f.got ∧ f.got + data.length ≤ f.length ∧ f.got + data.length ≤ 65536
      ∧ f.header.length = 256) ∧
    (∃ (tag : BitVec 16) (off : BitVec 32) (data : List Byte) (s : State) (f : FwStaging), MbxFree tag 4 0x72 s ∧ s.fw = some f ∧ 1 ≤
      data.length ∧ data.length ≤ 236 ∧ f.viaMbx = true ∧ off.toNat ≠ f.got) ∧
    (∃ (tag : BitVec 16) (s : State) (f : FwStaging), MbxFree tag 4 0x73 s ∧ s.fw = some f ∧ f.slot < 2) ∧
    (∃ (s : State) (f : FwStaging), s.fw = some f ∧ f.got = f.length ∧ f.slot < 2 ∧ s.nvmDead = false) ∧
    (∃ (tag : BitVec 16) (v : Byte) (s : State), MbxFree tag 4 0x74 s ∧ (v = 1 ∨ v = 2)) ∧
    (∃ (tag : BitVec 16) (v : Byte) (s : State), MbxFree tag 4 0x74 s ∧ v ≠ 1 ∧ v ≠ 2) ∧
    (∃ (tag : BitVec 16) (u : BitVec 16) (s : State) (r : LedgerRec) (l : List LedgerRec), MbxFree tag 4 0x75 s ∧ s.nvmDead = false ∧
      s.ledger = r :: l ∧ u.toNat % 256 < kindUnits (u.toNat / 256)) ∧
    (∃ (tag : BitVec 16) (s : State), MbxFree tag 4 0x76 s ∧ s.get (R.HUB_PERMIT_HOLDER 77) = 0x101 ∧ s.nvmDead = false) ∧
    (∃ (tag : BitVec 16) (s : State), MbxFree tag 4 0x76 s ∧ s.get (R.HUB_PERMIT_HOLDER 77) = 0) ∧
    (∃ (s : State), s.nvmDead = false) ∧
    (∃ (s : State), s.nvmDead = true) :=
  ⟨⟨127, true, dark, (by decide +kernel), (by decide +kernel), (by decide +kernel), (by decide +kernel), (by decide +kernel)⟩,
   ⟨127, true, host, (by decide +kernel)⟩,
   ⟨env5, { State.reset with ledger := [led] }, (by decide +kernel), (by decide +kernel), (by decide +kernel), (by decide +kernel),
     (by decide +kernel), (by decide +kernel), (by unfold BootsTo5; decide +kernel)⟩,
   ⟨{ env5 with testEn := true }, State.reset, (by decide +kernel), (by decide +kernel), (by decide +kernel), (by decide +kernel),
     (by decide +kernel), (by decide +kernel), (by decide +kernel)⟩,
   ⟨hung 11 0xE, 11, (by decide +kernel), (by decide +kernel), (by decide +kernel), (by decide +kernel), (by decide +kernel),
     (by decide +kernel), (by decide +kernel), (by decide +kernel), (by decide +kernel)⟩,
   ⟨hung 2 0xE, 2, (by decide +kernel), (by decide +kernel), (by decide +kernel), (by decide +kernel), (by decide +kernel),
     (by decide +kernel)⟩,
   ⟨{ hung 2 2 with ledger := [led] }, 2, env5, (by decide +kernel), (by decide +kernel), (by decide +kernel), (by decide +kernel),
     (by decide +kernel), (by decide +kernel), (by decide +kernel), (by unfold BootsTo5; decide +kernel)⟩,
   ⟨65535, 65536, host, (by unfold MbxFree Reaches; decide +kernel), (by decide +kernel), (by decide +kernel)⟩,
   ⟨65535, 65537, host, (by unfold MbxFree Reaches; decide +kernel), (by decide +kernel), (by decide +kernel)⟩,
   ⟨65535, 0x3000, 65536, { host with mem := memOf (hbmKey (hbmHome (List.range 8) 0 0x3000)) (hdr 65536) }, hdr 65536,
     (by unfold MbxFree Reaches; decide +kernel), (by decide +kernel), (by decide +kernel), (by decide +kernel), (by decide +kernel),
     (by decide +kernel)⟩,
   ⟨65535, 0x5FFFFFF001, 65536, host, List.replicate 256 0, (by unfold MbxFree Reaches; decide +kernel), (by decide +kernel),
     (by decide +kernel), (by decide +kernel)⟩,
   ⟨65535, 65300, List.replicate 236 7, { host with fw := some (stagingOf 1 65300) }, stagingOf 1 65300,
     (by unfold MbxFree Reaches; decide +kernel), (by decide +kernel), (by decide +kernel), (by decide +kernel), (by decide +kernel),
     (by decide +kernel), (by decide +kernel), (by decide +kernel), (by decide +kernel)⟩,
   ⟨65535, 65301, List.replicate 236 7, { host with fw := some (stagingOf 1 65300) }, stagingOf 1 65300,
     (by unfold MbxFree Reaches; decide +kernel), (by decide +kernel), (by decide +kernel), (by decide +kernel), (by decide +kernel),
     (by decide +kernel)⟩,
   ⟨65535, { host with fw := some (stagingOf 1 65300), slotB := img2 }, stagingOf 1 65300, (by unfold MbxFree Reaches; decide +kernel),
     (by decide +kernel), (by decide +kernel)⟩,
   ⟨{ host with fw := some (stagingOf 1 65536), slotB := img2 }, stagingOf 1 65536, (by decide +kernel), (by decide +kernel),
     (by decide +kernel), (by decide +kernel)⟩,
   ⟨65535, 2, host, (by unfold MbxFree Reaches; decide +kernel), (by decide +kernel)⟩,
   ⟨65535, 3, host, (by unfold MbxFree Reaches; decide +kernel), (by decide +kernel), (by decide +kernel)⟩,
   ⟨65535, 0x0407, { host with ledger := [led, led] }, led, [led], (by unfold MbxFree Reaches; decide +kernel), (by decide +kernel),
     (by decide +kernel), (by decide +kernel)⟩,
   ⟨65535, { sets [(R.HUB_PERMIT_HOLDER 77, 0x101)] host with od := [(65536 + 3, 5)] }, (by unfold MbxFree Reaches; decide +kernel),
     (by decide +kernel), (by decide +kernel)⟩,
   ⟨65535, host, (by unfold MbxFree Reaches; decide +kernel), (by decide +kernel)⟩,
   ⟨host, (by decide +kernel)⟩,
   ⟨{ host with deadDies := [99] }, (by decide +kernel)⟩⟩

/-- States and operands that meet the hypotheses of `Obligations.LogbookRecords`, clause by clause. -/
theorem wit_LogbookRecords :
    (∃ (ev : LogEvent) (s : State), LogOpen s ∧ s.logSeq + 1 ≠ 131072) ∧
    (∃ (ev : LogEvent) (s : State), LogOpen s ∧ s.logSeq + 1 = 131072 ∧ s.get R.LOG_STAT_CLEARING = 0) ∧
    (∃ (ev : LogEvent) (s : State), (256 ≤ s.logBuf.length ∨ s.get R.LOG_STAT_FULL = 1 ∧ s.get R.LOG_STAT_CLEARING = 0)) ∧
    (∃ (s : State) (r : LogRec) (l : List LogRec), s.get R.LOG_STAT_CLEARING = 0 ∧ (s.get R.LOG_STAT_FULL = 0 ∨ s.get R.LOG_STAT_CAUSE =
      0) ∧ s.logBuf = r :: l ∧ s.nvmDead = false) ∧
    (∃ (r : Requester) (i : BitVec 17) (s : State), Reaches r 0x940010 s) ∧
    (∃ (tag : BitVec 16) (s : State), MbxFree tag 4 0x80 s ∧ s.get (R.HUB_PERMIT_HOLDER 76) = 0) ∧
    (∃ (tag : BitVec 16) (s : State) (g : _), MbxFree tag 4 0x80 s ∧ s.get (R.HUB_PERMIT_HOLDER 76) = g ∧ g ≠ 0) ∧
    (∃ (s : State), s.get R.LOG_STAT_CLEARING = 1 ∧ s.nvmDead = false) ∧
    (∃ (ok : Bool) (s : State), s.get R.LOG_STAT_CLEARING = 0) :=
  ⟨⟨lev, lb [lrec 0 7] [], (by unfold LogOpen; decide +kernel), (by decide +kernel)⟩,
   ⟨lev, { lb [lrec 0 7] [] with logSeq := 131071 }, (by unfold LogOpen; decide +kernel), (by decide +kernel), (by decide +kernel)⟩,
   ⟨lev, { host with logBuf := List.replicate 256 (lrec 0 7) }, (by decide +kernel)⟩,
   ⟨lb [lrec 0 7, lrec 1 7] [], lrec 0 7, [lrec 1 7], (by decide +kernel), (by decide +kernel), (by decide +kernel), (by decide +kernel)⟩,
   ⟨.fn 0, 131071, sets [(R.LOG_CUR_READY, 1)] host, (by unfold Reaches; decide +kernel)⟩,
   ⟨65535, lb [lrec 2 7] [lrec 0 7, lrec 1 7], (by unfold MbxFree Reaches; decide +kernel), (by decide +kernel)⟩,
   ⟨65535, sets [(R.HUB_PERMIT_HOLDER 76, 0x10B)] host, 0x10B, (by unfold MbxFree Reaches; decide +kernel), (by decide +kernel),
     (by decide +kernel)⟩,
   ⟨sets [(R.LOG_STAT_CLEARING, 1), (R.LOG_HEAD_HEAD, 2), (R.LOG_HEAD_CLEARS, 255)] (lb [lrec 2 7] [lrec 0 7, lrec 1 7]),
     (by decide +kernel), (by decide +kernel)⟩,
   ⟨true, host, (by decide +kernel)⟩⟩

/-- States and operands that meet the hypotheses of `Obligations.PowerAndHeat`, clause by clause. -/
theorem wit_PowerAndHeat :
    (∃ (r : Requester) (d : PwrDom) (s : State), Reaches r (0x980000 + 4 * d.val) s ∧ Quiet s ∧ switchable d.val = true ∧ s.get
      (R.PWR_DOM_EN d) = 1 ∧ s.get (R.PWR_DOM_STATE d) ≠ 3 ∧ ¬(d.val = 23 ∧ s.anyLit = true)) ∧
    (∃ (r : Requester) (d : PwrDom) (s : State), Reaches r (0x980000 + 4 * d.val) s ∧ Quiet s ∧ d.val = 23 ∧ s.get (R.PWR_DOM_EN d) = 1 ∧
      s.anyLit = true) ∧
    (∃ (r : Requester) (d : PwrDom) (s : State), Reaches r (0x980000 + 4 * d.val) s ∧ Quiet s ∧ switchable d.val = true ∧ s.get
      (R.PWR_DOM_EN d) = 0 ∧ s.get (R.PWR_DOM_STATE d) ≠ 3) ∧
    (∃ (r : Requester) (d : PwrDom) (s : State), Reaches r (0x980000 + 4 * d.val) s ∧ Quiet s ∧ switchable d.val = false) ∧
    (∃ (r : Requester) (d : PwrDom) (s : State), Reaches r (0x980000 + 4 * d.val) s ∧ Quiet s ∧ switchable d.val = false) ∧
    (∃ (i : Fin 15) (s : State), Quiet s) ∧
    (∃ (d : PwrDom) (avg : Nat) (s : State), avg < 65536) ∧
    (∃ (s : State), s.powered = true) ∧
    (∃ (s : State), s.powered = false) ∧
    (∃ (i : Die) (v : Int) (s : State), s.powered = true ∧ -32768 ≤ v ∧ v < 32768 ∧ v < warnLimit i * 256 ∧ (∀ l, tripLimit i = some l → v
      < l * 256)) ∧
    (∃ (i : Die) (v : Int) (s : State), s.powered = true ∧ -32768 ≤ v ∧ v < 32768 ∧ warnLimit i * 256 ≤ v ∧ (∀ l, tripLimit i = some l → v
      < l * 256)) ∧
    (∃ (i : Die) (v : Int) (s : State) (l : _), s.powered = true ∧ -32768 ≤ v ∧ v < 32768 ∧ tripLimit i = some l ∧ l * 256 ≤ v ∧ s.tripped
      = false) ∧
    (∃ (s : State) (b : Bay), Quiet s) ∧
    (∃ (s : State), Quiet s) ∧
    (∃ (present : Bool) (s : State), s.bootWait = none) :=
  ⟨⟨.fn 0, 18, pw 18 1 2, (by unfold Reaches; decide +kernel), (quiet_of rfl rfl rfl rfl), (by decide +kernel), (by decide +kernel),
     (by decide +kernel), (by decide +kernel)⟩,
   ⟨.fn 0, 23, pw 23 1 2, (by unfold Reaches; decide +kernel), (quiet_of rfl rfl rfl rfl), (by decide +kernel), (by decide +kernel),
     (by decide +kernel)⟩,
   ⟨.fn 0, 14, pw 14 0 0, (by unfold Reaches; decide +kernel), (quiet_of rfl rfl rfl rfl), (by decide +kernel), (by decide +kernel),
     (by decide +kernel)⟩,
   ⟨.fn 0, 22, pw 22 1 2, (by unfold Reaches; decide +kernel), (quiet_of rfl rfl rfl rfl), (by decide +kernel)⟩,
   ⟨.fn 0, 10, pw 10 1 2, (by unfold Reaches; decide +kernel), (quiet_of rfl rfl rfl rfl), (by decide +kernel)⟩,
   ⟨8, pw 11 1 2, (quiet_of rfl rfl rfl rfl)⟩,
   ⟨3, 65535, pw 11 1 2, (by decide +kernel)⟩,
   ⟨{ lz 2 with mem := [(5, 1)], logRecs := [lrec 0 7], ledger := [led] }, (by decide +kernel)⟩,
   ⟨dark, (by decide +kernel)⟩,
   ⟨0, 24319, lz 2, (by decide +kernel), (by decide +kernel), (by decide +kernel), (by decide +kernel), (by decide +kernel)⟩,
   ⟨0, 24320, lz 2, (by decide +kernel), (by decide +kernel), (by decide +kernel), (by decide +kernel), (by decide +kernel)⟩,
   ⟨0, 26880, lz 2, 105, (by decide +kernel), (by decide +kernel), (by decide +kernel), (by decide +kernel), (by decide +kernel),
     (by decide +kernel)⟩,
   ⟨lz 2, 7, (quiet_of rfl rfl rfl rfl)⟩,
   ⟨lz 2, (quiet_of rfl rfl rfl rfl)⟩,
   ⟨true, { sets [(R.HUB_CAN_STAT_STATE, 0)] host with refclk := false }, (by decide +kernel)⟩⟩

/-- States and operands that meet the hypotheses of `Obligations.DriverLevel`, clause by clause. -/
theorem wit_DriverLevel :
    (∃ (r : Requester) (v : BitVec 32) (s : State), IsPf r ∧ Reaches r 0x8 s ∧ v.toNat < 16 ∧ s.get R.HUB_LEVEL_STAT_WRITTEN = 0) ∧
    (∃ (r : Requester) (v : BitVec 32) (s : State), IsPf r ∧ Reaches r 0x8 s ∧ v.toNat < 16 ∧ s.get R.HUB_LEVEL_STAT_WRITTEN = 0) ∧
    (∃ (r : Requester) (v : BitVec 32) (s : State), IsPf r ∧ Reaches r 0x8 s ∧ v.toNat < 16 ∧ s.get R.HUB_LEVEL_STAT_WRITTEN = 1) ∧
    (∃ (r : Requester) (v : BitVec 32) (s : State), IsPf r ∧ Reaches r 0x8 s ∧ v.toNat < 16 ∧ s.get R.HUB_LEVEL_STAT_WRITTEN = 1) ∧
    (∃ (f : Fn) (s : State), f ≠ 0 ∧ Reaches (.fn f) (0x10000000 * f.val) s) ∧
    (∃ (s : State) (x : Nat × List (Nat × Byte)), s.sumWait = some x ∧ s.packageResetting = true ∧ s.get R.HUB_RESET_STAT_PHASE = 2 ∧
      s.presetBusy = false ∧ s.nvmDead = false) :=
  ⟨⟨.hart 255, 15, sets [(R.HUB_LEVEL_STAT_WRITTEN, 0)] host, (by unfold IsPf; decide +kernel), (by unfold Reaches; decide +kernel),
     (by decide +kernel), (by decide +kernel)⟩,
   ⟨.fn 0, 15, sets [(R.HUB_LEVEL_STAT_WRITTEN, 0)] host, (by unfold IsPf; decide +kernel), (by unfold Reaches; decide +kernel),
     (by decide +kernel), (by decide +kernel)⟩,
   ⟨.hart 255, 15, sets [(R.HUB_ACCESS_STAT_LEVEL_IGNORED, 255)] host, (by unfold IsPf; decide +kernel),
     (by unfold Reaches; decide +kernel), (by decide +kernel), (by decide +kernel)⟩,
   ⟨.fn 0, 15, host, (by unfold IsPf; decide +kernel), (by unfold Reaches; decide +kernel), (by decide +kernel), (by decide +kernel)⟩,
   ⟨16, host, (by decide +kernel), (by unfold Reaches; decide +kernel)⟩,
   ⟨{ rst 2 2 with sumWait := some (3, []) }, (3, []), (by decide +kernel), (by decide +kernel), (by decide +kernel), (by decide +kernel),
     (by decide +kernel)⟩⟩

/-- States and operands that meet the hypotheses of `Obligations.NodeNumber`, clause by clause. -/
theorem wit_NodeNumber :
    (∃ (node : BitVec 7) (p : Bool) (s : State), s.powered = false) ∧
    (∃ (h : MbxHdr) (v : Byte) (s : State), h.area = 1 ∧ h.index = 1 ∧ h.offset = 0 ∧ h.length = 1 ∧ v.toNat < 128 ∧ MbxTakes 0 2 1 1 s ∧
      s.get (R.HUB_PERMIT_HOLDER 77) = 0 ∧ s.nvmDead = false) ∧
    (∃ (tag : BitVec 16) (s : State), MbxFree tag 4 0x60 s) ∧
    (∃ (n : BitVec 7) (s : State), CanOn s ∧ (n = 0 ∨ n.toNat = s.get R.HUB_CAN_STAT_NODE)) ∧
    (∃ (s : State) (x : Nat × List (Nat × Byte)), s.sumWait = some x ∧ s.packageResetting = true ∧ s.get R.HUB_RESET_STAT_PHASE = 2 ∧
      s.presetBusy = false ∧ s.nvmDead = false) :=
  ⟨⟨127, true, dark, (by decide +kernel)⟩,
   ⟨⟨1, 1, 0, 1, 7⟩, 127, host, (by decide +kernel), (by decide +kernel), (by decide +kernel), (by decide +kernel), (by decide +kernel),
     (by unfold MbxTakes Reaches; decide +kernel), (by decide +kernel), (by decide +kernel)⟩,
   ⟨7, host, (by unfold MbxFree Reaches; decide +kernel)⟩,
   ⟨5, host, (by unfold CanOn; decide +kernel), (by decide +kernel)⟩,
   ⟨{ rst 2 2 with sumWait := some (3, []) }, (3, []), (by decide +kernel), (by decide +kernel), (by decide +kernel), (by decide +kernel),
     (by decide +kernel)⟩⟩

/-! ## WellFormed refuses an ill-formed command of each check -/

theorem test_wf_range : (Instr.registerWrite (.fn 0) 0xFFFFFFF [1, 2]).wf = false ∧ (Instr.rcFieldRead (.fn 0) 0 0).wf = false ∧
    (Instr.registerWrite (.fn 0) 0xFFFFFFE [1, 2]).wf = true := by decide +kernel

theorem test_wf_aligned : (Instr.latched64Read (.fn 0) 6).wf = false ∧ (Instr.latched64Write (.fn 0) 2 0).wf = false ∧
    (Instr.doorbell 0 0x102 0).wf = false ∧ (Instr.doorbell 0 0x100 0).wf = true := by decide +kernel

theorem test_wf_context : (Instr.contextLoad 0 { ctx0 with f := List.replicate 31 0 }).wf = false := by decide +kernel

theorem test_wf_transaction : (Instr.write env7 (xb 0 3 0x40 [1, 2])).wf = false ∧ (Instr.read env7 (xb 0 0 0x40 [])).wf = false ∧
    (Instr.read env7 (xb 0 8 0x40 [1])).wf = false ∧ (Instr.write env7 (xb 0 257 0x40 (List.replicate 257 0))).wf = false ∧
    (Instr.write env7 (xb 0 256 0x40 (List.replicate 256 0))).wf = true := by decide +kernel

theorem test_wf_signal : (Instr.pegAddOp env7 (xb 0 2 0x40 [1, 0])).wf = false ∧ (Instr.raiseUp env7 (xb 0 1 0x40 [1])).wf = false := by
  decide +kernel

theorem test_wf_answer : (Instr.readData env7 (xb 0 8 0x40 [1])).wf = false ∧ (Instr.ack env7 (xb 0 0 0x40 [1])).wf = false := by
  decide +kernel

theorem test_wf_lengths : (Instr.probeSlot 0 []).wf = false ∧ (Instr.frameReceived 0 (List.replicate 41 0) false).wf = false ∧
    (Instr.frameReceived 0 (List.replicate 520 0) false).wf = false ∧ (Instr.canInit (List.replicate 65 0)).wf = false ∧
    (Instr.canSeg (List.replicate 65 0)).wf = false ∧ (Instr.fabricControlArrival env7 0x20 (List.replicate 33 0)).wf = false := by
  decide +kernel

theorem test_wf_windows : (Instr.bar2Read 0 0xFFFFFFFFF 2).wf = false ∧ (Instr.stageWrite (.fn 0) 2047 [1, 2]).wf = false ∧
    (Instr.sillScan [(4096, 0)]).wf = false ∧ (Instr.acquireChain (.engWeight 0 0 0) []).wf = false ∧
    (Instr.mbxWrite 0 ⟨1, 1, 0, 2, 7⟩ [1]).wf = false ∧ (Instr.logRecord { lev with payload := List.replicate 33 0 }).wf = false := by
  decide +kernel

/-! ## Worked examples of the spec -/

/-- CRC32C.D then CRC32C.B over "123456789" (R81): the check value 0xE3069283. -/
theorem test_crc32c : ∀ s1 s2, exec (.crc32c 0 3 (rf 5 5 6)) (hart0 { Hart.reset with x := [(5, 0xFFFFFFFF), (6, 0x3837363534333231), (7, 0x39)] } rdy)
      = .next s1 → exec (.crc32c 0 0 (rf 5 5 7)) s1 = .next s2 → (s2.hart 0).rn 5 ^^^ 0xFFFFFFFF = 0xE3069283 := by
  intro s1 s2 h1 h2
  cases h1
  cases h2
  decide +kernel

/-- FP32 to E4M3 (R91): 0.3, 464, 500, −2^−10 and +∞. -/
theorem test_e4m3 : satConvert e4m3 (decodeF fp32 0x3E99999A) = (0x2A, { nx := true }) ∧
    satConvert e4m3 (decodeF fp32 0x43E80000) = (0x7E, { nx := true }) ∧
    satConvert e4m3 (decodeF fp32 0x43FA0000) = (0x7E, { nx := true, of := true }) ∧
    satConvert e4m3 (decodeF fp32 0xBA800000) = (0x80, { nx := true, uf := true }) ∧
    satConvert e4m3 (decodeF fp32 0x7F800000) = (0x7E, { nx := true, of := true }) := by decide +kernel

/-- Ring identifiers of the addressing chapter. -/
theorem test_ring_ids : ringId (.engWeight 5 10 3) = 0x55283 ∧ ringId (.engIn 15 3 15) = 0x403FF ∧ ringId (.link 1 20 7) = 0x10147 := by decide +kernel

/-- Local HBM with bay 5 retired and 8 GiB bay-local (R143, R144). -/
theorem test_hbm_home : hbmHome [0, 1, 2, 3, 4, 6, 7] 8 0x1234567000 = (2, 0x299C33000) ∧
    hbmHome [0, 1, 2, 3, 4, 6, 7] 8 0x4800001000 = (1, 0xA00001000) := by decide +kernel

/-- FLOW of core 37's GST to 0x0031_0000_9000_0000, and the port it selects (R217). -/
theorem test_flow : flowOf 0x90000000 37 0x31 = 596 ∧ [4, 5, 9, 12][596 % 4]? = some 4 := by decide +kernel

/-- The fault record of sequence number 0x1F42 (R157). -/
theorem test_fault_record :
    (fqBytes 37 0 ⟨1, 1, 3, false, false, 0x1F42, 0x31000090000000, 8, 0⟩).take 8 = leBytes 8 0x1F4200030101 := by decide +kernel

/-- A doorbell 65 tasks ahead of RETIRE stops a queue of 64 with OVERRUN; 64 tasks ahead it does not (R182). -/
theorem test_doorbell_overrun :
    let s := sets [(R.DSP_Q_LOG2SIZE 0 0, 6), (R.DSP_Q_RETIRE 0 0, 0xFFF0)] q0
    (ringDoorbell 0 0 0x31 s).bit (R.DSP_Q_STOPPED 0 0) = true ∧ (ringDoorbell 0 0 0x31 s).get (R.DSP_Q_TAIL 0 0) = 1 ∧
      (ringDoorbell 0 0 0x30 s).get (R.DSP_Q_TAIL 0 0) = 0x30 := by decide +kernel

/-- One row in P6 (R97): code 63, β −0.25, γ 1.015625, O = Q = 31, g 4, S 62, ρ 2^−7, σ 0.5. -/
theorem test_engine_row : engineOut false 63 (-64) 0x4100 31 31 4 62 0x2000 0x3800 = 0x4790 := by decide +kernel


/-! ## The queue -/

/-- The command in front leaves the queue; an empty queue idles a tick. -/
theorem test_front_leaves : (match step { rdy with pending := [.fenceI 3, .fenceI 4] } with | .next t => t.pending == [.fenceI 4] | _ => false) = true := by
  decide +kernel

theorem test_no_word_spells_a_command : decodeTableWord 16 0 = none := rfl

end Sys2Proof.Tests
end

section
/-!
PROOF. No command touches the queue of the commands behind it. Of every operation `f` of the model, in the order of the model's files,
`f_pending` says that `f` keeps the queue, and of every command `c` `execC_leavesQueue` that its next state has the queue it was given: each is a
composition of operations that keep it, branch by branch. An operation that takes another as an argument keeps the queue where its argument does.
-/

namespace Sys2Proof.Machine

/-! ## Lists and branches -/

@[simp] theorem pending_ite (p : Prop) [Decidable p] (s t : State) : (if p then s else t).pending = if p then s.pending else t.pending :=
  apply_ite _ _ _ _

@[simp] theorem snd_ite {α β : Type} (p : Prop) [Decidable p] (s t : α × β) : (if p then s else t).2 = if p then s.2 else t.2 :=
  apply_ite _ _ _ _

/-- A fold keeps what each of its steps keeps. -/
theorem foldl_keeps {α β γ : Type} (g : β → γ) (f : β → α → β) (l : List α) (b : β) (h : ∀ b x, g (f b x) = g b) : g (l.foldl f b) = g b := by
  induction l generalizing b with
  | nil => rfl
  | cons x l ih => exact (ih (f b x)).trans (h b x)

@[simp] theorem foldl_pending {α : Type} (l : List α) (f : State → α → State) (s : State) (h : ∀ t x, (f t x).pending = t.pending) :
    (l.foldl f s).pending = s.pending :=
  foldl_keeps State.pending f l s h

@[simp] theorem foldl_snd_pending {α β : Type} (l : List α) (f : β × State → α → β × State) (b : β × State)
    (h : ∀ b x, (f b x).2.pending = b.2.pending) : (l.foldl f b).2.pending = b.2.pending :=
  foldl_keeps (·.2.pending) f l b h

theorem foldl_snd_snd_pending {α β γ : Type} (l : List α) (f : β × γ × State → α → β × γ × State) (b : β × γ × State)
    (h : ∀ b x, (f b x).2.2.pending = b.2.2.pending) : (l.foldl f b).2.2.pending = b.2.2.pending :=
  foldl_keeps (·.2.2.pending) f l b h

/-! ## Outcomes -/

/-- An outcome of a command at `s` that answers a next state answers one with the queue of `s`. -/
def LeavesQueue (s : State) (o : Out) : Prop := ∀ t, o = .next t → t.pending = s.pending

@[simp] theorem leavesQueue_next (s t : State) : LeavesQueue s (.next t) ↔ t.pending = s.pending := by simp [LeavesQueue]

@[simp] theorem leavesQueue_fault (s : State) (r : Fault) : LeavesQueue s (.fault r) := by simp [LeavesQueue]

@[simp] theorem leavesQueue_refused (s : State) (r : Refusal) : LeavesQueue s (.refused r) := by simp [LeavesQueue]

/-- A meaning that keeps the queue keeps it under `attempt`, whichever of its outcomes it has. -/
@[simp] theorem attempt_leavesQueue (f : State → State) (s : State) (h : ∀ t, (f t).pending = t.pending) : LeavesQueue s (attempt f s) := by
  rcases attempt_cases f s with e | e | ⟨n, -, -, e⟩ <;> simp [e, h]

/-! ## Operations of Ops.lean -/

theorem State.set_pending (s : State) (f : Fld) (v : Nat) : (s.set f v).pending = s.pending := rfl
theorem State.setBit_pending (s : State) (f : Fld) (b : Bool) : (s.setBit f b).pending = s.pending := rfl
theorem State.incWrap_pending (s : State) (f : Fld) (n : Nat) : (s.incWrap f n).pending = s.pending := rfl
theorem State.incSat_pending (s : State) (f : Fld) (n : Nat) : (s.incSat f n).pending = s.pending := rfl
theorem State.free_pending (s : State) : (s.free).2.pending = s.pending := rfl
@[simp] theorem State.undef_pending (s : State) (n : Nat) : (s.undef n).pending = s.pending := by simp [State.undef]
theorem State.stall_pending (s : State) : (s.stall).pending = s.pending := rfl
theorem State.answer_pending (s : State) (r : Reply) : (s.answer r).pending = s.pending := rfl
@[simp] theorem fireVec_pending (f v : Nat) (s : State) : (fireVec f v s).pending = s.pending := by simp [fireVec]
@[simp] theorem msixFlush_pending (f : Nat) (s : State) : (msixFlush f s).pending = s.pending := by simp [msixFlush]
theorem State.aerReport_pending (s : State) (f : Nat) : (s.aerReport f).pending = s.pending := rfl
theorem State.odInc_pending (s : State) (a i w : Nat) : (s.odInc a i w).pending = s.pending := rfl

@[simp] theorem canSend_pending (fn : Nat) (txn : Option Nat) (bs : List Byte) (s : State) : (canSend fn txn bs s).pending = s.pending := by
  simp [canSend]

@[simp] theorem setAlert_pending (k : Nat) (s : State) : (setAlert k s).pending = s.pending := by simp [setAlert]
@[simp] theorem logFull_pending (cause : Nat) (s : State) : (logFull cause s).pending = s.pending := by simp [logFull]

@[simp] theorem logAccept_pending (sev src code flags : Nat) (payload : List Byte) (s : State) :
    (logAccept sev src code flags payload s).pending = s.pending := by simp [logAccept]

@[simp] theorem logFlagged_pending (emcy : Bool) (subsystem unit code : Nat) (bytes : List Byte) (s : State) :
    (logFlagged emcy subsystem unit code bytes s).pending = s.pending := by simp [logFlagged]

@[simp] theorem logEvent_pending (subsystem unit code : Nat) (bytes : List Byte) (s : State) :
    (logEvent subsystem unit code bytes s).pending = s.pending := by simp [logEvent]

@[simp] theorem logAlert_pending (k subsystem unit code : Nat) (bytes : List Byte) (s : State) :
    (logAlert k subsystem unit code bytes s).pending = s.pending := by simp [logAlert]

@[simp] theorem grant_pending (h : Nat) (rs : List Nat) (s : State) : (grant h rs s).pending = s.pending := by simp [grant]
@[simp] theorem releasePermits_pending (p : Nat → Bool) (s : State) : (releasePermits p s).pending = s.pending := by simp [releasePermits]
@[simp] theorem freePermits_pending (rs : List Nat) (s : State) : (freePermits rs s).pending = s.pending := by simp [freePermits]

@[simp] theorem cmdWrite_pending (c : CmdReg) (eff : State → State) (s : State) (heff : ∀ t, (eff t).pending = t.pending) :
    (cmdWrite c eff s).pending = s.pending := by simp [cmdWrite, heff]

@[simp] theorem cmdReserved_pending (c : CmdReg) (s : State) : (cmdReserved c s).pending = s.pending := by
  unfold cmdReserved
  split <;> simp

/-! ## Operations of Access.lean -/

@[simp] theorem inBay_pending (n : Nat) (f : State → State) (s : State) (hf : ∀ t, (f t).pending = t.pending) :
    (inBay n f s).pending = s.pending := by simp [inBay, hf]

@[simp] theorem gated_pending (r : Requester) (a : Nat) (eff : State → State) (s : State) (heff : ∀ t, (eff t).pending = t.pending) :
    (gated r a eff s).pending = s.pending := by
  unfold gated
  split <;> simp [heff]

/-! ## Operations of Memory.lean -/

@[simp] theorem atHome_pending (k : Nat) (s : State) : (atHome k s).pending = s.pending := by simp [atHome]
@[simp] theorem eccError_pending (k : Nat) (s : State) : (eccError k s).pending = s.pending := by simp [eccError]

@[simp] theorem putBytes_pending (n : Nat) (l : List Byte) (s : State) : (putBytes n l s).pending = s.pending := by
  fun_induction putBytes n l s <;> simp_all

@[simp] theorem writeHome_pending (k : Nat) (bs : List Byte) (s : State) : (writeHome k bs s).pending = s.pending := by simp [writeHome]

@[simp] theorem agentLeaf_pending (t va : Nat) (s : State) : (agentLeaf t va s).2.pending = s.pending := by
  -- The equation of `agentLeaf` is taken of the function itself: applied, the kernel would evaluate `State.place` to compare the two
  -- sides.
  obtain ⟨f, hf⟩ : ∃ f, f = agentLeaf := ⟨_, rfl⟩
  rw [← hf]
  delta agentLeaf at hf
  have hs := congrFun (congrFun (congrFun hf t) va) s
  rw [hs]
  extract_lets root asid vpn
  cases s.place (root * 4096) with
  | mem k =>
    simp only [snd_ite, pending_ite]
    cases s.atc.find? (tlbCovers t asid vpn) with
    | some e => simp
    | none => cases walk s va 4 root <;> simp
  | _ => simp

@[simp] theorem agentXlate_pending (t va : Nat) (wr : Bool) (s : State) : (agentXlate t va wr s).2.pending = s.pending := by
  grind [agentXlate, agentLeaf_pending, atHome_pending]

@[simp] theorem agentRange_pending (t : Nat) (wr : Bool) (l : List (Nat × Nat)) (s : State) :
    (agentRange t wr l s).2.pending = s.pending := by
  fun_induction agentRange t wr l s <;> grind [agentXlate_pending]

@[simp] theorem writePieces_pending (l : List (Nat × Nat)) (l' : List Byte) (s : State) : (writePieces l l' s).pending = s.pending := by
  fun_induction writePieces l l' s <;> simp_all

@[simp] theorem agentRead_pending (t va n : Nat) (s : State) : (agentRead t va n s).2.pending = s.pending := by
  grind [agentRead, agentRange_pending, eccError_pending]

@[simp] theorem agentWrite_pending (t va : Nat) (bs : List Byte) (s : State) : (agentWrite t va bs s).2.pending = s.pending := by
  grind [agentWrite, agentRange_pending, writePieces_pending]

/-! ## Operations of Hart.lean -/

theorem State.putHart_pending (s : State) (c : Nat) (h : Hart) : (s.putHart c h).pending = s.pending := rfl

@[simp] theorem onHart_pending (c : Nat) (f : State → State) (s : State) (hf : ∀ t, (f t).pending = t.pending) :
    (onHart c f s).pending = s.pending := by simp [onHart, hf]

@[simp] theorem retireRd_pending (c : Nat) (rd : XReg) (v : Nat) (s : State) : (retireRd c rd v s).pending = s.pending := by simp [retireRd]
@[simp] theorem retire_pending (c : Nat) (s : State) : (retire c s).pending = s.pending := by simp [retire]
@[simp] theorem wakeRd_pending (c : Nat) (rd : XReg) (v : Nat) (s : State) : (wakeRd c rd v s).pending = s.pending := by simp [wakeRd]
@[simp] theorem except_pending (c code tval : Nat) (s : State) : (except c code tval s).pending = s.pending := by simp [except]
@[simp] theorem illegal_pending (c : Nat) (s : State) : (illegal c s).pending = s.pending := by simp [illegal]
@[simp] theorem pegFault_pending (c operand : Nat) (s : State) : (pegFault c operand s).pending = s.pending := by simp [pegFault]

@[simp] theorem remoteFault_pending (c addr reason : Nat) (s : State) : (remoteFault c addr reason s).pending = s.pending := by
  simp [remoteFault]

@[simp] theorem hartLeaf_pending (c : Nat) (k : AccKind) (va : Nat) (s : State) : (hartLeaf c k va s).2.pending = s.pending := by
  grind [hartLeaf, State.putHart_pending, eccError_pending, State.stall_pending]

@[simp] theorem hartResolve_pending (c : Nat) (k : AccKind) (va n : Nat) (s : State) : (hartResolve c k va n s).2.pending = s.pending := by
  grind [hartResolve, atHome_pending, hartLeaf_pending]

@[simp] theorem l1dEvict_pending (c b : Nat) (s : State) : (l1dEvict c b s).pending = s.pending := by
  grind [l1dEvict, State.putHart_pending, writeHome_pending]

@[simp] theorem l1dFill_pending (c : Nat) (l : CacheLine) (s : State) : (l1dFill c l s).pending = s.pending := by simp [l1dFill]

@[simp] theorem l1dLine_pending (c k : Nat) (s : State) : (l1dLine c k s).2.pending = s.pending := by
  unfold l1dLine
  split <;> simp

@[simp] theorem dataRead_pending (c : Nat) (p : DataPath) (n : Nat) (s : State) : (dataRead c p n s).2.pending = s.pending := by
  cases p <;> grind [dataRead, l1dLine_pending, eccError_pending]

@[simp] theorem dataWrite_pending (c : Nat) (p : DataPath) (bs : List Byte) (s : State) : (dataWrite c p bs s).2.pending = s.pending := by
  cases p <;> grind [dataWrite, l1dLine_pending, State.putHart_pending, writeHome_pending]

@[simp] theorem l1dWriteBack_pending (c : Nat) (s : State) : (l1dWriteBack c s).pending = s.pending := by simp [l1dWriteBack]
@[simp] theorem l1dInvalidate_pending (c : Nat) (s : State) : (l1dInvalidate c s).pending = s.pending := by simp [l1dInvalidate]

@[simp] theorem fqWrite_pending (c : Nat) (r : FqRec) (s : State) : (fqWrite c r s).pending = s.pending := by
  grind [fqWrite, State.putHart_pending, logEvent_pending, writeHome_pending]

/-! ## Operations of Fabric.lean -/

@[simp] theorem sendXact_pending (dst flow : Nat) (x : Xact) (s : State) : (sendXact dst flow x s).pending = s.pending := by simp [sendXact]

@[simp] theorem sendRequest_pending (c t dst op attr size iseq addr : Nat) (data : List Byte) (s : State) :
    (sendRequest c t dst op attr size iseq addr data s).pending = s.pending := by simp [sendRequest]

@[simp] theorem sendAnswer_pending (env : Envelope) (x : XBody) (op attr : Nat) (data : List Byte) (s : State) :
    (sendAnswer env x op attr data s).pending = s.pending := by simp [sendAnswer]

@[simp] theorem postIssue_pending (c : Nat) (p : Posted) (s : State) : (postIssue c p s).pending = s.pending := by simp [postIssue]
@[simp] theorem post_pending (c : Nat) (p : Posted) (s : State) : (post c p s).pending = s.pending := by simp [post]

/-! ## Operations of Pegs.lean -/

@[simp] theorem setTsum_pending (k t : Nat) (s : State) : (setTsum k t s).pending = s.pending := by simp [setTsum]
@[simp] theorem fireWatches_pending (p : Nat) (s : State) : (fireWatches p s).pending = s.pending := by simp [fireWatches]

@[simp] theorem answerWait_pending (c v : Nat) (s : State) : (answerWait c v s).pending = s.pending := by
  unfold answerWait
  split <;> simp

@[simp] theorem serveTakes_pending (p n : Nat) (s : State) : (serveTakes p n s).pending = s.pending := by
  fun_induction serveTakes p n s <;> grind [State.free_pending, State.set_pending, answerWait_pending]

@[simp] theorem releaseRaisers_pending (q : Nat) (s : State) : (releaseRaisers q s).pending = s.pending := by
  unfold releaseRaisers
  refine foldl_pending _ _ _ fun t x => ?_
  dsimp only
  split <;> simp

@[simp] theorem answerUps_pending (q : Nat) (s : State) : (answerUps q s).pending = s.pending := by simp [answerUps]
@[simp] theorem pegChanged_pending (p : Nat) (s : State) : (pegChanged p s).pending = s.pending := by simp [pegChanged]
@[simp] theorem pegAddHome_pending (p n : Nat) (s : State) : (pegAddHome p n s).pending = s.pending := by simp [pegAddHome]
@[simp] theorem pegSubHome_pending (p n : Nat) (s : State) : (pegSubHome p n s).pending = s.pending := by simp [pegSubHome]
@[simp] theorem signalPeg_pending (t p : Nat) (s : State) : (signalPeg t p s).pending = s.pending := by simp [signalPeg]

@[simp] theorem raiseRelease_pending (c ph : Nat) (link : Option Nat) (s : State) : (raiseRelease c ph link s).pending = s.pending := by
  unfold raiseRelease
  split <;> simp

@[simp] theorem sendUp_pending (k : Nat) (s : State) : (sendUp k s).pending = s.pending := by simp [sendUp]

@[simp] theorem raiseComplete_pending (c ph : Nat) (s : State) : (raiseComplete c ph s).pending = s.pending := by
  unfold raiseComplete
  split <;> simp

@[simp] theorem arrive_pending (c n : Nat) (s : State) : (arrive c n s).pending = s.pending := by simp [arrive]

@[simp] theorem pegLocal_pending (c : Nat) (f : RFields) (eff : Nat → Nat → State → State) (s : State) (heff : ∀ a b t,
    (eff a b t).pending = t.pending) :
    (pegLocal c f eff s).pending = s.pending := by simp [pegLocal, heff]

@[simp] theorem pegPost_pending (c : Nat) (kind : PostKind) (f : RFields) (s : State) : (pegPost c kind f s).pending = s.pending := by
  simp [pegPost]

@[simp] theorem pegAdd_pending (c : Nat) (f : RFields) (s : State) : (pegAdd c f s).pending = s.pending := by simp [pegAdd]
@[simp] theorem pegSub_pending (c : Nat) (f : RFields) (s : State) : (pegSub c f s).pending = s.pending := by simp [pegSub]
@[simp] theorem pegWaitge_pending (c : Nat) (f : RFields) (s : State) : (pegWaitge c f s).pending = s.pending := by simp [pegWaitge]
@[simp] theorem pegTake_pending (c : Nat) (f : RFields) (s : State) : (pegTake c f s).pending = s.pending := by simp [pegTake]
@[simp] theorem pegRead_pending (c : Nat) (f : RFields) (s : State) : (pegRead c f s).pending = s.pending := by simp [pegRead]
@[simp] theorem raiseInstr_pending (c : Nat) (f : RFields) (s : State) : (raiseInstr c f s).pending = s.pending := by simp [raiseInstr]

@[simp] theorem timedRelease_pending (k : Nat) (s : State) : (timedRelease k s).pending = s.pending := by
  unfold timedRelease
  split <;> simp

@[simp] theorem clearBlock_pending (b : Nat) (s : State) : (clearBlock b s).pending = s.pending := by simp [clearBlock]
@[simp] theorem blockEffect_pending (cmd t b : Nat) (s : State) : (blockEffect cmd t b s).pending = s.pending := by simp [blockEffect]
@[simp] theorem blockCommand_pending (cmd : Nat) (s : State) : (blockCommand cmd s).pending = s.pending := by simp [blockCommand]

@[simp] theorem recheckHarts_pending (inRange : Nat → Bool) (s : State) : (recheckHarts inRange s).pending = s.pending := by
  unfold recheckHarts
  refine foldl_pending _ _ _ fun t x => ?_
  dsimp only
  split <;> simp

@[simp] theorem recheckWatches_pending (inRange : Nat → Bool) (s : State) : (recheckWatches inRange s).pending = s.pending := by
  simp [recheckWatches]

@[simp] theorem endUps_pending (inRange : Nat → Bool) (s : State) : (endUps inRange s).pending = s.pending := by simp [endUps]

/-! ## Operations of Calib.lean -/

@[simp] theorem State.setSmall_pending (s : State) (table unit field : Nat) (v : Int) :
    (s.setSmall table unit field v).pending = s.pending := by simp [State.setSmall]

/-! ## Operations of ScbCore.lean -/

@[simp] theorem scbLog_pending (r : ScbReq) (result check : Nat) (value : Int) (s : State) :
    (scbLog r result check value s).pending = s.pending := by simp [scbLog]

@[simp] theorem scbUndrain_pending (r : ScbReq) (s : State) : (scbUndrain r s).pending = s.pending := by
  unfold scbUndrain
  refine foldl_pending _ _ _ fun t e => ?_
  split <;> simp

@[simp] theorem scbEnd_pending (r : ScbReq) (result check : Nat) (s : State) : (scbEnd r result check s).pending = s.pending := by
  simp [scbEnd]

@[simp] theorem scbPutQueue_pending (q : List ScbReq) (s : State) : (scbPutQueue q s).pending = s.pending := by simp [scbPutQueue]
@[simp] theorem scbStop_pending (s : State) : (scbStop s).pending = s.pending := by simp [scbStop]

@[simp] theorem scbRecheck_pending (s : State) : (scbRecheck s).pending = s.pending := by
  unfold scbRecheck
  dsimp only
  split <;> simp

@[simp] theorem scbAbortRun_pending (p : Nat → Bool) (s : State) : (scbAbortRun p s).pending = s.pending := by
  unfold scbAbortRun
  split <;> simp

/-! ## Operations of Tiles.lean -/

theorem State.putEng_pending (s : State) (e : Nat) (g : Eng) : (s.putEng e g).pending = s.pending := rfl
theorem State.putWq_pending (s : State) (k : Nat) (q : WorkQ) : (s.putWq k q).pending = s.pending := rfl
theorem State.putFallback_pending (s : State) (b : Nat) (ts : List Tile) : (s.putFallback b ts).pending = s.pending := rfl

@[simp] theorem translatePages_pending (t : Nat) (wr : Bool) (l : List Nat) (s : State) :
    (translatePages t wr l s).2.pending = s.pending := by
  fun_induction translatePages t wr l s <;> grind [agentLeaf_pending]

@[simp] theorem readHome_pending (ps : List (Nat × Nat)) (s : State) : (readHome ps s).2.2.pending = s.pending := by
  unfold readHome
  exact foldl_snd_snd_pending _ _ _ fun b x => by simp

@[simp] theorem tileChecks_pending (t : Tile) (s : State) : (tileChecks t s).2.pending = s.pending := by
  grind [tileChecks, translatePages_pending]

@[simp] theorem stopQueue_pending (t q err : Nat) (s : State) : (stopQueue t q err s).pending = s.pending := by simp [stopQueue]

@[simp] theorem advanceRetire_pending (t q n : Nat) (s : State) : (advanceRetire t q n s).pending = s.pending := by
  fun_induction advanceRetire t q n s <;> simp_all

@[simp] theorem advanceHead_pending (t q n : Nat) (s : State) : (advanceHead t q n s).pending = s.pending := by
  fun_induction advanceHead t q n s <;> simp_all

@[simp] theorem putTask_pending (k : Nat) (x : Task) (s : State) : (putTask k x s).pending = s.pending := by simp [putTask]

@[simp] theorem taskEnd_pending (t q i outcome err reason : Nat) (cpeg : Option Nat) (s : State) :
    (taskEnd t q i outcome err reason cpeg s).pending = s.pending := by
  grind [taskEnd, agentWrite_pending, stopQueue_pending, putTask_pending, State.incWrap_pending, advanceHead_pending,
    advanceRetire_pending, signalPeg_pending]

@[simp] theorem recordTicket_pending (c slot serial outcome err : Nat) (s : State) :
    (recordTicket c slot serial outcome err s).pending = s.pending := by
  grind [recordTicket, wakeRd_pending, State.putHart_pending]

@[simp] theorem tileEnd_pending (t : Tile) (outcome reason : Nat) (s : State) : (tileEnd t outcome reason s).pending = s.pending := by
  grind [tileEnd, State.putEng_pending, signalPeg_pending, recordTicket_pending, State.putHart_pending, taskEnd_pending]

@[simp] theorem badDesc_pending (t : Tile) (reason : Nat) (s : State) : (badDesc t reason s).pending = s.pending := by simp [badDesc]

@[simp] theorem tileTask_pending (t : Tile) (st : TaskState) (s : State) : (tileTask t st s).pending = s.pending := by
  unfold tileTask
  split <;> simp

@[simp] theorem routeDigital_pending (t : Tile) (s : State) : (routeDigital t s).2.pending = s.pending := by
  grind [routeDigital, tileChecks_pending, badDesc_pending]

/-! ## Operations of Engine.lean -/

@[simp] theorem weirCold_pending (e : Nat) (s : State) : (weirCold e s).pending = s.pending := by simp [weirCold]
@[simp] theorem setErrs_pending (e : Nat) (v : Nat → Nat) (s : State) : (setErrs e v s).pending = s.pending := by simp [setErrs]
@[simp] theorem engEnter_pending (e st : Nat) (s : State) : (engEnter e st s).pending = s.pending := by simp [engEnter]

@[simp] theorem engIdleSeeded_pending (e : Nat) (fromAcquiring : Bool) (s : State) :
    (engIdleSeeded e fromAcquiring s).pending = s.pending := by simp [engIdleSeeded]

@[simp] theorem enqueueTile_pending (t : Tile) (s : State) : (enqueueTile t s).pending = s.pending := by
  grind [enqueueTile, State.putEng_pending, routeDigital_pending, State.incWrap_pending]

@[simp] theorem acceptTile_pending (desc : List Byte) (tenant bay : Nat) (src : TileSrc) (s : State) :
    (acceptTile desc tenant bay src s).pending = s.pending := by simp [acceptTile]

@[simp] theorem tileExceeded_pending (t : Tile) (v cause : Nat) (s : State) : (tileExceeded t v cause s).pending = s.pending := by
  simp [tileExceeded]

@[simp] theorem routeAll_pending (e : Nat) (l : List Tile) (s : State) : (routeAll e l s).2.pending = s.pending := by
  fun_induction routeAll e l s <;> grind [routeDigital_pending, State.incWrap_pending]

@[simp] theorem routeQueued_pending (e : Nat) (s : State) : (routeQueued e s).pending = s.pending := by simp [routeQueued]

@[simp] theorem dropTiles_pending (e : Nat) (strictFalls : Bool) (s : State) : (dropTiles e strictFalls s).pending = s.pending := by
  grind [dropTiles, State.putEng_pending, routeQueued_pending, tileExceeded_pending, State.incWrap_pending]

@[simp] theorem engineFault_pending (e st : Nat) (s : State) : (engineFault e st s).pending = s.pending := by simp [engineFault]
@[simp] theorem markEngineOut_pending (e cause : Nat) (s : State) : (markEngineOut e cause s).pending = s.pending := by simp [markEngineOut]

@[simp] theorem stagingStart_pending (e : Nat) (s : State) : (stagingStart e s).pending = s.pending := by
  grind [stagingStart, State.putEng_pending, tileChecks_pending, badDesc_pending]

@[simp] theorem stageTile_pending (e : Nat) (t : Tile) (s : State) : (stageTile e t s).2.pending = s.pending := by
  grind [stageTile, readHome_pending, State.incSat_pending]

@[simp] theorem weightsArrived_pending (e : Nat) (s : State) : (weightsArrived e s).pending = s.pending := by
  grind [weightsArrived, stageTile_pending, State.putEng_pending]

@[simp] theorem swapShadow_pending (e : Nat) (s : State) : (swapShadow e s).pending = s.pending := by
  grind [swapShadow, State.putEng_pending]

@[simp] theorem engineFree_pending (e : Nat) (s : State) : (engineFree e s).pending = s.pending := by
  grind [engineFree, swapShadow_pending, engEnter_pending, routeQueued_pending, State.incSat_pending]

@[simp] theorem tileStart_pending (e : Nat) (s : State) : (tileStart e s).pending = s.pending := by
  grind [tileStart, State.incWrap_pending, State.putEng_pending, tileTask_pending, swapShadow_pending, engEnter_pending,
    tileExceeded_pending]

@[simp] theorem reloadComplete_pending (e : Nat) (s : State) : (reloadComplete e s).pending = s.pending := by simp [reloadComplete]
@[simp] theorem readVector_pending (t : Tile) (i : Nat) (s : State) : (readVector t i s).2.2.2.2.pending = s.pending := by simp [readVector]

@[simp] theorem writeRecord_pending (t : Tile) (i : Nat) (ys : List Nat) (s : State) : (writeRecord t i ys s).pending = s.pending := by
  simp [writeRecord]

@[simp] theorem vectorSlot_pending (e : Nat) (ready : Bool) (codes : List Byte) (s : State) :
    (vectorSlot e ready codes s).pending = s.pending := by
  grind [vectorSlot, State.incSat_pending, State.putEng_pending, readVector_pending, writeRecord_pending, State.incWrap_pending]

@[simp] theorem tileComplete_pending (e : Nat) (s : State) : (tileComplete e s).pending = s.pending := by
  grind [tileComplete, engineFree_pending, tileEnd_pending, State.putEng_pending]

@[simp] theorem probeSlot_pending (e : Nat) (codes : List Byte) (s : State) : (probeSlot e codes s).pending = s.pending := by
  grind [probeSlot, State.putEng_pending, State.incSat_pending, State.incWrap_pending]

@[simp] theorem publishErrors_pending (e : Nat) (s : State) : (publishErrors e s).pending = s.pending := by simp [publishErrors]

@[simp] theorem midTileCheck_pending (e : Nat) (s : State) : (midTileCheck e s).pending = s.pending := by
  grind [midTileCheck, engineFree_pending, tileExceeded_pending, State.putEng_pending, State.incWrap_pending]

@[simp] theorem probeWindowEnd_pending (e : Nat) (s : State) : (probeWindowEnd e s).pending = s.pending := by simp [probeWindowEnd]

@[simp] theorem weirWindowEnd_pending (e : Nat) (s : State) : (weirWindowEnd e s).pending = s.pending := by
  grind [weirWindowEnd, weirCold_pending, probeWindowEnd_pending, publishErrors_pending, State.putEng_pending, State.set_pending,
    midTileCheck_pending]

@[simp] theorem weirSubwindow_pending (e : Nat) (s : State) : (weirSubwindow e s).pending = s.pending := by simp [weirSubwindow]

@[simp] theorem fallbackEngine_pending (b : Nat) (s : State) : (fallbackEngine b s).2.pending = s.pending := by
  grind [fallbackEngine, State.free_pending]

@[simp] theorem fallbackAccept_pending (b : Nat) (s : State) : (fallbackAccept b s).pending = s.pending := by
  grind [fallbackAccept, fallbackEngine_pending, State.putEng_pending, tileTask_pending, State.putFallback_pending]

@[simp] theorem fallbackVector_pending (t : Tile) (st : Staged) (i : Nat) (s : State) : (fallbackVector t st i s).pending = s.pending := by
  simp [fallbackVector]

@[simp] theorem fallbackOrder_pending (t : Tile) (s : State) : (fallbackOrder t s).2.pending = s.pending := by simp [fallbackOrder]
@[simp] theorem fallbackWeights_pending (t : Tile) (s : State) : (fallbackWeights t s).2.pending = s.pending := by simp [fallbackWeights]

@[simp] theorem fallbackComplete_pending (b : Nat) (s : State) : (fallbackComplete b s).pending = s.pending := by
  cases h : s.fallback b with
  | nil => simp [fallbackComplete, h]
  | cons t rest => cases rest <;> simp [fallbackComplete, h]

@[simp] theorem engineReturn_pending (e : Nat) (s : State) : (engineReturn e s).pending = s.pending := by simp [engineReturn]
@[simp] theorem engineSettle_pending (e : Nat) (s : State) : (engineSettle e s).pending = s.pending := by simp [engineSettle]
@[simp] theorem svcOut_pending (e : Nat) (v : Bool) (s : State) : (svcOut e v s).pending = s.pending := by simp [svcOut]

@[simp] theorem execStagingStart_leavesQueue (e : Sys2Proof.Eng) (s : State) : LeavesQueue s (execStagingStart e s) := by
  simp [execStagingStart]

@[simp] theorem execWeightsArrived_leavesQueue (e : Sys2Proof.Eng) (s : State) : LeavesQueue s (execWeightsArrived e s) := by
  simp [execWeightsArrived]

@[simp] theorem execTileStart_leavesQueue (e : Sys2Proof.Eng) (s : State) : LeavesQueue s (execTileStart e s) := by simp [execTileStart]

@[simp] theorem execReloadComplete_leavesQueue (e : Sys2Proof.Eng) (s : State) : LeavesQueue s (execReloadComplete e s) := by
  simp [execReloadComplete]

@[simp] theorem execVectorSlot_leavesQueue (e : Sys2Proof.Eng) (ready : Bool) (codes : List Byte) (s : State) :
    LeavesQueue s (execVectorSlot e ready codes s) := by simp [execVectorSlot]

@[simp] theorem execProbeSlot_leavesQueue (e : Sys2Proof.Eng) (codes : List Byte) (s : State) :
    LeavesQueue s (execProbeSlot e codes s) := by simp [execProbeSlot]

@[simp] theorem execTileComplete_leavesQueue (e : Sys2Proof.Eng) (s : State) : LeavesQueue s (execTileComplete e s) := by
  simp [execTileComplete]

@[simp] theorem execWeirWindowEnd_leavesQueue (e : Sys2Proof.Eng) (s : State) : LeavesQueue s (execWeirWindowEnd e s) := by
  simp [execWeirWindowEnd]

@[simp] theorem execWeirSubwindow_leavesQueue (e : Sys2Proof.Eng) (s : State) : LeavesQueue s (execWeirSubwindow e s) := by
  simp [execWeirSubwindow]

@[simp] theorem execFallbackQueueAccept_leavesQueue (b : Bay) (s : State) : LeavesQueue s (execFallbackQueueAccept b s) := by
  simp [execFallbackQueueAccept]

@[simp] theorem execFallbackComplete_leavesQueue (b : Bay) (s : State) : LeavesQueue s (execFallbackComplete b s) := by
  simp [execFallbackComplete]

/-! ## Operations of Queues.lean -/

@[simp] theorem queueEnableNow_pending (t q : Nat) (s : State) : (queueEnableNow t q s).pending = s.pending := by simp [queueEnableNow]
@[simp] theorem queueDisableNow_pending (t q : Nat) (s : State) : (queueDisableNow t q s).pending = s.pending := by simp [queueDisableNow]
@[simp] theorem qbaseWrite_pending (t q v : Nat) (s : State) : (qbaseWrite t q v s).pending = s.pending := by simp [qbaseWrite]
@[simp] theorem ringDoorbell_pending (t q v : Nat) (s : State) : (ringDoorbell t q v s).pending = s.pending := by simp [ringDoorbell]
@[simp] theorem doorbellWrite_pending (f off v : Nat) (s : State) : (doorbellWrite f off v s).pending = s.pending := by simp [doorbellWrite]
@[simp] theorem doorbellTake_pending (t q : Nat) (s : State) : (doorbellTake t q s).pending = s.pending := by simp [doorbellTake]
@[simp] theorem fetchIssue_pending (t q : Nat) (s : State) : (fetchIssue t q s).pending = s.pending := by simp [fetchIssue]
@[simp] theorem readDesc_pending (t q i : Nat) (s : State) : (readDesc t q i s).2.pending = s.pending := by simp [readDesc]

@[simp] theorem dmaChecks_pending (t : Nat) (d : List Byte) (s : State) : (dmaChecks t d s).2.pending = s.pending := by
  grind [dmaChecks, translatePages_pending]

@[simp] theorem dmaEnd_pending (t q i outcome reason : Nat) (d : List Byte) (s : State) :
    (dmaEnd t q i outcome reason d s).pending = s.pending := by simp [dmaEnd]

@[simp] theorem cpegFail_pending (t q i : Nat) (s : State) : (cpegFail t q i s).pending = s.pending := by simp [cpegFail]
@[simp] theorem offerTile_pending (t q : Nat) (tile : Tile) (s : State) : (offerTile t q tile s).pending = s.pending := by simp [offerTile]

@[simp] theorem descArrived_pending (t q : Nat) (s : State) : (descArrived t q s).pending = s.pending := by
  grind [descArrived, State.putWq_pending, readDesc_pending, stopQueue_pending, State.set_pending, cpegFail_pending, dmaChecks_pending,
    dmaEnd_pending, putTask_pending, tileChecks_pending, badDesc_pending, offerTile_pending]

@[simp] theorem heldAccept_pending (t q : Nat) (s : State) : (heldAccept t q s).pending = s.pending := by
  grind [heldAccept, enqueueTile_pending, tileTask_pending, State.putWq_pending]

theorem dmaWait_pending (d : List Byte) (s : State) : ∀ t, dmaWait d s = some t → t.pending = s.pending := by
  intro t h
  grind [dmaWait, pegChanged_pending, State.set_pending]

@[simp] theorem dmaAct_pending (t q i kind : Nat) (eff : Task → State → State) (s : State) (heff : ∀ a t, (eff a t).pending = t.pending) :
    (dmaAct t q i kind eff s).pending = s.pending := by
  grind [dmaAct, dmaWait_pending]

@[simp] theorem copyStart_pending (t q : Nat) (x : Task) (s : State) : (copyStart t q x s).pending = s.pending := by simp [copyStart]

@[simp] theorem copyFinish_pending (t q i : Nat) (s : State) : (copyFinish t q i s).pending = s.pending := by
  unfold copyFinish
  split <;> simp

@[simp] theorem signalStart_pending (t q : Nat) (x : Task) (s : State) : (signalStart t q x s).pending = s.pending := by simp [signalStart]

@[simp] theorem signalTimeout_pending (t q i : Nat) (s : State) : (signalTimeout t q i s).pending = s.pending := by
  unfold signalTimeout
  split <;> simp

@[simp] theorem removeTile.go_pending (isIt : Tile → Bool) (s : State) : (removeTile.go isIt s).2.pending = s.pending := by
  grind [removeTile.go, State.putEng_pending, State.putFallback_pending]

@[simp] theorem removeTile_pending (t q i : Nat) (s : State) : (removeTile t q i s).2.pending = s.pending := by
  unfold removeTile
  dsimp only
  split <;> simp

@[simp] theorem cancelTask_pending (t q i : Nat) (s : State) : (cancelTask t q i s).pending = s.pending := by
  grind [cancelTask, removeTile_pending, tileEnd_pending, dmaEnd_pending, readDesc_pending, taskEnd_pending, stopQueue_pending]

@[simp] theorem cancelFromNow_pending (s : State) : (cancelFromNow s).pending = s.pending := by simp [cancelFromNow]
@[simp] theorem cancelOneNow_pending (s : State) : (cancelOneNow s).pending = s.pending := by simp [cancelOneNow]
@[simp] theorem resumeNow_pending (s : State) : (resumeNow s).pending = s.pending := by simp [resumeNow]

@[simp] theorem recheckDma_pending (inRange : Nat → Bool) (s : State) : (recheckDma inRange s).pending = s.pending := by
  unfold recheckDma
  refine foldl_pending _ _ _ fun t x => ?_
  dsimp only
  split <;> simp

@[simp] theorem recheckTakes_pending (inRange : Nat → Bool) (s : State) : (recheckTakes inRange s).pending = s.pending := by
  simp [recheckTakes]

@[simp] theorem blockComplete_pending (s : State) : (blockComplete s).pending = s.pending := by
  unfold blockComplete
  split <;> simp

@[simp] theorem watchEn_pending (f w : Nat) (en : Bool) (s : State) : (watchEn f w en s).pending = s.pending := by simp [watchEn]
@[simp] theorem execAssign_leavesQueue (r : Requester) (s : State) : LeavesQueue s (execAssign r s) := by simp [execAssign]
@[simp] theorem execRelease_leavesQueue (r : Requester) (s : State) : LeavesQueue s (execRelease r s) := by simp [execRelease]
@[simp] theorem execClear_leavesQueue (r : Requester) (s : State) : LeavesQueue s (execClear r s) := by simp [execClear]

@[simp] theorem execBlockCommandComplete_leavesQueue (s : State) : LeavesQueue s (execBlockCommandComplete s) := by
  simp [execBlockCommandComplete]

@[simp] theorem execDoorbell_leavesQueue (f : Fn) (off : BitVec 24) (val : BitVec 32) (s : State) :
    LeavesQueue s (execDoorbell f off val s) := by simp [execDoorbell]

@[simp] theorem execPegDoorbellTake_leavesQueue (t : Tenant) (q : QNum) (s : State) : LeavesQueue s (execPegDoorbellTake t q s) := by
  simp [execPegDoorbellTake]

@[simp] theorem execDescriptorFetch_leavesQueue (t : Tenant) (q : QNum) (s : State) : LeavesQueue s (execDescriptorFetch t q s) := by
  simp [execDescriptorFetch]

@[simp] theorem execDescriptorReceived_leavesQueue (t : Tenant) (q : QNum) (s : State) : LeavesQueue s (execDescriptorReceived t q s) := by
  simp [execDescriptorReceived]

@[simp] theorem execEngineQueueAccept_leavesQueue (t : Tenant) (q : QNum) (s : State) : LeavesQueue s (execEngineQueueAccept t q s) := by
  simp [execEngineQueueAccept]

@[simp] theorem execDmaNop_leavesQueue (t : Tenant) (q : QNum) (i : BitVec 16) (s : State) : LeavesQueue s (execDmaNop t q i s) :=
  attempt_leavesQueue _ _ (inBay_pending _ _ · (dmaAct_pending _ _ _ _ _ · (by simp)))

@[simp] theorem execDmaCopy_leavesQueue (t : Tenant) (q : QNum) (i : BitVec 16) (s : State) : LeavesQueue s (execDmaCopy t q i s) :=
  attempt_leavesQueue _ _ (inBay_pending _ _ · (dmaAct_pending _ _ _ _ _ · (by simp)))

@[simp] theorem execDmaCopyComplete_leavesQueue (t : Tenant) (q : QNum) (i : BitVec 16) (s : State) :
    LeavesQueue s (execDmaCopyComplete t q i s) := by simp [execDmaCopyComplete]

@[simp] theorem execDmaSignal_leavesQueue (t : Tenant) (q : QNum) (i : BitVec 16) (s : State) : LeavesQueue s (execDmaSignal t q i s) :=
  attempt_leavesQueue _ _ (inBay_pending _ _ · (dmaAct_pending _ _ _ _ _ · (by simp)))

@[simp] theorem execDmaSignalTimeout_leavesQueue (t : Tenant) (q : QNum) (i : BitVec 16) (s : State) :
    LeavesQueue s (execDmaSignalTimeout t q i s) := by simp [execDmaSignalTimeout]

@[simp] theorem execCancelFrom_leavesQueue (r : Requester) (s : State) : LeavesQueue s (execCancelFrom r s) := by simp [execCancelFrom]
@[simp] theorem execCancelOne_leavesQueue (r : Requester) (s : State) : LeavesQueue s (execCancelOne r s) := by simp [execCancelOne]
@[simp] theorem execResume_leavesQueue (r : Requester) (s : State) : LeavesQueue s (execResume r s) := by simp [execResume]

/-! ## Operations of Sync.lean -/

@[simp] theorem execPegAdd_leavesQueue (c : Core) (f : RFields) (s : State) : LeavesQueue s (execPegAdd c f s) := by simp [execPegAdd]
@[simp] theorem execPegSub_leavesQueue (c : Core) (f : RFields) (s : State) : LeavesQueue s (execPegSub c f s) := by simp [execPegSub]

@[simp] theorem execPegWaitge_leavesQueue (c : Core) (f : RFields) (s : State) : LeavesQueue s (execPegWaitge c f s) := by
  simp [execPegWaitge]

@[simp] theorem execPegTake_leavesQueue (c : Core) (f : RFields) (s : State) : LeavesQueue s (execPegTake c f s) := by simp [execPegTake]
@[simp] theorem execPegRead_leavesQueue (c : Core) (f : RFields) (s : State) : LeavesQueue s (execPegRead c f s) := by simp [execPegRead]
@[simp] theorem execRaise_leavesQueue (c : Core) (f : RFields) (s : State) : LeavesQueue s (execRaise c f s) := by simp [execRaise]
@[simp] theorem execTimedRelease_leavesQueue (k : Fin 256) (s : State) : LeavesQueue s (execTimedRelease k s) := by simp [execTimedRelease]

@[simp] theorem hsFence_pending (c : Nat) (zero : Bool) (eff : State → State) (s : State) (heff : ∀ t, (eff t).pending = t.pending) :
    (hsFence c zero eff s).pending = s.pending := by simp [hsFence, heff]

@[simp] theorem hfenceRel_pending (c : Nat) (f : RFields) (s : State) : (hfenceRel c f s).pending = s.pending := by simp [hfenceRel]
@[simp] theorem hfenceAcq_pending (c : Nat) (f : RFields) (s : State) : (hfenceAcq c f s).pending = s.pending := by simp [hfenceAcq]
@[simp] theorem commitRetire_pending (c : Nat) (rd : XReg) (s : State) : (commitRetire c rd s).pending = s.pending := by simp [commitRetire]

@[simp] theorem hfenceCommit_pending (c : Nat) (f : RFields) (s : State) : (hfenceCommit c f s).pending = s.pending := by
  simp [hfenceCommit]

@[simp] theorem commitTimeout_pending (c : Nat) (s : State) : (commitTimeout c s).pending = s.pending := by
  grind [commitTimeout, wakeRd_pending, State.putHart_pending]

@[simp] theorem execHfenceRel_leavesQueue (c : Core) (f : RFields) (s : State) : LeavesQueue s (execHfenceRel c f s) := by
  simp [execHfenceRel]

@[simp] theorem execHfenceAcq_leavesQueue (c : Core) (f : RFields) (s : State) : LeavesQueue s (execHfenceAcq c f s) := by
  simp [execHfenceAcq]

@[simp] theorem execHfenceCommit_leavesQueue (c : Core) (f : RFields) (s : State) : LeavesQueue s (execHfenceCommit c f s) := by
  simp [execHfenceCommit]

@[simp] theorem execCommitTimeout_leavesQueue (c : Core) (s : State) : LeavesQueue s (execCommitTimeout c s) := by simp [execCommitTimeout]

/-! ## Operations of Remote.lean -/

@[simp] theorem takeOwn_pending (env : Envelope) (op : Nat) (x : XBody) (s : State) : (takeOwn env op x s).pending = s.pending := by
  simp [takeOwn]

@[simp] theorem nack_pending (env : Envelope) (x : XBody) (reason : Nat) (data : List Byte) (s : State) :
    (nack env x reason data s).pending = s.pending := by simp [nack]

@[simp] theorem serve_pending (env : Envelope) (op : Nat) (x : XBody) (eff : Nat → State → State) (s : State) (heff : ∀ a t,
    (eff a t).pending = t.pending) :
    (serve env op x eff s).pending = s.pending := by
  grind [serve, takeOwn_pending, nack_pending, State.incWrap_pending]

@[simp] theorem served_pending (t : Nat) (s : State) : (served t s).pending = s.pending := by simp [served]

@[simp] theorem refusedReq_pending (env : Envelope) (t : Nat) (x : XBody) (reason : Nat) (data : List Byte) (s : State) :
    (refusedReq env t x reason data s).pending = s.pending := by simp [refusedReq]

@[simp] theorem writePages_pending (t : Nat) (l : List (Nat × Nat)) (l' : List Byte) (s : State) :
    (writePages t l l' s).2.2.pending = s.pending := by
  fun_induction writePages t l l' s <;> grind [agentXlate_pending, writeHome_pending]

@[simp] theorem remoteWrite_pending (env : Envelope) (x : XBody) (s : State) : (remoteWrite env x s).pending = s.pending := by
  refine serve_pending _ _ _ _ _ fun t u => ?_
  grind [writePages_pending, sendAnswer_pending, served_pending, refusedReq_pending]

@[simp] theorem remoteRead_pending (env : Envelope) (x : XBody) (s : State) : (remoteRead env x s).pending = s.pending := by
  refine serve_pending _ _ _ _ _ fun t u => ?_
  grind [agentRead_pending, sendAnswer_pending, served_pending, refusedReq_pending]

@[simp] theorem remoteAmo_pending (env : Envelope) (x : XBody) (s : State) : (remoteAmo env x s).pending = s.pending := by
  refine serve_pending _ _ _ _ _ fun t u => ?_
  grind [refusedReq_pending, agentRange_pending, eccError_pending, sendAnswer_pending, served_pending, writePieces_pending]

@[simp] theorem remotePeg_pending (env : Envelope) (op : Nat) (x : XBody) (eff : Nat → Nat → State → State) (s : State) (heff : ∀ a b t,
    (eff a b t).pending = t.pending) :
    (remotePeg env op x eff s).pending = s.pending := by simp [remotePeg, heff]

@[simp] theorem remotePegAdd_pending (env : Envelope) (x : XBody) (s : State) : (remotePegAdd env x s).pending = s.pending := by
  simp [remotePegAdd]

@[simp] theorem remotePegSub_pending (env : Envelope) (x : XBody) (s : State) : (remotePegSub env x s).pending = s.pending := by
  simp [remotePegSub]

@[simp] theorem remoteRaise_pending (env : Envelope) (x : XBody) (s : State) : (remoteRaise env x s).pending = s.pending := by
  simp [remoteRaise]

@[simp] theorem onAnswer_pending (env : Envelope) (op : Nat) (x : XBody) (eff : State → State) (s : State) (heff : ∀ t,
    (eff t).pending = t.pending) :
    (onAnswer env op x eff s).pending = s.pending := by simp [onAnswer, heff]

@[simp] theorem readDataArrived_pending (env : Envelope) (x : XBody) (s : State) : (readDataArrived env x s).pending = s.pending := by
  grind [readDataArrived, wakeRd_pending, State.putHart_pending]

@[simp] theorem amoDataArrived_pending (env : Envelope) (x : XBody) (s : State) : (amoDataArrived env x s).pending = s.pending := by
  grind [amoDataArrived, wakeRd_pending]

@[simp] theorem commitCheck_pending (c : Nat) (s : State) : (commitCheck c s).pending = s.pending := by
  grind [commitCheck, commitRetire_pending]

@[simp] theorem trackAnswer_pending (c : Nat) (e e' : TrackEnt) (s : State) : (trackAnswer c e e' s).pending = s.pending := by
  grind [trackAnswer, State.putHart_pending, fqWrite_pending, commitCheck_pending]

@[simp] theorem lateRecord_pending (c : Nat) (r : FqRec) (s : State) : (lateRecord c r s).pending = s.pending := by simp [lateRecord]

@[simp] theorem lostAnswer_pending (c : Nat) (e e' : TrackEnt) (s : State) : (lostAnswer c e e' s).pending = s.pending := by
  simp [lostAnswer]

@[simp] theorem linkFault_pending (u : UpSent) (s : State) : (linkFault u s).pending = s.pending := by simp [linkFault]

@[simp] theorem ackArrived_pending (env : Envelope) (x : XBody) (s : State) : (ackArrived env x s).pending = s.pending := by
  unfold ackArrived
  split <;> simp

@[simp] theorem nackArrived.other_pending (env : Envelope) (x : XBody) (a reason : Nat) (s : State) :
    (nackArrived.other env x a reason s).pending = s.pending := by
  unfold nackArrived.other
  split <;> simp

@[simp] theorem nackArrived_pending (env : Envelope) (x : XBody) (s : State) : (nackArrived env x s).pending = s.pending := by
  unfold nackArrived
  dsimp only
  split <;> simp

@[simp] theorem ackUnderflowArrived_pending (env : Envelope) (x : XBody) (s : State) :
    (ackUnderflowArrived env x s).pending = s.pending := by
  unfold ackUnderflowArrived
  split <;> simp

@[simp] theorem raiseAnswerArrived_pending (env : Envelope) (x : XBody) (s : State) : (raiseAnswerArrived env x s).pending = s.pending := by
  unfold raiseAnswerArrived
  split <;> simp

@[simp] theorem barPieces_pending (f off n : Nat) (wr : Bool) (s : State) : (barPieces f off n wr s).2.pending = s.pending := by
  grind [barPieces, agentRange_pending]

@[simp] theorem bar2Read_pending (f off n : Nat) (s : State) : (bar2Read f off n s).pending = s.pending := by
  grind [bar2Read, State.answer_pending, State.incSat_pending, barPieces_pending, State.stall_pending, readHome_pending]

@[simp] theorem bar2Write_pending (f off : Nat) (bs : List Byte) (s : State) : (bar2Write f off bs s).pending = s.pending := by
  grind [bar2Write, State.incSat_pending, barPieces_pending, State.aerReport_pending, writePieces_pending]

@[simp] theorem poisonPeg_pending (p : Nat) (s : State) : (poisonPeg p s).pending = s.pending := by simp [poisonPeg]

@[simp] theorem scrub_pending (a : Nat) (found : EccFind) (s : State) : (scrub a found s).pending = s.pending := by
  -- The equation of `scrub` is taken of the function itself, as for `agentLeaf`.
  obtain ⟨f, hf⟩ : ∃ f, f = scrub := ⟨_, rfl⟩
  rw [← hf]
  delta scrub at hf
  have hs := congrFun (congrFun (congrFun hf a) found) s
  rw [hs]
  cases s.place a with
  | mem k => cases found <;> simp
  | device o => dsimp only; split <;> simp
  | unmapped => rfl

@[simp] theorem invalStart_pending (s : State) : (invalStart s).pending = s.pending := by simp [invalStart]
@[simp] theorem invalDone_pending (s : State) : (invalDone s).pending = s.pending := by simp [invalDone]
@[simp] theorem ftagWrite_pending (t v : Nat) (s : State) : (ftagWrite t v s).pending = s.pending := by simp [ftagWrite]
@[simp] theorem execWrite_leavesQueue (env : Envelope) (x : XBody) (s : State) : LeavesQueue s (execWrite env x s) := by simp [execWrite]
@[simp] theorem execRead_leavesQueue (env : Envelope) (x : XBody) (s : State) : LeavesQueue s (execRead env x s) := by simp [execRead]
@[simp] theorem execAmo_leavesQueue (env : Envelope) (x : XBody) (s : State) : LeavesQueue s (execAmo env x s) := by simp [execAmo]

@[simp] theorem execPegAddOp_leavesQueue (env : Envelope) (x : XBody) (s : State) : LeavesQueue s (execPegAddOp env x s) := by
  simp [execPegAddOp]

@[simp] theorem execPegSubOp_leavesQueue (env : Envelope) (x : XBody) (s : State) : LeavesQueue s (execPegSubOp env x s) := by
  simp [execPegSubOp]

@[simp] theorem execRaiseUp_leavesQueue (env : Envelope) (x : XBody) (s : State) : LeavesQueue s (execRaiseUp env x s) := by
  simp [execRaiseUp]

@[simp] theorem execReadData_leavesQueue (env : Envelope) (x : XBody) (s : State) : LeavesQueue s (execReadData env x s) := by
  simp [execReadData]

@[simp] theorem execAmoData_leavesQueue (env : Envelope) (x : XBody) (s : State) : LeavesQueue s (execAmoData env x s) := by
  simp [execAmoData]

@[simp] theorem execAck_leavesQueue (env : Envelope) (x : XBody) (s : State) : LeavesQueue s (execAck env x s) := by simp [execAck]
@[simp] theorem execNack_leavesQueue (env : Envelope) (x : XBody) (s : State) : LeavesQueue s (execNack env x s) := by simp [execNack]

@[simp] theorem execAckUnderflow_leavesQueue (env : Envelope) (x : XBody) (s : State) : LeavesQueue s (execAckUnderflow env x s) := by
  simp [execAckUnderflow]

@[simp] theorem execRaiseAnswer_leavesQueue (env : Envelope) (x : XBody) (s : State) : LeavesQueue s (execRaiseAnswer env x s) := by
  simp [execRaiseAnswer]

@[simp] theorem execBar2Read_leavesQueue (f : Fn) (off : BitVec 36) (len : Nat) (s : State) : LeavesQueue s (execBar2Read f off len s) := by
  simp [execBar2Read]

@[simp] theorem execBar2Write_leavesQueue (f : Fn) (off : BitVec 36) (data : List Byte) (s : State) :
    LeavesQueue s (execBar2Write f off data s) := by simp [execBar2Write]

@[simp] theorem execPatrolScrub_leavesQueue (addr : BitVec 48) (found : EccFind) (s : State) :
    LeavesQueue s (execPatrolScrub addr found s) := by simp [execPatrolScrub]

@[simp] theorem execInvalidate_leavesQueue (r : Requester) (s : State) : LeavesQueue s (execInvalidate r s) := by simp [execInvalidate]

@[simp] theorem execInvalidateComplete_leavesQueue (s : State) : LeavesQueue s (execInvalidateComplete s) := by
  simp [execInvalidateComplete]

/-! ## Operations of Hm.lean -/

@[simp] theorem mmaDrain_pending (c : Nat) (s : State) : (mmaDrain c s).pending = s.pending := by simp [mmaDrain]

@[simp] theorem hmInstr_pending (c : Nat) (fieldsOk : Bool) (eff : State → State) (s : State) (heff : ∀ t, (eff t).pending = t.pending) :
    (hmInstr c fieldsOk eff s).pending = s.pending := by simp [hmInstr, heff]

@[simp] theorem mmaInstr_pending (c f7 : Nat) (f : RFields) (s : State) : (mmaInstr c f7 f s).pending = s.pending := by simp [mmaInstr]
@[simp] theorem mmaComplete_pending (c : Nat) (s : State) : (mmaComplete c s).pending = s.pending := by simp [mmaComplete]

@[simp] theorem hmRowBytes_pending (c : Nat) (p : DataPath) (n : Nat) (s : State) : (hmRowBytes c p n s).2.pending = s.pending := by
  cases p <;> grind [hmRowBytes, eccError_pending]

@[simp] theorem hmLoadRow_pending (c va n : Nat) (s : State) : (hmLoadRow c va n s).2.pending = s.pending := by
  grind [hmLoadRow, hartResolve_pending, hmRowBytes_pending]

@[simp] theorem hmLoadRows_pending (c n : Nat) (l : List Nat) (s : State) : (hmLoadRows c n l s).2.pending = s.pending := by
  fun_induction hmLoadRows c n l s <;> grind [hmLoadRow_pending]

@[simp] theorem hmLoad_pending (c base stride m n : Nat) (put : List Byte → Hart → Hart) (s : State) :
    (hmLoad c base stride m n put s).pending = s.pending := by
  grind [hmLoad, mmaDrain_pending, hmLoadRows_pending, except_pending, State.putHart_pending]

@[simp] theorem mldT_pending (c f7 : Nat) (f : RFields) (s : State) : (mldT c f7 f s).pending = s.pending := by simp [mldT]
@[simp] theorem mldsT_pending (c f7 : Nat) (f : RFields) (s : State) : (mldsT c f7 f s).pending = s.pending := by simp [mldsT]
@[simp] theorem mldA_pending (c f7 : Nat) (f : RFields) (s : State) : (mldA c f7 f s).pending = s.pending := by simp [mldA]
@[simp] theorem mzeroA_pending (c f7 : Nat) (f : RFields) (s : State) : (mzeroA c f7 f s).pending = s.pending := by simp [mzeroA]

@[simp] theorem hmStoreBytes_pending (c : Nat) (p : DataPath) (bs : List Byte) (s : State) :
    (hmStoreBytes c p bs s).pending = s.pending := by
  cases p <;> grind [hmStoreBytes, State.putHart_pending, writeHome_pending]

@[simp] theorem mstRows_pending (c a w base stride : Nat) (t : Option Fmt) (l : List Nat) (a' : FFlags) (s : State) :
    (mstRows c a w base stride t l a' s).pending = s.pending := by
  fun_induction mstRows c a w base stride t l a' s <;> grind [State.putHart_pending, hartResolve_pending, except_pending,
    hmStoreBytes_pending]

@[simp] theorem mstA_pending (c f7 : Nat) (f : RFields) (s : State) : (mstA c f7 f s).pending = s.pending := by
  unfold mstA
  split <;> simp

@[simp] theorem mcvt_pending (c f7 : Nat) (f : RFields) (s : State) : (mcvt c f7 f s).pending = s.pending := by
  unfold mcvt
  split <;> simp

@[simp] theorem execMma_leavesQueue (c : Core) (funct7 : BitVec 7) (f : RFields) (s : State) : LeavesQueue s (execMma c funct7 f s) := by
  simp [execMma]

@[simp] theorem execMmaComplete_leavesQueue (c : Core) (s : State) : LeavesQueue s (execMmaComplete c s) := by simp [execMmaComplete]

@[simp] theorem execMldT_leavesQueue (c : Core) (funct7 : BitVec 7) (f : RFields) (s : State) : LeavesQueue s (execMldT c funct7 f s) := by
  simp [execMldT]

@[simp] theorem execMldsT_leavesQueue (c : Core) (funct7 : BitVec 7) (f : RFields) (s : State) :
    LeavesQueue s (execMldsT c funct7 f s) := by simp [execMldsT]

@[simp] theorem execMldA_leavesQueue (c : Core) (funct7 : BitVec 7) (f : RFields) (s : State) : LeavesQueue s (execMldA c funct7 f s) := by
  simp [execMldA]

@[simp] theorem execMstA_leavesQueue (c : Core) (funct7 : BitVec 7) (f : RFields) (s : State) : LeavesQueue s (execMstA c funct7 f s) := by
  simp [execMstA]

@[simp] theorem execMzeroA_leavesQueue (c : Core) (funct7 : BitVec 7) (f : RFields) (s : State) :
    LeavesQueue s (execMzeroA c funct7 f s) := by simp [execMzeroA]

@[simp] theorem execMcvt_leavesQueue (c : Core) (funct7 : BitVec 7) (f : RFields) (s : State) : LeavesQueue s (execMcvt c funct7 f s) := by
  simp [execMcvt]

/-! ## Operations of Csr.lean -/

@[simp] theorem csrInstr_pending (c n : Nat) (rd : XReg) (new : Option (Nat → Nat)) (s : State) :
    (csrInstr c n rd new s).pending = s.pending := by
  grind [csrInstr, illegal_pending, State.free_pending, retireRd_pending, State.putHart_pending]

@[simp] theorem csrAccess_pending (c n : Nat) (op : CsrOp) (imm : Bool) (rd rs1 : XReg) (s : State) :
    (csrAccess c n op imm rd rs1 s).pending = s.pending := by simp [csrAccess]

@[simp] theorem execCsrAccess_leavesQueue (c : Core) (csr : BitVec 12) (op : CsrOp) (imm : Bool) (rd rs1 : XReg) (s : State) :
    LeavesQueue s (execCsrAccess c csr op imm rd rs1 s) := by simp [execCsrAccess]

@[simp] theorem execHfqbaseWrite_leavesQueue (c : Core) (val : Word) (s : State) : LeavesQueue s (execHfqbaseWrite c val s) := by
  simp [execHfqbaseWrite]

@[simp] theorem execHxseqwWrite_leavesQueue (c : Core) (val : Word) (s : State) : LeavesQueue s (execHxseqwWrite c val s) := by
  simp [execHxseqwWrite]

/-! ## Operations of HartMem.lean -/

@[simp] theorem amoHome_pending (c : Nat) (form : AmoForm) (n k va : Nat) (f : RFields) (s : State) :
    (amoHome c form n k va f s).pending = s.pending := by
  cases form <;> simp [amoHome]

@[simp] theorem lrScAmo_pending (c : Nat) (form : AmoForm) (dword : Bool) (f : RFields) (s : State) :
    (lrScAmo c form dword f s).pending = s.pending := by
  unfold lrScAmo
  dsimp only
  generalize (if form = .lr then AccKind.load else AccKind.store) = k
  split
  · simp
  · have h := hartResolve_pending c k ((s.hart c).rn f.rs1) (if dword then 8 else 4) s
    split <;> simp_all

@[simp] theorem fence_pending (c : Nat) (pred succ : FenceSet) (tso : Bool) (s : State) :
    (fence c pred succ tso s).pending = s.pending := by simp [fence]

@[simp] theorem sfenceVma_pending (c : Nat) (rs1 rs2 : XReg) (s : State) : (sfenceVma c rs1 rs2 s).pending = s.pending := by
  simp [sfenceVma]

@[simp] theorem contextLoad_pending (c : Nat) (ctx : ContextImage) (s : State) : (contextLoad c ctx s).pending = s.pending := by
  simp [contextLoad]

@[simp] theorem interruptDuringWait_pending (c code : Nat) (s : State) : (interruptDuringWait c code s).pending = s.pending := by
  grind [interruptDuringWait, State.putHart_pending]

@[simp] theorem execLrScAmo_leavesQueue (c : Core) (form : AmoForm) (dword : Bool) (f : RFields) (s : State) :
    LeavesQueue s (execLrScAmo c form dword f s) := by simp [execLrScAmo]

@[simp] theorem execFence_leavesQueue (c : Core) (pred succ : FenceSet) (tso : Bool) (s : State) :
    LeavesQueue s (execFence c pred succ tso s) := by simp [execFence]

@[simp] theorem execFenceI_leavesQueue (c : Core) (s : State) : LeavesQueue s (execFenceI c s) := by simp [execFenceI]

@[simp] theorem execSfenceVma_leavesQueue (c : Core) (rs1 rs2 : XReg) (s : State) : LeavesQueue s (execSfenceVma c rs1 rs2 s) := by
  simp [execSfenceVma]

@[simp] theorem execContextLoad_leavesQueue (c : Core) (ctx : ContextImage) (s : State) : LeavesQueue s (execContextLoad c ctx s) := by
  simp [execContextLoad]

@[simp] theorem execInterruptDuringWait_leavesQueue (c : Core) (code : Fin 64) (s : State) :
    LeavesQueue s (execInterruptDuringWait c code s) := by simp [execInterruptDuringWait]

/-! ## Operations of Server.lean -/

@[simp] theorem putWords_pending (mk : Nat → Fld) (ws : List Nat) (s : State) : (putWords mk ws s).pending = s.pending := by simp [putWords]

@[simp] theorem mbxServe_pending (f op tag : Nat) (eff : State → MResp × State) (s : State) (heff : ∀ t, (eff t).2.pending = t.pending) :
    (mbxServe f op tag eff s).pending = s.pending := by simp [mbxServe, heff]

@[simp] theorem canRespond_pending (txn op : Nat) (r : MResp) (s : State) : (canRespond txn op r s).pending = s.pending := by
  simp [canRespond]

@[simp] theorem canReply_pending (txn op : Nat) (r : MResp) (s : State) : (canReply txn op r s).pending = s.pending := by simp [canReply]

@[simp] theorem canAbortTxn_pending (why : Nat) (s : State) : (canAbortTxn why s).pending = s.pending := by
  unfold canAbortTxn
  split <;> simp

@[simp] theorem canRx_pending (n : Nat) (s : State) : (canRx n s).pending = s.pending := by simp [canRx]

@[simp] theorem mbxRequest_pending (f op tag : Nat) (bytes : List Byte) (eff : State → MResp × State) (s : State) (heff : ∀ t,
    (eff t).2.pending = t.pending) :
    (mbxRequest f op tag bytes eff s).pending = s.pending := by simp [mbxRequest, heff]

@[simp] theorem canRequest_pending (txn op n : Nat) (eff : State → MResp × State) (s : State) (heff : ∀ t, (eff t).2.pending = t.pending) :
    (canRequest txn op n eff s).pending = s.pending := by simp [canRequest, heff]

@[simp] theorem viaMusyn_pending (p : MusynPath) (op area index : Nat) (data : List Byte) (eff : Nat → State → CmdRes × State) (s : State)
    (heff : ∀ a t, (eff a t).2.pending = t.pending) :
    (viaMusyn p op area index data eff s).pending = s.pending := by
  cases p <;> simp [viaMusyn, heff]

@[simp] theorem viaCmd_pending (src : CmdSrc) (c : CmdReg) (a index : Nat) (data : List Byte) (eff : Nat → State → CmdRes × State)
    (s : State) (heff : ∀ a t, (eff a t).2.pending = t.pending) :
    (viaCmd src c a index data eff s).pending = s.pending := by
  unfold viaCmd
  split <;> simp [heff]

/-! ## Operations of Nvm.lean -/

@[simp] theorem showSlots_pending (s : State) : (showSlots s).pending = s.pending := by simp [showSlots]
@[simp] theorem putSlot_pending (b : Nat) (x : ImgSlot) (s : State) : (putSlot b x s).pending = s.pending := by simp [putSlot]
@[simp] theorem cfgPut_pending (a i v : Nat) (s : State) : (cfgPut a i v s).pending = s.pending := by simp [cfgPut]
@[simp] theorem persist_pending (a i v : Nat) (s : State) : (persist a i v s).2.pending = s.pending := by simp [persist]
@[simp] theorem lifeSet_pending (a i v : Nat) (s : State) : (lifeSet a i v s).pending = s.pending := by simp [lifeSet]
@[simp] theorem lifeInc_pending (a i : Nat) (s : State) : (lifeInc a i s).pending = s.pending := by simp [lifeInc]
@[simp] theorem operSave_pending (s : State) : (operSave s).pending = s.pending := by simp [operSave]
@[simp] theorem eraseIntent_pending (sector : Nat) (s : State) : (eraseIntent sector s).pending = s.pending := by simp [eraseIntent]

@[simp] theorem eraseEnd_pending (sector n : Nat) (ok : Bool) (s : State) : (eraseEnd sector n ok s).pending = s.pending := by
  simp [eraseEnd]

/-! ## Operations of Clock.lean -/

theorem State.putDom_pending (s : State) (d : Nat) (x : TimeDom) : (s.putDom d x).pending = s.pending := rfl
@[simp] theorem slcStale_pending (s : State) : (slcStale s).pending = s.pending := by simp [slcStale]
@[simp] theorem shiftOffsets_pending (δ : Int) (s : State) : (shiftOffsets δ s).pending = s.pending := by simp [shiftOffsets]
@[simp] theorem moveOutput_pending (δ : Int) (s : State) : (moveOutput δ s).pending = s.pending := by simp [moveOutput]

@[simp] theorem stepOutput_pending (δ : Int) (s : State) : (stepOutput δ s).pending = s.pending := by
  grind [stepOutput, moveOutput_pending, slcStale_pending]

@[simp] theorem rateFree_pending (s : State) : (rateFree s).pending = s.pending := by simp [rateFree]
@[simp] theorem outEnter_pending (st : Nat) (s : State) : (outEnter st s).pending = s.pending := by simp [outEnter]
@[simp] theorem follow_pending (d : Nat) (s : State) : (follow d s).pending = s.pending := by simp [follow]
@[simp] theorem chooseOutput_pending (s : State) : (chooseOutput s).pending = s.pending := by simp [chooseOutput]
@[simp] theorem trkEnter_pending (d st : Nat) (s : State) : (trkEnter d st s).pending = s.pending := by simp [trkEnter]
@[simp] theorem trkLose_pending (d : Nat) (s : State) : (trkLose d s).pending = s.pending := by simp [trkLose]
@[simp] theorem timeDisturb_pending (p : Nat) (s : State) : (timeDisturb p s).pending = s.pending := by simp [timeDisturb]
@[simp] theorem timePortLost_pending (p : Nat) (s : State) : (timePortLost p s).pending = s.pending := by simp [timePortLost]

/-! ## Operations of Wire.lean -/

@[simp] theorem putWire_pending (p : Nat) (bs : List Byte) (s : State) : (putWire p bs s).pending = s.pending := by simp [putWire]
@[simp] theorem sendLocal_pending (p : Nat) (body : List Byte) (s : State) : (sendLocal p body s).pending = s.pending := by simp [sendLocal]
@[simp] theorem sendAck_pending (p : Nat) (nak : Bool) (s : State) : (sendAck p nak s).pending = s.pending := by simp [sendAck]

@[simp] theorem sendTrain_pending (p linesOk : Nat) (lightOk : Bool) (s : State) : (sendTrain p linesOk lightOk s).pending = s.pending := by
  simp [sendTrain]

@[simp] theorem sendTime_pending (p msg d : Nat) (trn : Bool) (hops seqid stamp gm : Nat) (locked : Bool) (s : State) :
    (sendTime p msg d trn hops seqid stamp gm locked s).pending = s.pending := by simp [sendTime]

@[simp] theorem sendFrame_pending (p : Nat) (f : Frame) (s : State) : (sendFrame p f s).pending = s.pending := by simp [sendFrame]
@[simp] theorem resend_pending (p : Nat) (s : State) : (resend p s).pending = s.pending := by simp [resend]
@[simp] theorem freeCredit_pending (p cls n : Nat) (s : State) : (freeCredit p cls n s).pending = s.pending := by simp [freeCredit]

theorem sendClass_pending (p cls : Nat) (s : State) : ∀ t, sendClass p cls s = some t → t.pending = s.pending := by
  intro t h
  grind [sendClass, freeCredit_pending, sendFrame_pending]

@[simp] theorem transmit_pending (p : Nat) (s : State) : (transmit p s).pending = s.pending := by
  have h (c : Nat) : ∀ t ∈ sendClass p c s, t.pending = s.pending := fun t => sendClass_pending p c s t
  unfold transmit
  split
  · rfl
  · cases h1 : sendClass p 1 s with
    | some t => exact h 1 t h1
    | none =>
      cases h2 : sendClass p 2 s with
      | some t => exact h 2 t h2
      | none =>
        cases h0 : sendClass p 0 s with
        | some t => exact h 0 t h0
        | none => rfl

/-! ## Operations of Links.lean -/

@[simp] theorem gangUp_pending (p : Nat) (s : State) : (gangUp p s).pending = s.pending := by simp [gangUp]
@[simp] theorem dropUnrouted_pending (s : State) : (dropUnrouted s).pending = s.pending := by simp [dropUnrouted]
@[simp] theorem dropBuffers_pending (p : Nat) (s : State) : (dropBuffers p s).pending = s.pending := by simp [dropBuffers]
@[simp] theorem portEnter_pending (p st : Nat) (s : State) : (portEnter p st s).pending = s.pending := by simp [portEnter]
@[simp] theorem portDown_pending (p : Nat) (s : State) : (portDown p s).pending = s.pending := by simp [portDown]
@[simp] theorem portFall_pending (p : Nat) (s : State) : (portFall p s).pending = s.pending := by simp [portFall]
@[simp] theorem portOut_pending (p : Nat) (s : State) : (portOut p s).pending = s.pending := by simp [portOut]
@[simp] theorem trainBegin_pending (p : Nat) (s : State) : (trainBegin p s).pending = s.pending := by simp [trainBegin]

@[simp] theorem trainingStart_pending (p : Nat) (cause : TrainCause) (s : State) : (trainingStart p cause s).pending = s.pending := by
  cases cause <;> simp [trainingStart]

@[simp] theorem retrain_pending (p : Nat) (s : State) : (retrain p s).pending = s.pending := by simp [retrain]
@[simp] theorem trainFail_pending (p : Nat) (s : State) : (trainFail p s).pending = s.pending := by simp [trainFail]
@[simp] theorem freshCredits_pending (p : Nat) (s : State) : (freshCredits p s).pending = s.pending := by simp [freshCredits]
@[simp] theorem portComesUp_pending (p : Nat) (s : State) : (portComesUp p s).pending = s.pending := by simp [portComesUp]

@[simp] theorem epochCheck_pending (p : Nat) (s : State) : (epochCheck p s).pending = s.pending := by
  unfold epochCheck
  split <;> simp

@[simp] theorem trainingComplete_pending (p : Nat) (m : TrainMeasure) (s : State) : (trainingComplete p m s).pending = s.pending := by
  unfold trainingComplete
  split
  · rfl
  · dsimp only
    split <;> simp

@[simp] theorem trainingTimeout_pending (p : Nat) (s : State) : (trainingTimeout p s).pending = s.pending := by simp [trainingTimeout]
@[simp] theorem trainingRetry_pending (p : Nat) (s : State) : (trainingRetry p s).pending = s.pending := by simp [trainingRetry]
@[simp] theorem lossOfSignal_pending (p : Nat) (s : State) : (lossOfSignal p s).pending = s.pending := by simp [lossOfSignal]
@[simp] theorem lightFallback_pending (p : Nat) (s : State) : (lightFallback p s).pending = s.pending := by simp [lightFallback]
@[simp] theorem cfgEn_pending (p : Nat) (en : Bool) (s : State) : (cfgEn p en s).pending = s.pending := by simp [cfgEn]
@[simp] theorem retrainCmd_pending (p : Nat) (s : State) : (retrainCmd p s).pending = s.pending := by simp [retrainCmd]
@[simp] theorem downCmd_pending (p : Nat) (s : State) : (downCmd p s).pending = s.pending := by simp [downCmd]
@[simp] theorem dropLines_pending (p m : Nat) (s : State) : (dropLines p m s).pending = s.pending := by simp [dropLines]
@[simp] theorem lineFail_pending (p l : Nat) (s : State) : (lineFail p l s).pending = s.pending := by simp [lineFail]
@[simp] theorem lineFailure_pending (p l : Nat) (s : State) : (lineFailure p l s).pending = s.pending := by simp [lineFailure]
@[simp] theorem trainIn_pending (p : Nat) (b : TrainBody) (s : State) : (trainIn p b s).pending = s.pending := by simp [trainIn]
@[simp] theorem setEpoch_pending (v : Nat) (s : State) : (setEpoch v s).pending = s.pending := by simp [setEpoch]
@[simp] theorem ackIn_pending (p : Nat) (b : LinkAckBody) (s : State) : (ackIn p b s).pending = s.pending := by simp [ackIn]
@[simp] theorem ackTimer_pending (p : Nat) (s : State) : (ackTimer p s).pending = s.pending := by simp [ackTimer]
@[simp] theorem gangPut_pending (g ports : Nat) (s : State) : (gangPut g ports s).pending = s.pending := by simp [gangPut]
@[simp] theorem gangDrained_pending (p : Nat) (s : State) : (gangDrained p s).pending = s.pending := by simp [gangDrained]
@[simp] theorem pkgPut_pending (v : Nat) (s : State) : (pkgPut v s).pending = s.pending := by simp [pkgPut]
@[simp] theorem pkgChecked_pending (v : Nat) (s : State) : (pkgChecked v s).pending = s.pending := by simp [pkgChecked]

@[simp] theorem pkgWrite_pending (src : CmdSrc) (v : Nat) (s : State) : (pkgWrite src v s).pending = s.pending := by
  unfold pkgWrite
  split <;> simp

@[simp] theorem nbrOffer_pending (p : Nat) (s : State) : (nbrOffer p s).pending = s.pending := by simp [nbrOffer]

@[simp] theorem beaconIn_pending (p n : Nat) (rise : Bool) (depth : Nat) (s : State) : (beaconIn p n rise depth s).pending = s.pending := by
  simp [beaconIn]

@[simp] theorem beaconSend_pending (p : Nat) (s : State) : (beaconSend p s).pending = s.pending := by simp [beaconSend]
@[simp] theorem execFrameTransmit_leavesQueue (p : Port) (s : State) : LeavesQueue s (execFrameTransmit p s) := by simp [execFrameTransmit]

@[simp] theorem execLinkAck_leavesQueue (p : Port) (b : LinkAckBody) (s : State) : LeavesQueue s (execLinkAck p b s) := by
  simp [execLinkAck]

@[simp] theorem execLinkAckTimer_leavesQueue (p : Port) (s : State) : LeavesQueue s (execLinkAckTimer p s) := by simp [execLinkAckTimer]
@[simp] theorem execTrain_leavesQueue (p : Port) (b : TrainBody) (s : State) : LeavesQueue s (execTrain p b s) := by simp [execTrain]

@[simp] theorem execTrainingStart_leavesQueue (p : Port) (cause : TrainCause) (s : State) :
    LeavesQueue s (execTrainingStart p cause s) := by simp [execTrainingStart]

@[simp] theorem execTrainingComplete_leavesQueue (p : Port) (m : TrainMeasure) (s : State) :
    LeavesQueue s (execTrainingComplete p m s) := by simp [execTrainingComplete]

@[simp] theorem execTrainingTimeout_leavesQueue (p : Port) (s : State) : LeavesQueue s (execTrainingTimeout p s) := by
  simp [execTrainingTimeout]

@[simp] theorem execTrainingRetry_leavesQueue (p : Port) (s : State) : LeavesQueue s (execTrainingRetry p s) := by simp [execTrainingRetry]
@[simp] theorem execRetrain_leavesQueue (r : Requester) (p : Port) (s : State) : LeavesQueue s (execRetrain r p s) := by simp [execRetrain]
@[simp] theorem execDown_leavesQueue (r : Requester) (p : Port) (s : State) : LeavesQueue s (execDown r p s) := by simp [execDown]

@[simp] theorem execLnkCfgEnWrite_leavesQueue (r : Requester) (p : Port) (val : BitVec 1) (s : State) :
    LeavesQueue s (execLnkCfgEnWrite r p val s) := by simp [execLnkCfgEnWrite]

@[simp] theorem execLineFailure_leavesQueue (p : Port) (l : Line) (cause : LineCause) (s : State) :
    LeavesQueue s (execLineFailure p l cause s) := by simp [execLineFailure]

@[simp] theorem execLossOfSignal_leavesQueue (p : Port) (s : State) : LeavesQueue s (execLossOfSignal p s) := by simp [execLossOfSignal]
@[simp] theorem execLightFallback_leavesQueue (p : Port) (s : State) : LeavesQueue s (execLightFallback p s) := by simp [execLightFallback]

@[simp] theorem execGangWrite_leavesQueue (r : Requester) (g : Fin 16) (ports : BitVec 32) (s : State) :
    LeavesQueue s (execGangWrite r g ports s) := by simp [execGangWrite]

@[simp] theorem execGangDrainComplete_leavesQueue (p : Port) (s : State) : LeavesQueue s (execGangDrainComplete p s) := by
  simp [execGangDrainComplete]

@[simp] theorem execPkgWrite_leavesQueue (src : CmdSrc) (val : BitVec 20) (s : State) : LeavesQueue s (execPkgWrite src val s) := by
  simp [execPkgWrite]

@[simp] theorem execBeaconFrame_leavesQueue (p : Port) (bits : BitVec 128) (powerRise3dB : Bool) (minDepth : Nat) (s : State) :
    LeavesQueue s (execBeaconFrame p bits powerRise3dB minDepth s) := by simp [execBeaconFrame]

@[simp] theorem execBeaconSend_leavesQueue (p : Port) (s : State) : LeavesQueue s (execBeaconSend p s) := by simp [execBeaconSend]

/-! ## Operations of Sluice.lean -/

@[simp] theorem hdgDone_pending (s : State) : (hdgDone s).pending = s.pending := by simp [hdgDone]
@[simp] theorem hdgRefused_pending (s : State) : (hdgRefused s).pending = s.pending := by simp [hdgRefused]
@[simp] theorem checkpoint_pending (s : State) : (checkpoint s).pending = s.pending := by simp [checkpoint]
@[simp] theorem stagePart_pending (w i : Nat) (bs : List Byte) (s : State) : (stagePart w i bs s).pending = s.pending := by simp [stagePart]

@[simp] theorem stageWrite_pending (r : Requester) (off : Nat) (data : List Byte) (s : State) :
    (stageWrite r off data s).pending = s.pending := by simp [stageWrite]

@[simp] theorem slcReport_pending (status reason changed : Nat) (coll : List Nat) (s : State) :
    (slcReport status reason changed coll s).pending = s.pending := by simp [slcReport]

@[simp] theorem slcReject_pending (reason changed : Nat) (coll : List Nat) (s : State) :
    (slcReject reason changed coll s).pending = s.pending := by simp [slcReject]

@[simp] theorem planStart_pending (path : Nat) (s : State) : (planStart path s).2.pending = s.pending := by
  grind [planStart, hdgRefused_pending, slcReject_pending, State.set_pending, slcReport_pending]

@[simp] theorem planComplete_pending (s : State) : (planComplete s).pending = s.pending := by
  grind [planComplete, hdgDone_pending, slcReject_pending, State.undef_pending, slcReport_pending]

@[simp] theorem driveAll_pending (s : State) : (driveAll s).pending = s.pending := by simp [driveAll]

@[simp] theorem activatePort_pending (es cs : List Nat) (p : Nat) (s : State) : (activatePort es cs p s).pending = s.pending := by
  simp [activatePort]

@[simp] theorem releaseArm_pending (s : State) : (releaseArm s).pending = s.pending := by simp [releaseArm]

@[simp] theorem activationStart_pending (late : Bool) (s : State) : (activationStart late s).pending = s.pending := by
  unfold activationStart
  dsimp only
  split
  · rfl
  · split <;> simp

@[simp] theorem armDecide_pending (s : State) : (armDecide s).pending = s.pending := by
  grind [armDecide, activationStart_pending, slcStale_pending]

@[simp] theorem startIfDue_pending (s : State) : (startIfDue s).pending = s.pending := by simp [startIfDue]

@[simp] theorem pending_arm (path : Nat) (s : State) : (arm path s).2.pending = s.pending := by
  grind [arm, hdgRefused_pending, State.set_pending, checkpoint_pending, grant_pending, hdgDone_pending, activationStart_pending,
    armDecide_pending]

@[simp] theorem disarm_pending (path : Nat) (s : State) : (disarm path s).2.pending = s.pending := by simp [disarm]
@[simp] theorem discard_pending (path : Nat) (s : State) : (discard path s).2.pending = s.pending := by simp [discard]

@[simp] theorem activation_pending (s : State) : (activation s).pending = s.pending := by
  unfold activation
  split <;> simp

@[simp] theorem activationCommit_pending (s : State) : (activationCommit s).pending = s.pending := by
  unfold activationCommit
  split <;> simp

@[simp] theorem activationComplete_pending (s : State) : (activationComplete s).pending = s.pending := by
  unfold activationComplete
  split <;> simp

@[simp] theorem postRelight_pending (p : Nat) (s : State) : (postRelight p s).pending = s.pending := by simp [postRelight]
@[simp] theorem takeLease_pending (g : Nat) (s : State) : (takeLease g s).pending = s.pending := by simp [takeLease]

@[simp] theorem takeOver_pending (g : Nat) (s : State) : (takeOver g s).pending = s.pending := by
  grind [takeOver, driveAll_pending, takeLease_pending, armDecide_pending]

@[simp] theorem planLost_pending (s : State) : (planLost s).pending = s.pending := by simp [planLost]

@[simp] theorem failover_pending (cause : Nat) (s : State) : (failover cause s).pending = s.pending := by
  unfold failover
  split <;> simp

@[simp] theorem hdgSwap_pending (path : Nat) (s : State) : (hdgSwap path s).2.pending = s.pending := by
  grind [hdgSwap, hdgRefused_pending, grant_pending, takeLease_pending, State.incWrap_pending, State.set_pending, planLost_pending,
    hdgDone_pending, freePermits_pending]

@[simp] theorem hdgResync_pending (g path : Nat) (s : State) : (hdgResync g path s).2.pending = s.pending := by
  grind [hdgResync, hdgRefused_pending, State.set_pending, grant_pending]

@[simp] theorem resyncDone_pending (ok : Bool) (s : State) : (resyncDone ok s).pending = s.pending := by
  unfold resyncDone
  split <;> simp

@[simp] theorem leaseRenew_pending (s : State) : (leaseRenew s).pending = s.pending := by simp [leaseRenew]
@[simp] theorem heaterUpdate_pending (s : State) : (heaterUpdate s).pending = s.pending := by simp [heaterUpdate]

@[simp] theorem sillScan_pending (readBack : List (Nat × Nat)) (s : State) : (sillScan readBack s).pending = s.pending := by
  unfold sillScan
  dsimp only
  split <;> simp

@[simp] theorem planeOut_pending (m : Nat) (s : State) : (planeOut m s).pending = s.pending := by simp [planeOut]
@[simp] theorem pairOut_pending (k : Nat) (s : State) : (pairOut k s).pending = s.pending := by simp [pairOut]

@[simp] theorem hdgWrite_pending (r : Requester) (eff : Nat → State → CmdRes × State) (s : State) (heff : ∀ a t,
    (eff a t).2.pending = t.pending) :
    (hdgWrite r eff s).pending = s.pending := by simp [hdgWrite, heff]

@[simp] theorem execStageWrite_leavesQueue (r : Requester) (off : Fin 2048) (data : List Byte) (s : State) :
    LeavesQueue s (execStageWrite r off data s) := by simp [execStageWrite]

@[simp] theorem execPlan_leavesQueue (r : Requester) (s : State) : LeavesQueue s (execPlan r s) := by simp [execPlan]
@[simp] theorem execPlanComplete_leavesQueue (s : State) : LeavesQueue s (execPlanComplete s) := by simp [execPlanComplete]
@[simp] theorem execArm_leavesQueue (r : Requester) (s : State) : LeavesQueue s (execArm r s) := by simp [execArm]
@[simp] theorem execDisarm_leavesQueue (r : Requester) (s : State) : LeavesQueue s (execDisarm r s) := by simp [execDisarm]
@[simp] theorem execDiscard_leavesQueue (r : Requester) (s : State) : LeavesQueue s (execDiscard r s) := by simp [execDiscard]
@[simp] theorem execActivation_leavesQueue (s : State) : LeavesQueue s (execActivation s) := by simp [execActivation]
@[simp] theorem execActivationCommit_leavesQueue (s : State) : LeavesQueue s (execActivationCommit s) := by simp [execActivationCommit]

@[simp] theorem execActivationComplete_leavesQueue (s : State) : LeavesQueue s (execActivationComplete s) := by
  simp [execActivationComplete]

@[simp] theorem execPostRelightRetrain_leavesQueue (p : Port) (s : State) : LeavesQueue s (execPostRelightRetrain p s) := by
  simp [execPostRelightRetrain]

@[simp] theorem execSwap_leavesQueue (src : CmdSrc) (s : State) : LeavesQueue s (execSwap src s) := by simp [execSwap]

@[simp] theorem execResync_leavesQueue (src : CmdSrc) (g : Gate) (s : State) : LeavesQueue s (execResync src g s) := by
  unfold execResync
  split <;> simp

@[simp] theorem execResyncComplete_leavesQueue (selfTestOk : Bool) (s : State) : LeavesQueue s (execResyncComplete selfTestOk s) := by
  simp [execResyncComplete]

@[simp] theorem execLeaseRenewal_leavesQueue (s : State) : LeavesQueue s (execLeaseRenewal s) := by simp [execLeaseRenewal]
@[simp] theorem execLeaseLapse_leavesQueue (s : State) : LeavesQueue s (execLeaseLapse s) := by simp [execLeaseLapse]
@[simp] theorem execHeadgateSelfFault_leavesQueue (s : State) : LeavesQueue s (execHeadgateSelfFault s) := by simp [execHeadgateSelfFault]
@[simp] theorem execHeaterCodeUpdate_leavesQueue (s : State) : LeavesQueue s (execHeaterCodeUpdate s) := by simp [execHeaterCodeUpdate]

@[simp] theorem execSillScan_leavesQueue (readBack : List (Nat × BitVec 12)) (s : State) : LeavesQueue s (execSillScan readBack s) := by
  simp [execSillScan]

@[simp] theorem execLinkDieHeartbeatStop_leavesQueue (k : Pair) (s : State) : LeavesQueue s (execLinkDieHeartbeatStop k s) := by
  simp [execLinkDieHeartbeatStop]

/-! ## Operations of Rings.lean -/

@[simp] theorem acquireUser_pending (u : Nat) (s : State) : (acquireUser u s).pending = s.pending := by simp [acquireUser]
@[simp] theorem forgetUser_pending (u : Nat) (s : State) : (forgetUser u s).pending = s.pending := by simp [forgetUser]
@[simp] theorem releaseLaser_pending (s : State) : (releaseLaser s).pending = s.pending := by simp [releaseLaser]

@[simp] theorem takeoverEnd_pending (b : Nat) (s : State) : (takeoverEnd b s).pending = s.pending := by
  unfold takeoverEnd
  split <;> simp

@[simp] theorem ringUp_pending (u : Nat) (s : State) : (ringUp u s).pending = s.pending := by simp [ringUp]
@[simp] theorem acqFailed_pending (id : Nat) (s : State) : (acqFailed id s).pending = s.pending := by simp [acqFailed]
@[simp] theorem consumerLoses_pending (id : Nat) (s : State) : (consumerLoses id s).pending = s.pending := by simp [consumerLoses]
@[simp] theorem ringLost_pending (id : Nat) (wrong : Bool) (s : State) : (ringLost id wrong s).pending = s.pending := by simp [ringLost]

@[simp] theorem loopSample_pending (id adc refv : Nat) (dark : Bool) (s : State) : (loopSample id adc refv dark s).pending = s.pending := by
  simp [loopSample]

@[simp] theorem loopApply_pending (id : Nat) (s : State) : (loopApply id s).pending = s.pending := by simp [loopApply]
@[simp] theorem recaptureTimeout_pending (id : Nat) (s : State) : (recaptureTimeout id s).pending = s.pending := by simp [recaptureTimeout]
@[simp] theorem shutterClose_pending (id steps : Nat) (s : State) : (shutterClose id steps s).pending = s.pending := by simp [shutterClose]
@[simp] theorem shutterOpen_pending (id : Nat) (s : State) : (shutterOpen id s).pending = s.pending := by simp [shutterOpen]

@[simp] theorem loopWrite_pending (id w v : Nat) (s : State) : (loopWrite id w v s).pending = s.pending := by
  unfold loopWrite
  split <;> simp

@[simp] theorem lockOn_pending (id : Nat) (x : Resonance) (s : State) : (lockOn id x s).pending = s.pending := by simp [lockOn]

@[simp] theorem acquireChain_pending (ch : Chain) (sws : List RingSweep) (s : State) : (acquireChain ch sws s).pending = s.pending := by
  unfold acquireChain
  dsimp only
  split
  · rfl
  · refine foldl_pending _ _ _ fun t x => ?_
    split <;> simp

@[simp] theorem acquisitionComplete_pending (ch : Chain) (ok : Bool) (s : State) : (acquisitionComplete ch ok s).pending = s.pending := by
  simp [acquisitionComplete]

@[simp] theorem slotRing_pending (l : Nat) (quiet : Bool) (id d : Nat) (s : State) : (slotRing l quiet id d s).pending = s.pending := by
  simp [slotRing]

@[simp] theorem verificationSlot_pending (l : Nat) (depths : List (Nat × Nat)) (s : State) :
    (verificationSlot l depths s).pending = s.pending := by simp [verificationSlot]

@[simp] theorem loopEngineStop_pending (n : Nat) (s : State) : (loopEngineStop n s).pending = s.pending := by simp [loopEngineStop]

@[simp] theorem execVerificationSlot_leavesQueue (l : Line) (depths : List (Ring × Nat)) (s : State) :
    LeavesQueue s (execVerificationSlot l depths s) := by simp [execVerificationSlot]

@[simp] theorem execLoopSample_leavesQueue (r : Ring) (adc refv : BitVec 12) (dark : Bool) (s : State) :
    LeavesQueue s (execLoopSample r adc refv dark s) := by simp [execLoopSample]

@[simp] theorem execLoopApply_leavesQueue (req : Requester) (r : Ring) (s : State) : LeavesQueue s (execLoopApply req r s) := by
  simp [execLoopApply]

@[simp] theorem execRecaptureTimeout_leavesQueue (r : Ring) (s : State) : LeavesQueue s (execRecaptureTimeout r s) := by
  simp [execRecaptureTimeout]

@[simp] theorem execShutterClose_leavesQueue (p : Port) (l : Line) (steps : BitVec 16) (s : State) :
    LeavesQueue s (execShutterClose p l steps s) := by simp [execShutterClose]

@[simp] theorem execShutterOpen_leavesQueue (p : Port) (l : Line) (s : State) : LeavesQueue s (execShutterOpen p l s) := by
  simp [execShutterOpen]

@[simp] theorem execAcquireChain_leavesQueue (ch : Chain) (sweep : List RingSweep) (s : State) :
    LeavesQueue s (execAcquireChain ch sweep s) := by simp [execAcquireChain]

@[simp] theorem execAcquisitionComplete_leavesQueue (ch : Chain) (ok : Bool) (s : State) :
    LeavesQueue s (execAcquisitionComplete ch ok s) := by simp [execAcquisitionComplete]

@[simp] theorem execLoopEngineStop_leavesQueue (n : LoopEng) (s : State) : LeavesQueue s (execLoopEngineStop n s) := by
  simp [execLoopEngineStop]

/-! ## Operations of Lasers.lean -/

@[simp] theorem lasEnter_pending (j st f : Nat) (s : State) : (lasEnter j st f s).pending = s.pending := by simp [lasEnter]
@[simp] theorem holdEngine_pending (e : Nat) (s : State) : (holdEngine e s).pending = s.pending := by simp [holdEngine]
@[simp] theorem holdPort_pending (p : Nat) (s : State) : (holdPort p s).pending = s.pending := by simp [holdPort]
@[simp] theorem feedDark_pending (f : Nat) (s : State) : (feedDark f s).pending = s.pending := by simp [feedDark]
@[simp] theorem feedGone_pending (f : Nat) (s : State) : (feedGone f s).pending = s.pending := by simp [feedGone]

@[simp] theorem takeoverStart_pending (b f planned : Nat) (s : State) : (takeoverStart b f planned s).pending = s.pending := by
  simp [takeoverStart]

@[simp] theorem takeoverDrop_pending (b : Nat) (s : State) : (takeoverDrop b s).pending = s.pending := by
  unfold takeoverDrop
  split <;> simp

@[simp] theorem laserFail_pending (j : Nat) (s : State) : (laserFail j s).pending = s.pending := by
  grind [laserFail, lasEnter_pending, scbRecheck_pending, scbAbortRun_pending, logAlert_pending, releasePermits_pending, State.set_pending,
    takeoverDrop_pending, takeoverStart_pending, State.incWrap_pending, feedGone_pending]

@[simp] theorem selectorTimeout_pending (b : Nat) (s : State) : (selectorTimeout b s).pending = s.pending := by
  unfold selectorTimeout
  split <;> simp

@[simp] theorem spareLit_pending (b : Nat) (s : State) : (spareLit b s).pending = s.pending := by
  unfold spareLit
  split <;> simp

@[simp] theorem lasRefused_pending (s : State) : (lasRefused s).pending = s.pending := by simp [lasRefused]

@[simp] theorem lasStart_pending (path op : Nat) (rs : List Nat) (eff : State → State) (s : State) (heff : ∀ t,
    (eff t).pending = t.pending) :
    (lasStart path op rs eff s).2.pending = s.pending := by
  unfold lasStart
  split <;> simp [heff]

@[simp] theorem swapToSpare_pending (j path : Nat) (s : State) : (swapToSpare j path s).2.pending = s.pending := by simp [swapToSpare]
@[simp] theorem laserReturn_pending (j path : Nat) (s : State) : (laserReturn j path s).2.pending = s.pending := by simp [laserReturn]
@[simp] theorem spareTest_pending (j path : Nat) (s : State) : (spareTest j path s).2.pending = s.pending := by simp [spareTest]

@[simp] theorem spareTestEnd_pending (b : Nat) (pass : Bool) (s : State) : (spareTestEnd b pass s).pending = s.pending := by
  simp [spareTestEnd]

@[simp] theorem verifyLaser_pending (j path : Nat) (s : State) : (verifyLaser j path s).2.pending = s.pending := by simp [verifyLaser]

@[simp] theorem lasVia_pending (src : CmdSrc) (cmd j : Nat) (eff : Nat → State → CmdRes × State) (s : State) (heff : ∀ a t,
    (eff a t).2.pending = t.pending) :
    (lasVia src cmd j eff s).pending = s.pending := by
  unfold lasVia
  split <;> simp [heff]

@[simp] theorem bankOff_pending (b : Nat) (s : State) : (bankOff b s).pending = s.pending := by
  unfold bankOff
  extract_lets test dies feedOf s1 s2
  have h1 : s1.pending = s.pending := by
    rw [← takeoverDrop_pending b s]
    refine foldl_pending _ _ _ fun t j => ?_
    split
    · rfl
    · rw [lasEnter_pending]
      split <;> simp
  have h2 : s2.pending = s.pending := by simp [s2, h1]
  split <;> simp [h2]

@[simp] theorem bankOn_pending (b : Nat) (s : State) : (bankOn b s).pending = s.pending := by simp [bankOn]

@[simp] theorem bringUpDone_pending (j : Nat) (s : State) : (bringUpDone j s).pending = s.pending := by
  unfold bringUpDone
  split <;> simp

@[simp] theorem execLaserFailure_leavesQueue (j : Laser) (s : State) : LeavesQueue s (execLaserFailure j s) := by simp [execLaserFailure]

@[simp] theorem execSelectorTimeout_leavesQueue (b : Bank) (s : State) : LeavesQueue s (execSelectorTimeout b s) := by
  simp [execSelectorTimeout]

@[simp] theorem execSpareLit_leavesQueue (b : Bank) (s : State) : LeavesQueue s (execSpareLit b s) := by simp [execSpareLit]

@[simp] theorem execSwapToSpare_leavesQueue (src : CmdSrc) (j : Laser) (s : State) : LeavesQueue s (execSwapToSpare src j s) := by
  simp [execSwapToSpare]

@[simp] theorem execLaserReturn_leavesQueue (src : CmdSrc) (j : Laser) (s : State) : LeavesQueue s (execLaserReturn src j s) := by
  simp [execLaserReturn]

@[simp] theorem execSpareTest_leavesQueue (src : CmdSrc) (j : Laser) (s : State) : LeavesQueue s (execSpareTest src j s) := by
  simp [execSpareTest]

@[simp] theorem execVerifyLaser_leavesQueue (src : CmdSrc) (j : Laser) (s : State) : LeavesQueue s (execVerifyLaser src j s) := by
  unfold execVerifyLaser
  split <;> simp

@[simp] theorem execSpareTestComplete_leavesQueue (b : Bank) (pass : Bool) (s : State) :
    LeavesQueue s (execSpareTestComplete b pass s) := by simp [execSpareTestComplete]

@[simp] theorem execLaserBringUpComplete_leavesQueue (j : Laser) (s : State) : LeavesQueue s (execLaserBringUpComplete j s) := by
  simp [execLaserBringUpComplete]

/-! ## Operations of Capture.lean -/

@[simp] theorem dmaSection_pending (l : List Task) (s : State) : (dmaSection l s).2.pending = s.pending := by
  fun_induction dmaSection l s <;> grind [State.free_pending]

@[simp] theorem writeSegment_pending (n : Nat) (cells : List (Nat × Byte)) (s : State) : (writeSegment n cells s).pending = s.pending := by
  simp [writeSegment]

@[simp] theorem summaryCells_pending (lead all : Nat) (s : State) : (summaryCells lead all s).2.pending = s.pending := by
  simp [summaryCells]

@[simp] theorem writeSegments_pending (all : Nat) (snap : State) (l : List Nat) (a : Bool) (s : State) :
    (writeSegments all snap l a s).pending = s.pending := by
  fun_induction writeSegments all snap l a s <;> grind [dmaSection_pending, writeSegment_pending]

@[simp] theorem captureBegin_pending (s : State) : (captureBegin s).pending = s.pending := by simp [captureBegin]
@[simp] theorem capture_pending (absent : Nat) (s : State) : (capture absent s).pending = s.pending := by simp [capture]

@[simp] theorem sumPut_pending (slot : Nat) (cells : List (Nat × Byte)) (s : State) : (sumPut slot cells s).pending = s.pending := by
  simp [sumPut]

/-! ## Operations of Scribe.lean -/

@[simp] theorem scbRefuse_pending (reason : Nat) (s : State) : (scbRefuse reason s).pending = s.pending := by simp [scbRefuse]

@[simp] theorem scbCalibrate_pending (path arg startAt : Nat) (s : State) : (scbCalibrate path arg startAt s).2.pending = s.pending := by
  grind [scbCalibrate, scbRefuse_pending, State.setBit_pending, scbPutQueue_pending, grant_pending, State.set_pending]

@[simp] theorem scbAbortCmd_pending (u : Nat) (s : State) : (scbAbortCmd u s).2.pending = s.pending := by
  grind [scbAbortCmd, State.set_pending, scbEnd_pending, scbPutQueue_pending, scbRefuse_pending, scbStop_pending]

@[simp] theorem calEngine_pending (force : Bool) (e : Nat) (s : State) : (calEngine force e s).pending = s.pending := by simp [calEngine]
@[simp] theorem scbBegin_pending (r : ScbReq) (s : State) : (scbBegin r s).pending = s.pending := by simp [scbBegin]

@[simp] theorem calibrationTaken_pending (s : State) : (calibrationTaken s).pending = s.pending := by
  unfold calibrationTaken
  split
  · rfl
  · split <;> simp

@[simp] theorem drainReady_pending (s : State) : (drainReady s).pending = s.pending := by
  unfold drainReady
  split <;> simp

@[simp] theorem drainTimeout_pending (s : State) : (drainTimeout s).pending = s.pending := by
  unfold drainTimeout
  split <;> simp

@[simp] theorem acceptEngine_pending (e : Nat) (xs : List (Nat × Int)) (t : Int) (s : State) :
    (acceptEngine e xs t s).pending = s.pending := by simp [acceptEngine]

@[simp] theorem acceptElems_pending (elems : List (Nat × Nat × Nat × Nat)) (tref : Nat → Nat → Int) (s : State) :
    (acceptElems elems tref s).pending = s.pending := by simp [acceptElems]

@[simp] theorem putSmalls_pending (k u f : Nat) (vs : List Int) (s : State) : (putSmalls k u f vs s).pending = s.pending := by
  simp [putSmalls]

@[simp] theorem scbAccept_pending (u : Nat) (m : CalMeasure) (s : State) : (scbAccept u m s).pending = s.pending := by
  unfold scbAccept
  split <;> simp

@[simp] theorem scbStore_pending (u : Nat) (s : State) : (scbStore u s).pending = s.pending := by simp [scbStore]
@[simp] theorem scbReturn_pending (u : Nat) (s : State) : (scbReturn u s).pending = s.pending := by simp [scbReturn]

@[simp] theorem scbAccepted_pending (r : ScbReq) (m : CalMeasure) (stored : Bool) (s : State) :
    (scbAccepted r m stored s).pending = s.pending := by simp [scbAccepted]

@[simp] theorem scbFailed_pending (r : ScbReq) (c : CalCheck) (v : Int) (s : State) : (scbFailed r c v s).pending = s.pending := by
  simp [scbFailed]

@[simp] theorem calibrationComplete_pending (m : CalMeasure) (stored : Bool) (s : State) :
    (calibrationComplete m stored s).pending = s.pending := by
  grind [calibrationComplete, scbFailed_pending, scbAccepted_pending, scbReturn_pending]

@[simp] theorem shadowRebuild_pending (e : Nat) (t : Int) (s : State) : (shadowRebuild e t s).pending = s.pending := by
  grind [shadowRebuild, State.putEng_pending]

@[simp] theorem execCalibrate_leavesQueue (src : CmdSrc) (a : CalArg) (s : State) : LeavesQueue s (execCalibrate src a s) := by
  unfold execCalibrate
  split <;> simp

@[simp] theorem execAbort_leavesQueue (src : CmdSrc) (unit : Byte) (s : State) : LeavesQueue s (execAbort src unit s) := by simp [execAbort]
@[simp] theorem execCalibrationTaken_leavesQueue (s : State) : LeavesQueue s (execCalibrationTaken s) := by simp [execCalibrationTaken]
@[simp] theorem execDrainReady_leavesQueue (s : State) : LeavesQueue s (execDrainReady s) := by simp [execDrainReady]
@[simp] theorem execDrainTimeout_leavesQueue (s : State) : LeavesQueue s (execDrainTimeout s) := by simp [execDrainTimeout]

@[simp] theorem execCalibrationComplete_leavesQueue (m : CalMeasure) (stored : Bool) (s : State) :
    LeavesQueue s (execCalibrationComplete m stored s) := by simp [execCalibrationComplete]

@[simp] theorem execShadowRebuild_leavesQueue (e : Sys2Proof.Eng) (temp256 : Int) (s : State) :
    LeavesQueue s (execShadowRebuild e temp256 s) := by simp [execShadowRebuild]

/-! ## Operations of Service.lean -/

@[simp] theorem keepWarm_pending (e en duty : Nat) (s : State) : (keepWarm e en duty s).pending = s.pending := by simp [keepWarm]
@[simp] theorem driverStop_pending (e : Nat) (s : State) : (driverStop e s).pending = s.pending := by simp [driverStop]
@[simp] theorem ucieLost_pending (e : Nat) (s : State) : (ucieLost e s).pending = s.pending := by simp [ucieLost]
@[simp] theorem selftestClear_pending (e code : Nat) (s : State) : (selftestClear e code s).pending = s.pending := by simp [selftestClear]

@[simp] theorem selftestStart_pending (e path : Nat) (s : State) : (selftestStart e path s).2.pending = s.pending := by
  grind [selftestStart, grant_pending, State.putEng_pending, routeQueued_pending, engEnter_pending]

@[simp] theorem selftestEnd_pending (e : Nat) (res : SelftestResult) (s : State) : (selftestEnd e res s).pending = s.pending := by
  grind [selftestEnd, selftestClear_pending, State.free_pending, logEvent_pending, State.setBit_pending, engineReturn_pending]

@[simp] theorem execSvcOutWrite_leavesQueue (r : Requester) (e : Sys2Proof.Eng) (val : BitVec 1) (s : State) :
    LeavesQueue s (execSvcOutWrite r e val s) := by simp [execSvcOutWrite]

@[simp] theorem execKeepWarmWrite_leavesQueue (r : Requester) (e : Sys2Proof.Eng) (en : BitVec 1) (duty : BitVec 3) (s : State) :
    LeavesQueue s (execKeepWarmWrite r e en duty s) := by simp [execKeepWarmWrite]

@[simp] theorem execDriverHeartbeatStop_leavesQueue (e : Sys2Proof.Eng) (s : State) : LeavesQueue s (execDriverHeartbeatStop e s) := by
  simp [execDriverHeartbeatStop]

@[simp] theorem execUcieLinkLost_leavesQueue (e : Sys2Proof.Eng) (s : State) : LeavesQueue s (execUcieLinkLost e s) := by
  simp [execUcieLinkLost]

@[simp] theorem execUcieRetrainTimeout_leavesQueue (e : Sys2Proof.Eng) (s : State) : LeavesQueue s (execUcieRetrainTimeout e s) := by
  simp [execUcieRetrainTimeout]

@[simp] theorem execEngineSelftest_leavesQueue (p : MusynPath) (e : Byte) (s : State) : LeavesQueue s (execEngineSelftest p e s) := by
  simp [execEngineSelftest]

@[simp] theorem execSelftestComplete_leavesQueue (e : Sys2Proof.Eng) (res : SelftestResult) (s : State) :
    LeavesQueue s (execSelftestComplete e res s) := by simp [execSelftestComplete]

/-! ## Operations of Reset.lean -/

@[simp] theorem sendControl_pending (d op : Nat) (data : List Byte) (s : State) : (sendControl d op data s).pending = s.pending := by
  simp [sendControl]

@[simp] theorem sendNotice_pending (op : Nat) (data : List Byte) (s : State) : (sendNotice op data s).pending = s.pending := by
  simp [sendNotice]

@[simp] theorem fabricControl_pending (src op : Nat) (data : List Byte) (s : State) :
    (fabricControl src op data s).pending = s.pending := by simp [fabricControl]

@[simp] theorem fcrxPut_pending (peg : Nat) (en : Bool) (s : State) : (fcrxPut peg en s).pending = s.pending := by simp [fcrxPut]
@[simp] theorem fctxSend_pending (s : State) : (fctxSend s).pending = s.pending := by simp [fctxSend]

@[simp] theorem resetTrigger_pending (kind cause : Nat) (cap : Bool) (s : State) : (resetTrigger kind cause cap s).pending = s.pending := by
  simp [resetTrigger]

@[simp] theorem computeTrigger_pending (cause : Nat) (s : State) : (computeTrigger cause s).pending = s.pending := by simp [computeTrigger]

@[simp] theorem computeReset_pending (cause path : Nat) (s : State) : (computeReset cause path s).2.pending = s.pending := by
  simp [computeReset]

@[simp] theorem engineClear_pending (e : Nat) (s : State) : (engineClear e s).pending = s.pending := by simp [engineClear]
@[simp] theorem computeClear_pending (s : State) : (computeClear s).pending = s.pending := by simp [computeClear]
@[simp] theorem coresInForce_pending (n : Nat) (s : State) : (coresInForce n s).pending = s.pending := by simp [coresInForce]
@[simp] theorem computeDone_pending (s : State) : (computeDone s).pending = s.pending := by simp [computeDone]
@[simp] theorem computeOverdue_pending (s : State) : (computeOverdue s).pending = s.pending := by simp [computeOverdue]
@[simp] theorem packageTrigger_pending (cause : Nat) (s : State) : (packageTrigger cause s).pending = s.pending := by simp [packageTrigger]

@[simp] theorem packageReset_pending (cause path : Nat) (s : State) : (packageReset cause path s).2.pending = s.pending := by
  simp [packageReset]

@[simp] theorem fabricEdge_pending (s : State) : (fabricEdge s).pending = s.pending := by simp [fabricEdge]
@[simp] theorem canStart_pending (s : State) : (canStart s).pending = s.pending := by simp [canStart]
@[simp] theorem dieReset_pending (s : State) : (dieReset s).pending = s.pending := by simp [dieReset]
@[simp] theorem tryDieReset_pending (s : State) : (tryDieReset s).pending = s.pending := by simp [tryDieReset]

@[simp] theorem captureComplete_pending (absent : Nat) (s : State) : (captureComplete absent s).pending = s.pending := by
  simp [captureComplete]

@[simp] theorem summaryWritten_pending (ok : Bool) (s : State) : (summaryWritten ok s).pending = s.pending := by
  unfold summaryWritten
  split <;> simp

@[simp] theorem fnReset_pending (f : Nat) (s : State) : (fnReset f s).pending = s.pending := by simp [fnReset]
@[simp] theorem noVfs_pending (s : State) : (noVfs s).pending = s.pending := by simp [noVfs]
@[simp] theorem hotReset_pending (s : State) : (hotReset s).pending = s.pending := by simp [hotReset]
@[simp] theorem perstAssert_pending (s : State) : (perstAssert s).pending = s.pending := by simp [perstAssert]
@[simp] theorem powerOn_pending (node : Nat) (perst : Bool) (s : State) : (powerOn node perst s).pending = s.pending := by simp [powerOn]
@[simp] theorem execPerstAssert_leavesQueue (s : State) : LeavesQueue s (execPerstAssert s) := by simp [execPerstAssert]
@[simp] theorem execHotReset_leavesQueue (s : State) : LeavesQueue s (execHotReset s) := by simp [execHotReset]
@[simp] theorem execFlrPf0_leavesQueue (s : State) : LeavesQueue s (execFlrPf0 s) := by simp [execFlrPf0]
@[simp] theorem execFlrVf_leavesQueue (n : Fin 16) (s : State) : LeavesQueue s (execFlrVf n s) := by simp [execFlrVf]

@[simp] theorem execComputeReset_leavesQueue (src : CmdSrc) (s : State) : LeavesQueue s (execComputeReset src s) := by
  simp [execComputeReset]

@[simp] theorem execCaptureComplete_leavesQueue (absent : BitVec 8) (s : State) : LeavesQueue s (execCaptureComplete absent s) := by
  simp [execCaptureComplete]

@[simp] theorem execComputeResetDone_leavesQueue (s : State) : LeavesQueue s (execComputeResetDone s) := by simp [execComputeResetDone]

@[simp] theorem execComputeResetOverdue_leavesQueue (s : State) : LeavesQueue s (execComputeResetOverdue s) := by
  simp [execComputeResetOverdue]

@[simp] theorem execPackageReset_leavesQueue (src : CmdSrc) (s : State) : LeavesQueue s (execPackageReset src s) := by
  simp [execPackageReset]

@[simp] theorem execSummaryWritten_leavesQueue (ok : Bool) (s : State) : LeavesQueue s (execSummaryWritten ok s) := by
  simp [execSummaryWritten]

@[simp] theorem execSend_leavesQueue (r : Requester) (s : State) : LeavesQueue s (execSend r s) :=
  attempt_leavesQueue _ _ (gated_pending _ _ _ · (cmdWrite_pending _ _ · fctxSend_pending))

@[simp] theorem execFabricControlArrival_leavesQueue (env : Envelope) (op : Byte) (data : List Byte) (s : State) :
    LeavesQueue s (execFabricControlArrival env op data s) := by simp [execFabricControlArrival]

@[simp] theorem execFcrxEnable_leavesQueue (r : Requester) (peg : BitVec 20) (s : State) : LeavesQueue s (execFcrxEnable r peg s) := by
  simp [execFcrxEnable]

@[simp] theorem execPowerOn_leavesQueue (nodeId : BitVec 7) (perstAsserted : Bool) (s : State) :
    LeavesQueue s (execPowerOn nodeId perstAsserted s) := by simp [execPowerOn]

/-! ## Operations of Dict.lean -/

@[simp] theorem settingForce_pending (i v : Nat) (s : State) : (settingForce i v s).pending = s.pending := by simp [settingForce]
@[simp] theorem settingWrite_pending (i v : Nat) (s : State) : (settingWrite i v s).2.pending = s.pending := by simp [settingWrite]

/-! ## Operations of Boot.lean -/

@[simp] theorem ledgerPut_pending (f : LedgerRec → LedgerRec) (s : State) : (ledgerPut f s).pending = s.pending := by
  unfold ledgerPut
  split <;> simp

@[simp] theorem stepMark_pending (k v : Nat) (s : State) : (stepMark k v s).pending = s.pending := by simp [stepMark]

@[simp] theorem unitOut_pending (k kind i : Nat) (kept : Bool) (s : State) : (unitOut k kind i kept s).pending = s.pending := by
  simp [unitOut]

@[simp] theorem unitsOut_pending (k kind n kept failed : Nat) (s : State) : (unitsOut k kind n kept failed s).pending = s.pending := by
  simp [unitsOut]

@[simp] theorem bootHalt_pending (code : Nat) (s : State) : (bootHalt code s).pending = s.pending := by simp [bootHalt]
@[simp] theorem abandon_pending (b : Nat) (s : State) : (abandon b s).pending = s.pending := by simp [abandon]

@[simp] theorem requiredFailed_pending (k halt : Nat) (s : State) : (requiredFailed k halt s).pending = s.pending := by
  grind [requiredFailed, stepMark_pending, abandon_pending, bootHalt_pending]

@[simp] theorem mountFailed_pending (s : State) : (mountFailed s).pending = s.pending := by simp [mountFailed]
@[simp] theorem stepBegin_pending (k : Nat) (s : State) : (stepBegin k s).pending = s.pending := by simp [stepBegin]
@[simp] theorem bootMount_pending (s : State) : (bootMount s).pending = s.pending := by simp [bootMount]
@[simp] theorem ledgerNew_pending (s : State) : (ledgerNew s).pending = s.pending := by simp [ledgerNew]
@[simp] theorem bootStep2_pending (b : BootEnv) (s : State) : (bootStep2 b s).2.pending = s.pending := by simp [bootStep2]
@[simp] theorem authFailed_pending (b : Nat) (s : State) : (authFailed b s).pending = s.pending := by simp [authFailed]
@[simp] theorem slotRuns_pending (b : Nat) (s : State) : (slotRuns b s).pending = s.pending := by simp [slotRuns]

@[simp] theorem bootStep3_pending (b : BootEnv) (s : State) : (bootStep3 b s).2.pending = s.pending := by
  grind [bootStep3, showSlots_pending, bootHalt_pending, stepMark_pending, slotRuns_pending, authFailed_pending]

@[simp] theorem cfgApply_pending (s : State) : (cfgApply s).pending = s.pending := by simp [cfgApply]
@[simp] theorem bootStep4_pending (b : BootEnv) (s : State) : (bootStep4 b s).2.pending = s.pending := by simp [bootStep4]
@[simp] theorem hbmConfig_pending (bays : List Nat) (s : State) : (hbmConfig bays s).pending = s.pending := by simp [hbmConfig]
@[simp] theorem dumpKept_pending (bays : List Nat) (s : State) : (dumpKept bays s).pending = s.pending := by simp [dumpKept]
@[simp] theorem bayPower_pending (n : Nat) (s : State) : (bayPower n s).pending = s.pending := by simp [bayPower]
@[simp] theorem bootStep5_pending (b : BootEnv) (s : State) : (bootStep5 b s).2.pending = s.pending := by simp [bootStep5]
@[simp] theorem laserBoot_pending (bad j : Nat) (s : State) : (laserBoot bad j s).pending = s.pending := by simp [laserBoot]

@[simp] theorem spareBoot_pending (bad b : Nat) (s : State) : (spareBoot bad b s).pending = s.pending := by
  unfold spareBoot
  split <;> simp

@[simp] theorem bootStep6_pending (b : BootEnv) (s : State) : (bootStep6 b s).2.pending = s.pending := by simp [bootStep6]
@[simp] theorem engBoot_pending (out e : Nat) (s : State) : (engBoot out e s).pending = s.pending := by simp [engBoot]
@[simp] theorem bootStep7_pending (b : BootEnv) (s : State) : (bootStep7 b s).2.pending = s.pending := by simp [bootStep7]

@[simp] theorem calUnit_pending (missing : List Nat) (u : Nat) (s : State) : (calUnit missing u s).pending = s.pending := by
  grind [calUnit, State.setBit_pending, State.set_pending]

@[simp] theorem calEngineBoot_pending (e : Nat) (s : State) : (calEngineBoot e s).pending = s.pending := by simp [calEngineBoot]
@[simp] theorem bootStep8_pending (b : BootEnv) (s : State) : (bootStep8 b s).2.pending = s.pending := by simp [bootStep8]
@[simp] theorem gatesBoot_pending (a b : Bool) (s : State) : (gatesBoot a b s).pending = s.pending := by simp [gatesBoot]
@[simp] theorem bootStep9_pending (b : BootEnv) (s : State) : (bootStep9 b s).2.pending = s.pending := by simp [bootStep9]

@[simp] theorem engRelease_pending (bays : List Nat) (out e : Nat) (s : State) : (engRelease bays out e s).pending = s.pending := by
  simp [engRelease]

@[simp] theorem bootStep10_pending (b : BootEnv) (s : State) : (bootStep10 b s).2.pending = s.pending := by simp [bootStep10]
@[simp] theorem bootStep11_pending (s : State) : (bootStep11 s).pending = s.pending := by simp [bootStep11]
@[simp] theorem bootStep_pending (b : BootEnv) (k : Nat) (s : State) : (bootStep b k s).2.pending = s.pending := by simp [bootStep]

@[simp] theorem bootRun_pending (b : BootEnv) (n n' : Nat) (s : State) : (bootRun b n n' s).pending = s.pending := by
  fun_induction bootRun b n n' s <;> grind [stepBegin_pending, bootStep_pending]

@[simp] theorem bootBegin_pending (b : BootEnv) (attempt : Nat) (s : State) : (bootBegin b attempt s).pending = s.pending := by
  simp [bootBegin]

@[simp] theorem bootStart_pending (b : BootEnv) (s : State) : (bootStart b s).pending = s.pending := by simp [bootStart]

@[simp] theorem bootTimeout_pending (s : State) : (bootTimeout s).pending = s.pending := by
  unfold bootTimeout
  split <;> simp

@[simp] theorem bootRestart_pending (b : BootEnv) (s : State) : (bootRestart b s).pending = s.pending := by
  unfold bootRestart
  split <;> simp

@[simp] theorem bootResume_pending (s : State) : (bootResume s).pending = s.pending := by
  unfold bootResume
  split <;> simp

@[simp] theorem execBootStart_leavesQueue (b : BootEnv) (s : State) : LeavesQueue s (execBootStart b s) := by simp [execBootStart]
@[simp] theorem execBootStepTimeout_leavesQueue (s : State) : LeavesQueue s (execBootStepTimeout s) := by simp [execBootStepTimeout]
@[simp] theorem execBootRestart_leavesQueue (b : BootEnv) (s : State) : LeavesQueue s (execBootRestart b s) := by simp [execBootRestart]

/-! ## Operations of Power.lean -/

@[simp] theorem domState_pending (d st : Nat) (s : State) : (domState d st s).pending = s.pending := by simp [domState]
@[simp] theorem engineOff_pending (e : Nat) (s : State) : (engineOff e s).pending = s.pending := by simp [engineOff]
@[simp] theorem engineOn_pending (e : Nat) (s : State) : (engineOn e s).pending = s.pending := by simp [engineOn]
@[simp] theorem linkGroupOff_pending (g : Nat) (s : State) : (linkGroupOff g s).pending = s.pending := by simp [linkGroupOff]
@[simp] theorem planeBack_pending (m : Nat) (s : State) : (planeBack m s).pending = s.pending := by simp [planeBack]
@[simp] theorem linkGroupOn_pending (g : Nat) (s : State) : (linkGroupOn g s).pending = s.pending := by simp [linkGroupOn]
@[simp] theorem heatersOff_pending (s : State) : (heatersOff s).pending = s.pending := by simp [heatersOff]
@[simp] theorem domLost_pending (d : Nat) (s : State) : (domLost d s).pending = s.pending := by simp [domLost]
@[simp] theorem domBack_pending (d : Nat) (s : State) : (domBack d s).pending = s.pending := by simp [domBack]
@[simp] theorem domPut_pending (d : Nat) (on : Bool) (s : State) : (domPut d on s).pending = s.pending := by simp [domPut]
@[simp] theorem dieDead_pending (k : Nat) (s : State) : (dieDead k s).pending = s.pending := by simp [dieDead]
@[simp] theorem bayEngines_pending (n : Nat) (s : State) : (bayEngines n s).pending = s.pending := by simp [bayEngines]

@[simp] theorem dieFault_pending (d : FailDie) (s : State) : (dieFault d s).pending = s.pending := by
  unfold dieFault
  split <;> simp

@[simp] theorem domGone_pending (d : Nat) (s : State) : (domGone d s).pending = s.pending := by simp [domGone]
@[simp] theorem ivrFault_pending (i : Nat) (s : State) : (ivrFault i s).pending = s.pending := by simp [ivrFault]
@[simp] theorem capTick_pending (d avg : Nat) (s : State) : (capTick d avg s).pending = s.pending := by simp [capTick]
@[simp] theorem shutDown_pending (s : State) : (shutDown s).pending = s.pending := by simp [shutDown]
@[simp] theorem brownOut_pending (s : State) : (brownOut s).pending = s.pending := by simp [brownOut]
@[simp] theorem thermTrip_pending (i : Nat) (t : Int) (s : State) : (thermTrip i t s).pending = s.pending := by simp [thermTrip]

@[simp] theorem tempSample_pending (i : Nat) (t : Int) (s : State) : (tempSample i t s).pending = s.pending := by
  grind [tempSample, State.set_pending, State.setBit_pending, setAlert_pending, logAlert_pending, lifeInc_pending, thermTrip_pending]

@[simp] theorem canGate_pending (s : State) : (canGate s).pending = s.pending := by simp [canGate]
@[simp] theorem refclkChange_pending (present : Bool) (s : State) : (refclkChange present s).pending = s.pending := by simp [refclkChange]
@[simp] theorem linkUp_pending (gen width : Nat) (s : State) : (linkUp gen width s).pending = s.pending := by simp [linkUp]
@[simp] theorem putCfg_pending (f : Nat) (g : FnCfg → FnCfg) (s : State) : (putCfg f g s).pending = s.pending := by simp [putCfg]

@[simp] theorem configWrite_pending (f : Nat) (w : CfgWrite) (s : State) : (configWrite f w s).pending = s.pending := by
  cases w <;> simp [configWrite]

@[simp] theorem execPowerDomainOn_leavesQueue (r : Requester) (d : PwrDom) (s : State) : LeavesQueue s (execPowerDomainOn r d s) := by
  simp [execPowerDomainOn]

@[simp] theorem execPowerDomainOff_leavesQueue (r : Requester) (d : PwrDom) (s : State) : LeavesQueue s (execPowerDomainOff r d s) := by
  simp [execPowerDomainOff]

@[simp] theorem execIvrFault_leavesQueue (i : Fin 15) (s : State) : LeavesQueue s (execIvrFault i s) := by simp [execIvrFault]

@[simp] theorem execCapControlTick_leavesQueue (d : PwrDom) (avgDeciwatt : Nat) (s : State) :
    LeavesQueue s (execCapControlTick d avgDeciwatt s) := by simp [execCapControlTick]

@[simp] theorem execBrownOut_leavesQueue (s : State) : LeavesQueue s (execBrownOut s) := by simp [execBrownOut]

@[simp] theorem execTempSample_leavesQueue (i : Die) (temp256 : Int) (s : State) : LeavesQueue s (execTempSample i temp256 s) := by
  simp [execTempSample]

@[simp] theorem execDieFault_leavesQueue (d : FailDie) (s : State) : LeavesQueue s (execDieFault d s) := by simp [execDieFault]

@[simp] theorem execLinkRefclkChange_leavesQueue (present : Bool) (s : State) : LeavesQueue s (execLinkRefclkChange present s) := by
  simp [execLinkRefclkChange]

@[simp] theorem execPcieLinkUp_leavesQueue (gen : Fin 7) (width : Fin 17) (s : State) : LeavesQueue s (execPcieLinkUp gen width s) := by
  simp [execPcieLinkUp]

@[simp] theorem execConfigurationWrite_leavesQueue (f : Fn) (w : CfgWrite) (s : State) : LeavesQueue s (execConfigurationWrite f w s) := by
  simp [execConfigurationWrite]

/-! ## Operations of Store.lean -/

@[simp] theorem fwState_pending (st : Nat) (s : State) : (fwState st s).pending = s.pending := by simp [fwState]
@[simp] theorem fwRefuse_pending (reason : Nat) (s : State) : (fwRefuse reason s).2.pending = s.pending := by simp [fwRefuse]
@[simp] theorem fwErase_pending (b : Nat) (s : State) : (fwErase b s).pending = s.pending := by simp [fwErase]
@[simp] theorem fwEnd_pending (st : Nat) (s : State) : (fwEnd st s).pending = s.pending := by simp [fwEnd]
@[simp] theorem fwStart_pending (path : Nat) (f : FwStaging) (s : State) : (fwStart path f s).pending = s.pending := by simp [fwStart]

@[simp] theorem pfOnly_pending (path : Nat) (eff : State → CmdRes × State) (s : State) (heff : ∀ t, (eff t).2.pending = t.pending) :
    (pfOnly path eff s).2.pending = s.pending := by simp [pfOnly, heff]

@[simp] theorem fwStage_pending (addr len path : Nat) (s : State) : (fwStage addr len path s).2.pending = s.pending := by
  -- The equation of `fwStage` is taken of the function itself, as for `agentLeaf`.
  obtain ⟨f, hf⟩ : ∃ f, f = fwStage := ⟨_, rfl⟩
  rw [← hf]
  delta fwStage at hf
  have hs := congrFun (congrFun (congrFun (congrFun hf addr) len) path) s
  rw [hs]
  cases firstHeld s [permSlots] with
  | some p => rfl
  | none =>
    dsimp only
    split
    · exact fwRefuse_pending _ _
    · split
      · exact fwRefuse_pending _ _
      · rw [fwErase_pending, fwStart_pending]

@[simp] theorem fwBegin_pending (len path : Nat) (s : State) : (fwBegin len path s).2.pending = s.pending := by
  unfold fwBegin
  split <;> simp

@[simp] theorem fwData_pending (off : Nat) (data : List Byte) (s : State) : (fwData off data s).2.pending = s.pending := by
  unfold fwData
  split <;> simp

@[simp] theorem fwAbort_pending (s : State) : (fwAbort s).2.pending = s.pending := by
  unfold fwAbort
  split <;> simp

@[simp] theorem stagingComplete_pending (ok : Bool) (s : State) : (stagingComplete ok s).pending = s.pending := by
  unfold stagingComplete
  split <;> simp

@[simp] theorem bootSlot_pending (v : Nat) (s : State) : (bootSlot v s).2.pending = s.pending := by simp [bootSlot]
@[simp] theorem ledgerRetry_pending (u : Nat) (s : State) : (ledgerRetry u s).2.pending = s.pending := by simp [ledgerRetry]
@[simp] theorem cfgReset_pending (path : Nat) (s : State) : (cfgReset path s).2.pending = s.pending := by simp [cfgReset]

@[simp] theorem logWrite_pending (ok : Bool) (s : State) : (logWrite ok s).pending = s.pending := by
  grind [logWrite, logFull_pending, State.set_pending]

@[simp] theorem logCur_pending (i : Nat) (s : State) : (logCur i s).pending = s.pending := by simp [logCur]
@[simp] theorem logWindow_pending (s : State) : (logWindow s).pending = s.pending := by simp [logWindow]

@[simp] theorem logClear_pending (path : Nat) (s : State) : (logClear path s).2.pending = s.pending := by
  unfold logClear
  split <;> simp

@[simp] theorem logCleared_pending (ok : Bool) (s : State) : (logCleared ok s).pending = s.pending := by simp [logCleared]

@[simp] theorem execFwStage_leavesQueue (p : MusynPath) (addr : BitVec 64) (len : BitVec 32) (s : State) :
    LeavesQueue s (execFwStage p addr len s) := by simp [execFwStage]

@[simp] theorem execFwBegin_leavesQueue (p : MusynPath) (len : BitVec 32) (s : State) : LeavesQueue s (execFwBegin p len s) := by
  simp [execFwBegin]

@[simp] theorem execFwData_leavesQueue (p : MusynPath) (off : BitVec 32) (data : List Byte) (s : State) :
    LeavesQueue s (execFwData p off data s) := by simp [execFwData]

@[simp] theorem execFwAbort_leavesQueue (p : MusynPath) (s : State) : LeavesQueue s (execFwAbort p s) := by simp [execFwAbort]

@[simp] theorem execStagingComplete_leavesQueue (ok : Bool) (s : State) : LeavesQueue s (execStagingComplete ok s) := by
  simp [execStagingComplete]

@[simp] theorem execBootSlot_leavesQueue (p : MusynPath) (v : Byte) (s : State) : LeavesQueue s (execBootSlot p v s) := by
  simp [execBootSlot]

@[simp] theorem execLedgerRetry_leavesQueue (p : MusynPath) (unit : BitVec 16) (s : State) : LeavesQueue s (execLedgerRetry p unit s) := by
  simp [execLedgerRetry]

@[simp] theorem execCfgReset_leavesQueue (p : MusynPath) (s : State) : LeavesQueue s (execCfgReset p s) := by simp [execCfgReset]
@[simp] theorem execOperSecondsSave_leavesQueue (s : State) : LeavesQueue s (execOperSecondsSave s) := by simp [execOperSecondsSave]
@[simp] theorem execLogRecord_leavesQueue (ev : LogEvent) (s : State) : LeavesQueue s (execLogRecord ev s) := by simp [execLogRecord]

@[simp] theorem execLogRecordWrite_leavesQueue (ok : Bool) (s : State) : LeavesQueue s (execLogRecordWrite ok s) := by
  simp [execLogRecordWrite]

@[simp] theorem execLogCurWrite_leavesQueue (r : Requester) (index : BitVec 17) (s : State) :
    LeavesQueue s (execLogCurWrite r index s) := by simp [execLogCurWrite]

@[simp] theorem execLogWindowReady_leavesQueue (s : State) : LeavesQueue s (execLogWindowReady s) := by simp [execLogWindowReady]
@[simp] theorem execLogClear_leavesQueue (p : MusynPath) (s : State) : LeavesQueue s (execLogClear p s) := by simp [execLogClear]

@[simp] theorem execLogClearComplete_leavesQueue (ok : Bool) (s : State) : LeavesQueue s (execLogClearComplete ok s) := by
  simp [execLogClearComplete]

/-! ## Operations of TimeRows.lean -/

@[simp] theorem timeOut_pending (p msg d seq stamp : Nat) (s : State) : (timeOut p msg d seq stamp s).pending = s.pending := by
  simp [timeOut]

@[simp] theorem dropExch_pending (d : Nat) (s : State) : (dropExch d s).pending = s.pending := by simp [dropExch]
@[simp] theorem applyRate_pending (d : Nat) (s : State) : (applyRate d s).pending = s.pending := by simp [applyRate]

@[simp] theorem acceptExch_pending (d hops : Nat) (th2 : Int) (s : State) : (acceptExch d hops th2 s).pending = s.pending := by
  simp [acceptExch]

@[simp] theorem finishExch_pending (d : Nat) (e : Exch) (s : State) : (finishExch d e s).pending = s.pending := by
  unfold finishExch
  split <;> simp

@[simp] theorem settle_pending (d : Nat) (s : State) : (settle d s).pending = s.pending := by simp [settle]
@[simp] theorem trkRestart_pending (d : Nat) (s : State) : (trkRestart d s).pending = s.pending := by simp [trkRestart]
@[simp] theorem syncIn_pending (p : Nat) (b : TimeBody) (raw : Nat) (s : State) : (syncIn p b raw s).pending = s.pending := by simp [syncIn]
@[simp] theorem syncSend_pending (d : Nat) (s : State) : (syncSend d s).pending = s.pending := by simp [syncSend]

@[simp] theorem delayReqIn_pending (p : Nat) (b : TimeBody) (raw : Nat) (s : State) : (delayReqIn p b raw s).pending = s.pending := by
  simp [delayReqIn]

@[simp] theorem delayReqSend_pending (d raw : Nat) (s : State) : (delayReqSend d raw s).pending = s.pending := by
  grind [delayReqSend, State.putDom_pending, timeOut_pending]

@[simp] theorem delayRespIn_pending (p : Nat) (b : TimeBody) (s : State) : (delayRespIn p b s).pending = s.pending := by simp [delayRespIn]
@[simp] theorem trackerLoss_pending (d : Nat) (s : State) : (trackerLoss d s).pending = s.pending := by simp [trackerLoss]
@[simp] theorem primaryReturn_pending (s : State) : (primaryReturn s).pending = s.pending := by simp [primaryReturn]
@[simp] theorem primaryPut_pending (v : Nat) (s : State) : (primaryPut v s).pending = s.pending := by simp [primaryPut]
@[simp] theorem slewComplete_pending (s : State) : (slewComplete s).pending = s.pending := by simp [slewComplete]
@[simp] theorem domConfig_pending (d v : Nat) (s : State) : (domConfig d v s).pending = s.pending := by simp [domConfig]
@[simp] theorem ftmStep_pending (δ : Int) (s : State) : (ftmStep δ s).pending = s.pending := by simp [ftmStep]
@[simp] theorem ftmSet_pending (s : State) : (ftmSet s).pending = s.pending := by simp [ftmSet]
@[simp] theorem ftmAdjust_pending (s : State) : (ftmAdjust s).pending = s.pending := by simp [ftmAdjust]
@[simp] theorem ppsIn_pending (s : State) : (ppsIn s).pending = s.pending := by simp [ppsIn]
@[simp] theorem ppsTimeout_pending (s : State) : (ppsTimeout s).pending = s.pending := by simp [ppsTimeout]
@[simp] theorem ppsPulse_pending (s : State) : (ppsPulse s).pending = s.pending := by simp [ppsPulse]

@[simp] theorem execSync_leavesQueue (p : Port) (b : TimeBody) (rxStamp : BitVec 64) (s : State) :
    LeavesQueue s (execSync p b rxStamp s) := by simp [execSync]

@[simp] theorem execSyncSend_leavesQueue (d : Domain) (s : State) : LeavesQueue s (execSyncSend d s) := by simp [execSyncSend]

@[simp] theorem execDelayReq_leavesQueue (p : Port) (b : TimeBody) (rxStamp : BitVec 64) (s : State) :
    LeavesQueue s (execDelayReq p b rxStamp s) := by simp [execDelayReq]

@[simp] theorem execDelayReqSend_leavesQueue (d : Domain) (txStamp : BitVec 64) (s : State) :
    LeavesQueue s (execDelayReqSend d txStamp s) := by simp [execDelayReqSend]

@[simp] theorem execDelayResp_leavesQueue (p : Port) (b : TimeBody) (s : State) : LeavesQueue s (execDelayResp p b s) := by
  simp [execDelayResp]

@[simp] theorem execTrackerLoss_leavesQueue (d : Domain) (s : State) : LeavesQueue s (execTrackerLoss d s) := by simp [execTrackerLoss]
@[simp] theorem execPrimaryReturn_leavesQueue (s : State) : LeavesQueue s (execPrimaryReturn s) := by simp [execPrimaryReturn]
@[simp] theorem execSlewComplete_leavesQueue (s : State) : LeavesQueue s (execSlewComplete s) := by simp [execSlewComplete]

@[simp] theorem execDomainConfigWrite_leavesQueue (r : Requester) (d : Domain) (val : BitVec 32) (s : State) :
    LeavesQueue s (execDomainConfigWrite r d val s) := by simp [execDomainConfigWrite]

@[simp] theorem execFtmSet_leavesQueue (r : Requester) (s : State) : LeavesQueue s (execFtmSet r s) := by simp [execFtmSet]
@[simp] theorem execFtmAdjust_leavesQueue (r : Requester) (s : State) : LeavesQueue s (execFtmAdjust r s) := by simp [execFtmAdjust]
@[simp] theorem execPpsInEdge_leavesQueue (s : State) : LeavesQueue s (execPpsInEdge s) := by simp [execPpsInEdge]
@[simp] theorem execPpsInTimeout_leavesQueue (s : State) : LeavesQueue s (execPpsInTimeout s) := by simp [execPpsInTimeout]
@[simp] theorem execPpsOutPulse_leavesQueue (s : State) : LeavesQueue s (execPpsOutPulse s) := by simp [execPpsOutPulse]

/-! ## Operations of RegWrite.lean -/

theorem State.putLatch_pending (s : State) (k : Nat) (l : Latch) : (s.putLatch k l).pending = s.pending := rfl

@[simp] theorem putFld_pending (w : RegW) (s : State) (f : Fld) : (putFld w s f).pending = s.pending := by
  unfold putFld
  split <;> simp

@[simp] theorem putFields_pending (w : RegW) (s : State) : (putFields w s).pending = s.pending := by simp [putFields]
@[simp] theorem drvLevelPut_pending (v : Nat) (s : State) : (drvLevelPut v s).pending = s.pending := by simp [drvLevelPut]
@[simp] theorem drvFeaturePut_pending (i v : Nat) (s : State) : (drvFeaturePut i v s).pending = s.pending := by simp [drvFeaturePut]
@[simp] theorem pwatchPut_pending (f i : Nat) (w : RegW) (s : State) : (pwatchPut f i w s).pending = s.pending := by simp [pwatchPut]
@[simp] theorem fcrxWrite_pending (w : RegW) (s : State) : (fcrxWrite w s).pending = s.pending := by simp [fcrxWrite]

@[simp] theorem oneCmd_pending (c : CmdReg) (v : Nat) (eff : State → State) (s : State) (heff : ∀ t, (eff t).pending = t.pending) :
    (oneCmd c v eff s).pending = s.pending := by simp [oneCmd, heff]

@[simp] theorem fnPut_pending (sub : Nat → State → State) (f b : Nat) (w : RegW) (s : State) (hsub : ∀ a t, (sub a t).pending = t.pending) :
    (fnPut sub f b w s).pending = s.pending := by simp [fnPut, hsub]

@[simp] theorem hubPut_pending (sub : Nat → State → State) (x : Src) (w : RegW) (s : State) (hsub : ∀ a t, (sub a t).pending = t.pending) :
    (hubPut sub x w s).pending = s.pending := by simp [hubPut, hsub]

@[simp] theorem pmxCtlPut_pending (e : Nat) (w : RegW) (s : State) : (pmxCtlPut e w s).pending = s.pending := by simp [pmxCtlPut]
@[simp] theorem dspQPut_pending (t q o : Nat) (w : RegW) (s : State) : (dspQPut t q o w s).pending = s.pending := by simp [dspQPut]
@[simp] theorem dspPut_pending (w : RegW) (s : State) : (dspPut w s).pending = s.pending := by simp [dspPut]
@[simp] theorem tsatpPut_pending (t : Nat) (w : RegW) (s : State) : (tsatpPut t w s).pending = s.pending := by simp [tsatpPut]
@[simp] theorem memPut_pending (w : RegW) (s : State) : (memPut w s).pending = s.pending := by simp [memPut]
@[simp] theorem pegRegPut_pending (w : RegW) (s : State) : (pegRegPut w s).pending = s.pending := by simp [pegRegPut]
@[simp] theorem portPut_pending (p o : Nat) (w : RegW) (s : State) : (portPut p o w s).pending = s.pending := by simp [portPut]
@[simp] theorem lnkGlobalPut_pending (w : RegW) (s : State) : (lnkGlobalPut w s).pending = s.pending := by simp [lnkGlobalPut]
@[simp] theorem lnkPut_pending (w : RegW) (s : State) : (lnkPut w s).pending = s.pending := by simp [lnkPut]

@[simp] theorem argCmd_pending (c : CmdReg) (w : RegW) (path : Nat) (eff : Nat → State → Option (Nat → State → CmdRes × State)) (s : State)
    (heff : ∀ n t f, eff n t = some f → ∀ a u, (f a u).2.pending = u.pending) : (argCmd c w path eff s).pending = s.pending := by
  refine cmdWrite_pending _ _ _ fun t => ?_
  dsimp only
  split
  · next f h => rw [heff _ _ _ h, putFields_pending]
  · simp

/-- Every command of HDG_CMD leaves the queue. -/
theorem hdgOp_pending {n : Nat} {s : State} {f : Nat → State → CmdRes × State} (h : hdgOp n s = some f) (a : Nat) (t : State) :
    (f a t).2.pending = t.pending := by
  unfold hdgOp at h
  split at h <;> cases h <;> simp

/-- Every command of LAS_CMD leaves the queue. -/
theorem lasOp_pending {j n : Nat} {f : Nat → State → CmdRes × State} (h : lasOp j n = some f) (a : Nat) (t : State) :
    (f a t).2.pending = t.pending := by
  unfold lasOp at h
  split at h <;> cases h <;> simp

/-- Every command of SCB_CMD leaves the queue. -/
theorem scbOp_pending {n : Nat} {s : State} {f : Nat → State → CmdRes × State} (h : scbOp n s = some f) (a : Nat) (t : State) :
    (f a t).2.pending = t.pending := by
  unfold scbOp at h
  split at h <;> cases h <;> simp

@[simp] theorem lightPut_pending (x : Src) (w : RegW) (s : State) : (lightPut x w s).pending = s.pending := by
  simp only [lightPut, pending_ite]
  rw [argCmd_pending _ _ _ _ _ fun _ _ _ => hdgOp_pending, argCmd_pending _ _ _ _ _ fun _ _ _ => lasOp_pending,
    argCmd_pending _ _ _ _ _ fun _ _ _ => scbOp_pending, argCmd_pending, putFields_pending]
  · simp
  · intro n t f h a u
    split at h <;> cases h
    simp

@[simp] theorem ftmCfgPut_pending (w : RegW) (s : State) : (ftmCfgPut w s).pending = s.pending := by simp [ftmCfgPut]
@[simp] theorem ftmPut_pending (w : RegW) (s : State) : (ftmPut w s).pending = s.pending := by simp [ftmPut]
@[simp] theorem tailPut_pending (w : RegW) (s : State) : (tailPut w s).pending = s.pending := by simp [tailPut]
@[simp] theorem loopPut_pending (w : RegW) (s : State) : (loopPut w s).pending = s.pending := by simp [loopPut]

@[simp] theorem regPut_pending (sub : Nat → State → State) (x : Src) (w : RegW) (s : State) (hsub : ∀ a t, (sub a t).pending = t.pending) :
    (regPut sub x w s).pending = s.pending := by simp [regPut, hsub]

@[simp] theorem writeWord_pending (sub : Nat → State → State) (x : Src) (a i : Nat) (bs : List Byte) (s : State) (hsub : ∀ a t,
    (sub a t).pending = t.pending) :
    (writeWord sub x a i bs s).pending = s.pending := by
  grind [writeWord, stagePart_pending, State.incSat_pending, regPut_pending, State.putLatch_pending]

@[simp] theorem writePart_pending (sub : Nat → State → State) (x : Src) (off i : Nat) (bs : List Byte) (s : State) (hsub : ∀ a t,
    (sub a t).pending = t.pending) :
    (writePart sub x off i bs s).pending = s.pending := by
  grind [writePart, State.incSat_pending, writeWord_pending, State.undef_pending]

@[simp] theorem writeBytes_pending (sub : Nat → State → State) (x : Src) (off : Nat) (bs : List Byte) (s : State) (hsub : ∀ a t,
    (sub a t).pending = t.pending) :
    (writeBytes sub x off bs s).pending = s.pending := by simp [writeBytes, hsub]

@[simp] theorem clearRc_pending (fs : List Fld) (en : Nat) (s : State) : (clearRc fs en s).pending = s.pending := by simp [clearRc]

@[simp] theorem readWord_pending (x : Src) (a en : Nat) (s : State) : (readWord x a en s).2.pending = s.pending := by
  unfold readWord
  split <;> simp

@[simp] theorem readPart_pending (x : Src) (off i n : Nat) (s : State) : (readPart x off i n s).2.pending = s.pending := by
  unfold readPart
  dsimp only
  split
  · simp
  · split <;> simp
  · simp

@[simp] theorem readBytes_pending (x : Src) (off n : Nat) (s : State) : (readBytes x off n s).2.pending = s.pending := by simp [readBytes]

@[simp] theorem busRead_pending (r : Requester) (off n : Nat) (s : State) : (busRead r off n s).pending = s.pending := by
  grind [busRead, readBytes_pending, State.answer_pending]

/-! ## Operations of Musyn.lean -/

@[simp] theorem canRestartNow_pending (s : State) : (canRestartNow s).pending = s.pending := by simp [canRestartNow]

@[simp] theorem permitClaim_pending (mask path : Nat) (s : State) : (permitClaim mask path s).2.pending = s.pending := by
  grind [permitClaim, grant_pending]

@[simp] theorem permitRelease_pending (mask : Nat) (force : Bool) (path : Nat) (s : State) :
    (permitRelease mask force path s).2.pending = s.pending := by simp [permitRelease]

@[simp] theorem regReadCmd_pending (off len path : Nat) (s : State) : (regReadCmd off len path s).2.pending = s.pending := by
  grind [regReadCmd, readBytes_pending]

@[simp] theorem regWriteCmd_pending (sub : Nat → State → State) (off : Nat) (bs : List Byte) (path : Nat) (s : State) (hsub : ∀ a t,
    (sub a t).pending = t.pending) :
    (regWriteCmd sub off bs path s).2.pending = s.pending := by simp [regWriteCmd, hsub]

@[simp] theorem ofReg_pending (c : CmdReg) (path : Nat) (eff : Nat → State → CmdRes × State) (s : State) (heff : ∀ a t,
    (eff a t).2.pending = t.pending) :
    (ofReg c path eff s).2.pending = s.pending := by simp [ofReg, heff]

@[simp] theorem execReg_pending (i n path : Nat) (s : State) : (execReg i n path s).2.pending = s.pending := by
  cases h : lasOp (n / 16) (n % 16) with
  | some f => have hf := lasOp_pending h; simp [execReg, h, hf]
  | none => simp [execReg, h]

@[simp] theorem execFw_pending (i n path : Nat) (data : List Byte) (s : State) : (execFw i n path data s).2.pending = s.pending := by
  simp [execFw]

@[simp] theorem musExec_pending (sub : Nat → State → State) (i path : Nat) (data : List Byte) (s : State) (hsub : ∀ a t,
    (sub a t).pending = t.pending) :
    (musExec sub i path data s).2.pending = s.pending := by simp [musExec, hsub]

@[simp] theorem musWrite_pending (path i : Nat) (e : OdEnt) (off len : Nat) (data : List Byte) (s : State) :
    (musWrite path i e off len data s).2.pending = s.pending := by simp [musWrite]

@[simp] theorem freeBytes_pending (n : Nat) (s : State) : (freeBytes n s).2.pending = s.pending := by simp [freeBytes]

@[simp] theorem musDescribe_pending (a i : Nat) (e : OdEnt) (s : State) : (musDescribe a i e s).2.pending = s.pending := by
  grind [musDescribe, freeBytes_pending]

@[simp] theorem musPerform_pending (sub : Nat → State → State) (path : Nat) (vf : Bool) (op a i off len : Nat) (data : List Byte)
    (s : State) (hsub : ∀ a t, (sub a t).pending = t.pending) :
    (musPerform sub path vf op a i off len data s).2.pending = s.pending := by
  unfold musPerform
  simp only [snd_ite, pending_ite]
  cases odEntry a i <;> simp [hsub]

@[simp] theorem noSub_pending (n : Nat) (s : State) : (noSub n s).pending = s.pending := by simp [noSub]
@[simp] theorem mbxSubmit_pending (f : Nat) (s : State) : (mbxSubmit f s).pending = s.pending := by simp [mbxSubmit]
@[simp] theorem canSub_pending (f : Nat) (s : State) : (canSub f s).pending = s.pending := by simp [canSub]
@[simp] theorem canSubmitted_pending (was : Bool) (s : State) : (canSubmitted was s).pending = s.pending := by simp [canSubmitted]

@[simp] theorem mbxRow_pending (op : Nat) (f : Fn) (h : MbxHdr) (data : List Byte) (s : State) :
    (mbxRow op f h data s).pending = s.pending := by simp [mbxRow]

@[simp] theorem mbxDone_pending (f : Nat) (s : State) : (mbxDone f s).pending = s.pending := by simp [mbxDone]
@[simp] theorem execMbxRead_leavesQueue (f : Fn) (h : MbxHdr) (s : State) : LeavesQueue s (execMbxRead f h s) := by simp [execMbxRead]

@[simp] theorem execMbxWrite_leavesQueue (f : Fn) (h : MbxHdr) (data : List Byte) (s : State) :
    LeavesQueue s (execMbxWrite f h data s) := by simp [execMbxWrite]

@[simp] theorem execMbxDescribe_leavesQueue (f : Fn) (h : MbxHdr) (s : State) : LeavesQueue s (execMbxDescribe f h s) := by
  simp [execMbxDescribe]

@[simp] theorem execMbxNext_leavesQueue (f : Fn) (h : MbxHdr) (s : State) : LeavesQueue s (execMbxNext f h s) := by simp [execMbxNext]

@[simp] theorem execMbxResponseComplete_leavesQueue (f : Fn) (s : State) : LeavesQueue s (execMbxResponseComplete f s) := by
  simp [execMbxResponseComplete]

@[simp] theorem execPermitClaim_leavesQueue (p : MusynPath) (mask : BitVec 80) (s : State) : LeavesQueue s (execPermitClaim p mask s) := by
  simp [execPermitClaim]

@[simp] theorem execPermitRelease_leavesQueue (p : MusynPath) (mask : BitVec 80) (force : Bool) (s : State) :
    LeavesQueue s (execPermitRelease p mask force s) := by simp [execPermitRelease]

@[simp] theorem execRegRead_leavesQueue (p : MusynPath) (off len : BitVec 32) (s : State) : LeavesQueue s (execRegRead p off len s) := by
  simp [execRegRead]

@[simp] theorem execRegWrite_leavesQueue (p : MusynPath) (off : BitVec 32) (data : List Byte) (s : State) :
    LeavesQueue s (execRegWrite p off data s) := by
  unfold execRegWrite
  refine attempt_leavesQueue _ _ fun t => ?_
  cases p <;> simp

/-! ## Operations of Can.lean -/

@[simp] theorem canServe_pending (txn op a i off len : Nat) (data : List Byte) (s : State) :
    (canServe txn op a i off len data s).pending = s.pending := by simp [canServe]

@[simp] theorem canFrame_pending (bs : List Byte) (eff : List Byte → State → State) (s : State) (heff : ∀ a t,
    (eff a t).pending = t.pending) :
    (canFrame bs eff s).pending = s.pending := by simp [canFrame, heff]

@[simp] theorem canInit_pending (d : List Byte) (s : State) : (canInit d s).pending = s.pending := by simp [canInit]

@[simp] theorem canSeg_pending (d : List Byte) (s : State) : (canSeg d s).pending = s.pending := by
  unfold canSeg
  split <;> simp

@[simp] theorem canAbort_pending (txn : Nat) (s : State) : (canAbort txn s).pending = s.pending := by
  grind [canAbort, canRx_pending, canAbortTxn_pending]

@[simp] theorem heartbeat_pending (s : State) : (heartbeat s).pending = s.pending := by simp [heartbeat]
@[simp] theorem nmtIdentify_pending (n : Nat) (s : State) : (nmtIdentify n s).pending = s.pending := by simp [nmtIdentify]
@[simp] theorem nmtResume_pending (n : Nat) (s : State) : (nmtResume n s).pending = s.pending := by simp [nmtResume]
@[simp] theorem heartbeatDue_pending (s : State) : (heartbeatDue s).pending = s.pending := by simp [heartbeatDue]
@[simp] theorem canConfine_pending (s : State) : (canConfine s).pending = s.pending := by simp [canConfine]

@[simp] theorem txnEnd_pending (s : State) : (txnEnd s).pending = s.pending := by
  unfold txnEnd
  split <;> simp

@[simp] theorem frameSent_pending (i : Nat) (s : State) : (frameSent i s).pending = s.pending := by
  grind [frameSent, State.odInc_pending, txnEnd_pending, canConfine_pending, State.set_pending]

@[simp] theorem bitError_pending (i : Nat) (s : State) : (bitError i s).pending = s.pending := by simp [bitError]
@[simp] theorem busOff_pending (s : State) : (busOff s).pending = s.pending := by simp [busOff]
@[simp] theorem cancelFrame_pending (i : Nat) (won : Bool) (s : State) : (cancelFrame i won s).pending = s.pending := by simp [cancelFrame]
@[simp] theorem execCanInit_leavesQueue (data : List Byte) (s : State) : LeavesQueue s (execCanInit data s) := by simp [execCanInit]
@[simp] theorem execCanSeg_leavesQueue (data : List Byte) (s : State) : LeavesQueue s (execCanSeg data s) := by simp [execCanSeg]

@[simp] theorem execCanAbort_leavesQueue (txn reason : Byte) (s : State) : LeavesQueue s (execCanAbort txn reason s) := by
  simp [execCanAbort]

@[simp] theorem execCanTxnTimeout_leavesQueue (s : State) : LeavesQueue s (execCanTxnTimeout s) := by simp [execCanTxnTimeout]

@[simp] theorem execNmtIdentify_leavesQueue (node : BitVec 7) (s : State) : LeavesQueue s (execNmtIdentify node s) := by
  simp [execNmtIdentify]

@[simp] theorem execNmtResume_leavesQueue (node : BitVec 7) (s : State) : LeavesQueue s (execNmtResume node s) := by simp [execNmtResume]
@[simp] theorem execCanRestart_leavesQueue (p : MusynPath) (s : State) : LeavesQueue s (execCanRestart p s) := by simp [execCanRestart]
@[simp] theorem execCanHeartbeat_leavesQueue (s : State) : LeavesQueue s (execCanHeartbeat s) := by simp [execCanHeartbeat]

@[simp] theorem execCanBitError_leavesQueue (ident : BitVec 11) (s : State) : LeavesQueue s (execCanBitError ident s) := by
  simp [execCanBitError]

@[simp] theorem execCanBusOff_leavesQueue (s : State) : LeavesQueue s (execCanBusOff s) := by simp [execCanBusOff]

@[simp] theorem execCanCancelRequest_leavesQueue (ident : BitVec 11) (wonArbitration : Bool) (s : State) :
    LeavesQueue s (execCanCancelRequest ident wonArbitration s) := by simp [execCanCancelRequest]

@[simp] theorem execCanFrameSent_leavesQueue (ident : BitVec 11) (s : State) : LeavesQueue s (execCanFrameSent ident s) := by
  simp [execCanFrameSent]

/-! ## Operations of Frames.lean -/

@[simp] theorem bodyArrived_pending (p : Nat) (bs : List Byte) (s : State) : (bodyArrived p bs s).pending = s.pending := by
  grind [bodyArrived, ackIn_pending, trainIn_pending, syncIn_pending, delayReqIn_pending, delayRespIn_pending]

@[simp] theorem requestArrived_pending (env : Envelope) (x : Xact) (s : State) : (requestArrived env x s).pending = s.pending := by
  unfold requestArrived
  split <;> simp

@[simp] theorem answerArrived_pending (env : Envelope) (x : Xact) (s : State) : (answerArrived env x s).pending = s.pending := by
  unfold answerArrived
  split <;> simp

@[simp] theorem xactArrived_pending (cls : Nat) (env : Envelope) (x : Xact) (s : State) :
    (xactArrived cls env x s).pending = s.pending := by simp [xactArrived]

@[simp] theorem forwardFrame_pending (p : Nat) (f : Frame) (s : State) : (forwardFrame p f s).pending = s.pending := by simp [forwardFrame]
@[simp] theorem acceptFrame_pending (p : Nat) (f : Frame) (s : State) : (acceptFrame p f s).pending = s.pending := by simp [acceptFrame]
@[simp] theorem crcFailure_pending (p : Nat) (s : State) : (crcFailure p s).pending = s.pending := by simp [crcFailure]

@[simp] theorem frameArrived_pending (p : Nat) (bs : List Byte) (codewordOk : Bool) (s : State) :
    (frameArrived p bs codewordOk s).pending = s.pending := by
  unfold frameArrived
  split <;> simp

@[simp] theorem execFrameReceived_leavesQueue (p : Port) (bytes : List Byte) (codewordOk : Bool) (s : State) :
    LeavesQueue s (execFrameReceived p bytes codewordOk s) := by simp [execFrameReceived]

/-! ## Operations of HartData.lean -/

@[simp] theorem hartRead_pending (c va n : Nat) (s : State) : (hartRead c va n s).2.pending = s.pending := by
  grind [hartRead, hartResolve_pending, readBytes_pending, State.stall_pending, dataRead_pending]

@[simp] theorem hartWrite_pending (c va : Nat) (bs : List Byte) (s : State) : (hartWrite c va bs s).2.pending = s.pending := by
  grind [hartWrite, hartResolve_pending, writeBytes_pending, mbxSubmit_pending, dataWrite_pending]

@[simp] theorem emulCheck_pending (c : Nat) (k : AccKind) (l : List Nat) (s : State) : (emulCheck c k l s).2.pending = s.pending := by
  fun_induction emulCheck c k l s <;> grind [hartResolve_pending]

@[simp] theorem emulRead_pending (c va n : Nat) (s : State) : (emulRead c va n s).2.pending = s.pending := by
  fun_induction emulRead c va n s <;> grind [hartRead_pending]

@[simp] theorem emulWrite_pending (c va : Nat) (l : List Byte) (s : State) : (emulWrite c va l s).2.pending = s.pending := by
  fun_induction emulWrite c va l s <;> grind [hartWrite_pending]

@[simp] theorem scalarLoad_pending (c va n : Nat) (put : Nat → Hart → Hart) (s : State) :
    (scalarLoad c va n put s).pending = s.pending := by
  grind [scalarLoad, emulCheck_pending, except_pending, emulRead_pending, State.putHart_pending, hartRead_pending]

@[simp] theorem scalarStore_pending (c va n v : Nat) (s : State) : (scalarStore c va n v s).pending = s.pending := by
  grind [scalarStore, emulCheck_pending, except_pending, emulWrite_pending, State.putHart_pending, hartWrite_pending, retire_pending]

@[simp] theorem vecFault_pending (c e va i : Nat) (faultFirst : Bool) (s : State) :
    (vecFault c e va i faultFirst s).pending = s.pending := by simp [vecFault]

@[simp] theorem vecDone_pending (c : Nat) (s : State) : (vecDone c s).pending = s.pending := by simp [vecDone]

@[simp] theorem vecLoadElem_pending (c : Nat) (p : VecPlan) (v : XReg) (i va : Nat) (l : List Nat) (s : State) :
    (vecLoadElem c p v i va l s).2.pending = s.pending := by
  fun_induction vecLoadElem c p v i va l s <;> grind [hartRead_pending, State.putHart_pending]

@[simp] theorem vecLoad_pending (c : Nat) (p : VecPlan) (v : XReg) (l : List (Nat × Nat)) (s : State) :
    (vecLoad c p v l s).pending = s.pending := by
  fun_induction vecLoad c p v l s <;> grind [vecDone_pending, vecLoadElem_pending, vecFault_pending]

@[simp] theorem vecStoreElem_pending (c : Nat) (p : VecPlan) (v : XReg) (i va : Nat) (l : List Nat) (s : State) :
    (vecStoreElem c p v i va l s).2.pending = s.pending := by
  fun_induction vecStoreElem c p v i va l s <;> grind [hartWrite_pending]

@[simp] theorem vecStore_pending (c : Nat) (p : VecPlan) (v : XReg) (l : List (Nat × Nat)) (s : State) :
    (vecStore c p v l s).pending = s.pending := by
  fun_induction vecStore c p v l s <;> grind [vecDone_pending, vecStoreElem_pending, vecFault_pending]

@[simp] theorem load_pending (c : Nat) (form : LoadForm) (rd rs1 : XReg) (imm : BitVec 12) (s : State) :
    (load c form rd rs1 imm s).pending = s.pending := by
  cases form <;> grind [load, illegal_pending, scalarLoad_pending, vecLoad_pending]

@[simp] theorem store_pending (c : Nat) (form : StoreForm) (rs2 rs1 : XReg) (imm : BitVec 12) (s : State) :
    (store c form rs2 rs1 imm s).pending = s.pending := by
  cases form <;> grind [store, scalarStore_pending, illegal_pending, vecStore_pending]

@[simp] theorem execLoad_leavesQueue (c : Core) (form : LoadForm) (rd rs1 : XReg) (imm : BitVec 12) (s : State) :
    LeavesQueue s (execLoad c form rd rs1 imm s) := by simp [execLoad]

@[simp] theorem execStore_leavesQueue (c : Core) (form : StoreForm) (rs2 rs1 : XReg) (imm : BitVec 12) (s : State) :
    LeavesQueue s (execStore c form rs2 rs1 imm s) := by simp [execStore]

/-! ## Operations of HostRegs.lean -/

@[simp] theorem wholeWrite_pending (r : Requester) (a v : Nat) (s : State) : (wholeWrite r a v s).pending = s.pending := by
  unfold wholeWrite
  split <;> simp

@[simp] theorem execRegisterWrite_leavesQueue (r : Requester) (off : BitVec 28) (data : List Byte) (s : State) :
    LeavesQueue s (execRegisterWrite r off data s) := by simp [execRegisterWrite]

@[simp] theorem execRcFieldRead_leavesQueue (r : Requester) (off : BitVec 28) (len : Nat) (s : State) :
    LeavesQueue s (execRcFieldRead r off len s) := by simp [execRcFieldRead]

@[simp] theorem execLatched64Read_leavesQueue (r : Requester) (off : BitVec 28) (s : State) :
    LeavesQueue s (execLatched64Read r off s) := by simp [execLatched64Read]

@[simp] theorem execLatched64Write_leavesQueue (r : Requester) (off : BitVec 28) (val : BitVec 32) (s : State) :
    LeavesQueue s (execLatched64Write r off val s) := by simp [execLatched64Write]

@[simp] theorem execHubDrvLevelWrite_leavesQueue (r : Requester) (val : BitVec 32) (s : State) :
    LeavesQueue s (execHubDrvLevelWrite r val s) := by simp [execHubDrvLevelWrite]

@[simp] theorem execMemFtagWrite_leavesQueue (r : Requester) (t : Tenant) (val : BitVec 32) (s : State) :
    LeavesQueue s (execMemFtagWrite r t val s) := by simp [execMemFtagWrite]

@[simp] theorem execQueueEnable_leavesQueue (r : Requester) (t : Tenant) (q : QNum) (base : BitVec 64) (s : State) :
    LeavesQueue s (execQueueEnable r t q base s) := by simp [execQueueEnable]

@[simp] theorem execQueueDisable_leavesQueue (r : Requester) (t : Tenant) (q : QNum) (s : State) :
    LeavesQueue s (execQueueDisable r t q s) := by simp [execQueueDisable]

@[simp] theorem execPegWatchEnable_leavesQueue (f : Fn) (w : Fin 8) (val : BitVec 64) (s : State) :
    LeavesQueue s (execPegWatchEnable f w val s) := by simp [execPegWatchEnable]

@[simp] theorem execPegWatchDisable_leavesQueue (f : Fn) (w : Fin 8) (s : State) : LeavesQueue s (execPegWatchDisable f w s) := by
  simp [execPegWatchDisable]

/-! ## Operations of Hx.lean -/

@[simp] theorem hxAccess_pending (c : Nat) (fieldsOk : Bool) (a n mis : Nat) (eff : State → State) (s : State) (heff : ∀ t,
    (eff t).pending = t.pending) :
    (hxAccess c fieldsOk a n mis eff s).pending = s.pending := by simp [hxAccess, heff]

@[simp] theorem gld_pending (c f7 : Nat) (f : RFields) (s : State) : (gld c f7 f s).pending = s.pending := by simp [gld]
@[simp] theorem gst_pending (c f7 : Nat) (f : RFields) (s : State) : (gst c f7 f s).pending = s.pending := by simp [gst]
@[simp] theorem gamo_pending (c f7 : Nat) (f : RFields) (s : State) : (gamo c f7 f s).pending = s.pending := by simp [gamo]

@[simp] theorem crc32cInstr_pending (c f7 : Nat) (f : RFields) (s : State) : (crc32cInstr c f7 f s).pending = s.pending := by
  simp [crc32cInstr]

@[simp] theorem vgld_pending (c f7 : Nat) (f : RFields) (s : State) : (vgld c f7 f s).pending = s.pending := by simp [vgld]
@[simp] theorem vgst_pending (c f7 : Nat) (f : RFields) (s : State) : (vgst c f7 f s).pending = s.pending := by simp [vgst]

@[simp] theorem trackerResume_pending (c : Nat) (s : State) : (trackerResume c s).pending = s.pending := by
  grind [trackerResume, post_pending]

@[simp] theorem execGld_leavesQueue (c : Core) (funct7 : BitVec 7) (f : RFields) (s : State) : LeavesQueue s (execGld c funct7 f s) := by
  simp [execGld]

@[simp] theorem execGst_leavesQueue (c : Core) (funct7 : BitVec 7) (f : RFields) (s : State) : LeavesQueue s (execGst c funct7 f s) := by
  simp [execGst]

@[simp] theorem execGamo_leavesQueue (c : Core) (funct7 : BitVec 7) (f : RFields) (s : State) : LeavesQueue s (execGamo c funct7 f s) := by
  simp [execGamo]

@[simp] theorem execCrc32c_leavesQueue (c : Core) (funct7 : BitVec 7) (f : RFields) (s : State) :
    LeavesQueue s (execCrc32c c funct7 f s) := by simp [execCrc32c]

@[simp] theorem execVgld_leavesQueue (c : Core) (funct7 : BitVec 7) (f : RFields) (s : State) : LeavesQueue s (execVgld c funct7 f s) := by
  simp [execVgld]

@[simp] theorem execVgst_leavesQueue (c : Core) (funct7 : BitVec 7) (f : RFields) (s : State) : LeavesQueue s (execVgst c funct7 f s) := by
  simp [execVgst]

@[simp] theorem execTrackerStallResume_leavesQueue (c : Core) (s : State) : LeavesQueue s (execTrackerStallResume c s) := by
  simp [execTrackerStallResume]

/-! ## Operations of Launch.lean -/

@[simp] theorem load128_pending (c va : Nat) (s : State) : (load128 c va s).2.pending = s.pending := by
  grind [load128, hartResolve_pending, dataRead_pending]

@[simp] theorem launchDetached_pending (c : Nat) (desc : List Byte) (s : State) : (launchDetached c desc s).pending = s.pending := by
  simp [launchDetached]

@[simp] theorem pmxLaunch_pending (c : Nat) (f : RFields) (s : State) : (pmxLaunch c f s).pending = s.pending := by
  grind [pmxLaunch, illegal_pending, load128_pending, except_pending, pegFault_pending, State.putHart_pending, launchDetached_pending,
    retireRd_pending, State.free_pending, acceptTile_pending]

@[simp] theorem launchResume_pending (c : Nat) (s : State) : (launchResume c s).pending = s.pending := by
  grind [launchResume, launchDetached_pending]

@[simp] theorem reapSlot_pending (c : Nat) (rd : XReg) (ticket outcome err : Nat) (s : State) :
    (reapSlot c rd ticket outcome err s).pending = s.pending := by simp [reapSlot]

@[simp] theorem pmxWait_pending (c : Nat) (f : RFields) (s : State) : (pmxWait c f s).pending = s.pending := by
  grind [pmxWait, illegal_pending, retireRd_pending, reapSlot_pending, State.putHart_pending]

@[simp] theorem pmxPoll_pending (c : Nat) (f : RFields) (s : State) : (pmxPoll c f s).pending = s.pending := by
  grind [pmxPoll, illegal_pending, retireRd_pending, reapSlot_pending]

@[simp] theorem pmxErr_pending (c : Nat) (f : RFields) (s : State) : (pmxErr c f s).pending = s.pending := by simp [pmxErr]

@[simp] theorem pmxCancel_pending (c : Nat) (f : RFields) (s : State) : (pmxCancel c f s).pending = s.pending := by
  grind [pmxCancel, illegal_pending, retireRd_pending, tileEnd_pending, State.putEng_pending, State.putFallback_pending]

@[simp] theorem execPmxLaunch_leavesQueue (c : Core) (f : RFields) (s : State) : LeavesQueue s (execPmxLaunch c f s) := by
  simp [execPmxLaunch]

@[simp] theorem execDetachedLaunchResume_leavesQueue (c : Core) (s : State) : LeavesQueue s (execDetachedLaunchResume c s) := by
  simp [execDetachedLaunchResume]

@[simp] theorem execPmxWait_leavesQueue (c : Core) (f : RFields) (s : State) : LeavesQueue s (execPmxWait c f s) := by simp [execPmxWait]
@[simp] theorem execPmxPoll_leavesQueue (c : Core) (f : RFields) (s : State) : LeavesQueue s (execPmxPoll c f s) := by simp [execPmxPoll]
@[simp] theorem execPmxErr_leavesQueue (c : Core) (f : RFields) (s : State) : LeavesQueue s (execPmxErr c f s) := by simp [execPmxErr]

@[simp] theorem execPmxCancel_leavesQueue (c : Core) (f : RFields) (s : State) : LeavesQueue s (execPmxCancel c f s) := by
  simp [execPmxCancel]

/-! ## Operations of Dispatch.lean -/

/-- No command touches the queue: each has its lemma above. -/
theorem exec_leavesQueue (c : Instr) (s : State) : LeavesQueue s (exec c s) := by
  cases c <;> simp [exec]

/-- Settles O2, by the lemma of each command. -/
theorem commandsLeaveTheQueue : Obligations.CommandsLeaveTheQueue := exec_leavesQueue

end Sys2Proof.Machine
end

section
/-!
PROOF. A step on a queue with a command is `exec`; on an empty queue it is one cycle of the clock, of which `OnlyCounts` says once what it may
change beside FabricTime.
-/

namespace Sys2Proof.Machine

/-- `t` differs from `s` at most in register fields, OD counters and the count of free values. -/
def OnlyCounts (s t : State) : Prop := ∃ r o n, t = { s with regs := r, od := o, freeCnt := n }

theorem OnlyCounts.refl (s : State) : OnlyCounts s s := ⟨s.regs, s.od, s.freeCnt, rfl⟩

theorem OnlyCounts.trans {s t u : State} (h : OnlyCounts s t) (h' : OnlyCounts t u) : OnlyCounts s u := by
  obtain ⟨r, o, n, rfl⟩ := h
  obtain ⟨r', o', n', rfl⟩ := h'
  exact ⟨r', o', n', rfl⟩

theorem OnlyCounts.set (s : State) (f : Fld) (v : Nat) : OnlyCounts s (s.set f v) := ⟨_, s.od, s.freeCnt, rfl⟩

theorem OnlyCounts.ite {s t u : State} {p : Prop} [Decidable p] (ht : OnlyCounts s t) (hu : OnlyCounts s u) :
    OnlyCounts s (if p then t else u) := by
  split
  · exact ht
  · exact hu

theorem OnlyCounts.foldl {α : Type} (l : List α) {f : State → α → State} (h : ∀ t x, OnlyCounts t (f t x)) (s : State) :
    OnlyCounts s (l.foldl f s) := by
  induction l generalizing s with
  | nil => exact .refl s
  | cons x l ih => exact (h s x).trans (ih (f s x))

theorem measure_onlyCounts (f : Fld) (n : Nat) (s : State) : OnlyCounts s (measure f n s) := ⟨_, s.od, s.freeCnt + 1, rfl⟩

theorem measureLoopEng_onlyCounts (n : Nat) (s : State) : OnlyCounts s (measureLoopEng n s) :=
  .ite ((measure_onlyCounts _ _ _).trans (measure_onlyCounts _ _ _)) (.refl s)

theorem measurePort_onlyCounts (p : Nat) (s : State) : OnlyCounts s (measurePort p s) :=
  (measure_onlyCounts _ _ _).trans (.ite ⟨_, _, _, rfl⟩ (.refl _))

theorem tickMicro_onlyCounts (s : State) : OnlyCounts s (tickMicro s) := by
  have count (p : State → Nat → Bool) (f : Nat → Fld) (n : Nat) (s : State) :
      OnlyCounts s ((List.range n).foldl (fun t i => if p t i then t.incWrap (f i) else t) s) :=
    .foldl _ (fun _ _ => .ite (.set _ _ _) (.refl _)) s
  exact (count _ _ _ _).trans <| (count _ _ _ _).trans <| (count _ _ _ _).trans <| (count _ _ _ _).trans <| .ite (.set _ _ _) (.refl _)

theorem tickMilli_onlyCounts (s : State) : OnlyCounts s (tickMilli s) :=
  (OnlyCounts.foldl _ (fun t n => measureLoopEng_onlyCounts n t) _).trans <|
    (OnlyCounts.foldl _ (fun t p => measurePort_onlyCounts p t) _).trans <|
    (measure_onlyCounts _ _ _).trans <| (measure_onlyCounts _ _ _).trans (measure_onlyCounts _ _ _)

theorem tickSecond_onlyCounts (s : State) : OnlyCounts s (tickSecond s) := .ite ⟨s.regs, _, s.freeCnt, rfl⟩ (.refl s)

theorem tickHold_onlyCounts (s : State) : OnlyCounts s (tickHold s) := .ite (.set _ _ _) (.refl s)

/-- Without power or LINK_REFCLK nothing changes (R35). -/
theorem tick_stopped {s : State} (h : s.powered = false ∨ s.refclk = false ∨ s.tripped = true) : tick s = s :=
  if_pos (by rcases h with h | h | h <;> simp [h])

/-- With them FabricTime advances by one cycle, and what counts time may count (R302). -/
theorem tick_running {s : State} (hp : s.powered = true) (hr : s.refclk = true) (ht : s.tripped = false) :
    OnlyCounts { s with ftime := (s.ftime + unitsPerCycle) % (2 ^ 64 * unitsPerTick), cycles := s.cycles + 1 } (tick s) := by
  rw [tick, if_neg (by simp [hp, hr, ht])]
  exact OnlyCounts.trans (.ite (tickMicro_onlyCounts _) (.refl _)) <| .trans (.ite (tickMilli_onlyCounts _) (.refl _)) <|
    .trans (.ite (tickSecond_onlyCounts _) (.refl _)) (tickHold_onlyCounts _)

/-- One cycle changes FabricTime, the count of cycles, and what counts time. -/
theorem tick_form (s : State) : ∃ f c, OnlyCounts { s with ftime := f, cycles := c } (tick s) := by
  by_cases h : s.powered = false ∨ s.refclk = false ∨ s.tripped = true
  · exact ⟨s.ftime, s.cycles, by rw [tick_stopped h]; exact .refl s⟩
  · simp only [not_or, Bool.not_eq_false, Bool.not_eq_true] at h
    obtain ⟨hp, hr, ht⟩ := h
    exact ⟨_, _, tick_running hp hr ht⟩

/-- Settles O1: a step on a queue with a command is `exec` by definition, and `tick` changes what counts time alone. -/
theorem stepIsExecOfFront : Obligations.StepIsExecOfFront := by
  refine ⟨fun c s rest => step_cons c rest s, fun s hq => ?_⟩
  have hf : (s.powered = true → s.refclk = true → s.tripped = false →
      (tick s).cycles = s.cycles + 1 ∧ (tick s).ftime = (s.ftime + 2097152) % (2 ^ 64 * 390625)) := by
    intro hp hr ht
    obtain ⟨r, o, n, h⟩ := tick_running hp hr ht
    rw [h]
    exact ⟨rfl, rfl⟩
  obtain ⟨f, c, r, o, n, h⟩ := tick_form s
  refine ⟨by rw [step, hq], hf, tick_stopped, ?_⟩
  rw [h]
  exact ⟨⟨fun _ => rfl, rfl, rfl, rfl⟩, ⟨rfl, rfl⟩, ⟨rfl, rfl, rfl, rfl, rfl⟩, ⟨rfl, rfl, rfl, rfl⟩, ⟨rfl, rfl, rfl, rfl, rfl, rfl, rfl, rfl, rfl⟩,
    ⟨rfl, rfl, rfl, rfl, rfl, rfl⟩, ⟨rfl, rfl, rfl, rfl⟩, hq⟩

end Sys2Proof.Machine
end

section
/-!
PROOF. The field file: what the register map lists, and that its reset values are of their fields' widths.
-/

namespace Sys2Proof.Machine

/-- Every field of the rows, at indices `i` and `j`, resets to a value of its width. -/
def resetsFit (rows : List RegRow) (i j : Nat) : Bool := rows.all fun r => (r.fields i j).all fun f => decide (f.reset < 2 ^ f.width)

theorem resetsFit_append (a b : List RegRow) (i j : Nat) : resetsFit (a ++ b) i j = (resetsFit a i j && resetsFit b i j) := List.all_append

theorem resetsFit_mem {rows : List RegRow} {i j : Nat} (h : resetsFit rows i j = true) {r : RegRow} (hr : r ∈ rows) {f : Fld}
    (hf : f ∈ r.fields i j) : f.reset < 2 ^ f.width :=
  of_decide_eq_true (List.all_eq_true.mp (List.all_eq_true.mp h r hr) f hf)

/-! The chapters of which a reset value depends on the index. -/

theorem regRows09a_resetsFit (i j : Nat) : resetsFit regRows09a i j = true := by
  dsimp only [resetsFit, regRows09a, R.SLC_COMMIT_WORD, List.all_cons, List.all_nil]
  split
  · rfl
  · split <;> rfl

theorem regRows10a_resetsFit (i j : Nat) : resetsFit regRows10a i j = true := by
  dsimp only [resetsFit, regRows10a, R.LPE_CLASS_SLEW_DIV, List.all_cons, List.all_nil]
  cases ringExists i <;> split <;> rfl

theorem regRows13a_resetsFit (i j : Nat) : resetsFit regRows13a i j = true := by
  dsimp only [resetsFit, regRows13a, R.HUB_FEATURE_BITS, R.HUB_DRV_FEATURE_BITS, List.all_cons, List.all_nil]
  split <;> rfl

theorem regRows16a_resetsFit (i j : Nat) : resetsFit regRows16a i j = true := by
  dsimp only [resetsFit, regRows16a, R.PWR_CAP_CAP_W, R.PWR_CAP_FTARGET, List.all_cons, List.all_nil]
  split
  · rfl
  · split
    · rfl
    · split <;> rfl

/-- Every reset value of the register map is of its field's width; where it does not depend on the index, by evaluation. -/
theorem regRows_resetsFit (i j : Nat) : resetsFit regRows i j = true := by
  simp only [regRows, resetsFit_append, Bool.and_eq_true, regRows09a_resetsFit, regRows10a_resetsFit, regRows13a_resetsFit,
    regRows16a_resetsFit, and_true]
  and_intros <;> rfl

theorem rowAt_fields {r : RegRow} {a base : Nat} {wide : Bool} {fs : List Fld} (h : rowAt r a = some (base, wide, fs)) :
    ∃ i j, fs = r.fields i j := by
  simp only [rowAt, Option.ite_none_left_eq_some, Option.ite_none_right_eq_some, Option.some.injEq, Prod.mk.injEq] at h
  obtain ⟨-, -, -, -, hfs⟩ := h
  exact ⟨_, _, hfs.symm⟩

theorem rowsAt_fields {rows : List RegRow} {a base : Nat} {wide : Bool} {fs : List Fld} (h : rowsAt rows a = some (base, wide, fs)) :
    ∃ r ∈ rows, ∃ i j, fs = r.fields i j := by
  induction rows with
  | nil => cases h
  | cons r rows ih =>
    unfold rowsAt at h
    split at h
    · next x hx =>
      cases h
      exact ⟨r, List.mem_cons_self, rowAt_fields hx⟩
    · obtain ⟨r', hr', hf⟩ := ih h
      exact ⟨r', List.mem_cons_of_mem r hr', hf⟩

/-- The reset value of a field of the register map is of its width. -/
theorem reset_lt_of_regAt {a base : Nat} {wide : Bool} {fs : List Fld} (h : regAt a = some (base, wide, fs)) {f : Fld} (hf : f ∈ fs) :
    f.reset < 2 ^ f.width := by
  obtain ⟨r, hr, i, j, rfl⟩ := rowsAt_fields h
  exact resetsFit_mem (regRows_resetsFit i j) hr hf

/-- At reset a field reads its reset value, cut to its width. -/
theorem State.reset_get (f : Fld) : State.reset.get f = f.reset % 2 ^ f.width := rfl

/-- Settles O6, by the laws of the field file; the reset values of the map are of their width. -/
theorem fieldsReadWhatIsWritten : Obligations.FieldsReadWhatIsWritten :=
  ⟨State.get_set_self, fun s _ _ v h => s.get_set_of_ne v h,
    fun _ _ _ _ h f hf => by rw [State.reset_get, Nat.mod_eq_of_lt (reset_lt_of_regAt h hf)]⟩

end Sys2Proof.Machine
end

section
/-!
PROOF. The write of a 64-bit register in halves: a low half that waits in a latch may be wider than 32 bits, and is then not the half written.
-/

namespace Sys2Proof.Machine

/-- A package that runs, in which the latch of hart 0 holds a number of 33 bits for the low half of MEM_INVAL_ARG, with no byte of it written. No
write of four bytes leaves such a latch; the statement does not exclude it. -/
def wideLatch : State :=
  { State.reset.set R.HUB_BOOT_STATE 1 with latches := [(32, { rdAddr := none, rdHigh := 0, wrLow := some (0x500008, 2 ^ 32, 0) })] }

theorem wideLatch_reaches : Reaches (.hart 0) 0x500008 wideLatch := by unfold Reaches; decide +kernel

/-- The next state of an outcome that has one. -/
def nextOf : Out → Option State
  | .next t => some t
  | _ => none

/-- Writing both halves of MEM_INVAL_ARG with 0 lets bit 32 of that latch through to VPN. -/
theorem wideLatch_vpn : ((nextOf (exec (.latched64Write (.hart 0) 0x500008 0) wideLatch)).bind fun t =>
    (nextOf (exec (.latched64Write (.hart 0) 0x50000C 0) t)).map (·.get R.MEM_INVAL_ARG_VPN)) = some (2 ^ 20) := by decide +kernel

/-- Refutes O7: a write of the low half of a 64-bit register keeps what the latch held above bit 31, and the write of the high half adds it to the
register, so that VPN is not that of the two halves. -/
theorem not_registerWriteEffect : ¬ Obligations.RegisterWriteEffect := by
  rintro ⟨-, -, -, -, -, -, -, -, halves⟩
  obtain ⟨t, ht, -, u, hu, -, -, hvpn, -⟩ := halves (.hart 0) wideLatch 0 0 trivial wideLatch_reaches rfl
  have h := wideLatch_vpn
  simp only [ht, hu, hvpn, nextOf, Option.bind_some, Option.map_some, Option.some.injEq] at h
  exact absurd h (by decide)

end Sys2Proof.Machine
end

section
/-!
PROOF. Gangs, the package identifier, and the beacon.
-/

namespace Sys2Proof.Machine

/-! ## Numbers: bits, fields and bytes -/

theorem nbit_eq_testBit (n i : Nat) : nbit n i = n.testBit i := by
  rw [nbit, Nat.testBit_eq_decide_div_mod_eq]
  rfl

theorem bitsNat_lt (l : List Bool) : bitsNat l < 2 ^ l.length := by
  induction l with
  | nil => simp [bitsNat]
  | cons b l ih =>
    rw [bitsNat, List.length_cons, Nat.pow_succ]
    split <;> omega

/-- Bit `i` of a list of flags as a number is the flag. -/
theorem nbit_bitsNat (l : List Bool) (i : Nat) : nbit (bitsNat l) i = l.getD i false := by
  induction l generalizing i with
  | nil => simp [bitsNat, nbit]
  | cons b l ih =>
    cases i with
    | zero => cases b <;> simp [bitsNat, nbit, Nat.add_mul_mod_self_left]
    | succ i =>
      have h : bitsNat (b :: l) / 2 = bitsNat l := by
        rw [bitsNat]
        split <;> omega
      rw [List.getD_cons_succ, ← ih, nbit, nbit, Nat.pow_succ', ← Nat.div_div_eq_div_mul, h]

theorem leNat_leBytes (n v : Nat) : leNat (leBytes n v) = v % 256 ^ n := by
  induction n generalizing v with
  | zero => simp [leBytes, leNat, Nat.mod_one]
  | succ n ih =>
    rw [leBytes, leNat, ih, Nat.pow_succ', Nat.mod_mul, BitVec.toNat_ofNat]

theorem length_leBytes (n v : Nat) : (leBytes n v).length = n := by
  induction n generalizing v with
  | zero => rfl
  | succ n ih => rw [leBytes, List.length_cons, ih]

/-! ## Frames of register writes -/

theorem fkey_ne {f g : Fld} (hf : f.lo < 64) (hg : g.lo < 64) (h : f.addr ≠ g.addr) : fkey f ≠ fkey g := by
  unfold fkey
  omega

theorem SameRegs.trans {p : Nat → Prop} {s t u : State} (h : SameRegs p s t) (h' : SameRegs p t u) : SameRegs p s u :=
  fun f hl hp => (h' f hl hp).trans (h f hl hp)

/-- A field is written at an address of which nothing is said. -/
theorem SameRegs.set {p : Nat → Prop} (s : State) {f : Fld} (v : Nat) (hf : f.lo < 64) (hp : ¬ p f.addr) : SameRegs p s (s.set f v) :=
  fun _ hg hpg => s.get_set_of_ne v (fkey_ne hf hg fun e => hp (e ▸ hpg))

theorem SameMemory.trans {s t u : State} (h : SameMemory s t) (h' : SameMemory t u) : SameMemory s u := by
  obtain ⟨hb, hp, hw, hh⟩ := h
  obtain ⟨hb', hp', hw', hh'⟩ := h'
  exact ⟨fun k => (hb' k).trans (hb k), hp'.trans hp, hw'.trans hw, hh'.trans hh⟩

/-! ## Gangs (R215) -/

/-- The flags of the ports of `ports` that are UP, as LNK_GANG_UP holds them. -/
def gangUps (ports : Nat) (s : State) : Nat := bitsNat ((List.range 32).map fun p => nbit ports p && s.portUp p)

theorem gangUps_lt (ports : Nat) (s : State) : gangUps ports s < 2 ^ 32 := by
  simpa [gangUps] using bitsNat_lt ((List.range 32).map fun p => nbit ports p && s.portUp p)

theorem nbit_gangUps (ports : Nat) (s : State) (p : Port) : nbit (gangUps ports s) p = (nbit ports p && s.portUp p) := by
  simp [gangUps, nbit_bitsNat]

/-- Writing the ports of a gang changes the state of no port. -/
theorem gangUps_set (g : Fin 16) (ports v : Nat) (s : State) : gangUps ports (s.set (R.LNK_GANG_PORTS g) v) = gangUps ports s := by
  unfold gangUps
  congr 1
  refine List.map_congr_left fun p hp => ?_
  have hp := List.mem_range.mp hp
  have hne : fkey (R.LNK_GANG_PORTS g) ≠ fkey (R.LNK_STAT_STATE p) := by
    simp only [fkey, R.LNK_GANG_PORTS, R.LNK_STAT_STATE]
    omega
  rw [State.portUp, State.portUp, State.get_set_of_ne s v hne]

theorem gangPut_of_meets {g h : Fin 16} {ports : Nat} {s : State} (hg : h ≠ g) (hm : s.get (R.LNK_GANG_PORTS h) &&& ports ≠ 0) :
    gangPut g ports s = s.setBit R.LNK_GLOBAL_GANG_DUP true := by
  have : h.val ≠ g.val := Fin.val_ne_of_ne hg
  exact if_pos (List.any_eq_true.mpr ⟨h.val, List.mem_range.mpr h.isLt, by simp [*]⟩)

/-- The state in which gang `g` has taken `ports`. -/
def gangTaken (g : Fin 16) (ports : Nat) (s : State) : State :=
  (s.set (R.LNK_GANG_PORTS g) ports).set (R.LNK_GANG_UP g) (gangUps ports s)

theorem gangTaken_ports {g : Fin 16} {ports : Nat} (s : State) (h : ports < 2 ^ 32) :
    (gangTaken g ports s).get (R.LNK_GANG_PORTS g) = ports := by
  have hne : fkey (R.LNK_GANG_UP g) ≠ fkey (R.LNK_GANG_PORTS g) := by simp [fkey, R.LNK_GANG_UP, R.LNK_GANG_PORTS]
  rw [gangTaken, State.get_set_of_ne _ _ hne, State.get_set_self]
  exact Nat.mod_eq_of_lt h

theorem gangTaken_up (g : Fin 16) (ports : Nat) (s : State) : (gangTaken g ports s).get (R.LNK_GANG_UP g) = gangUps ports s := by
  rw [gangTaken, State.get_set_self]
  exact Nat.mod_eq_of_lt (gangUps_lt ports s)

theorem gangTaken_sameRegs (g : Fin 16) (ports : Nat) (s : State) : SameRegs (· ≠ 0x704100 + 8 * g.val) s (gangTaken g ports s) :=
  (SameRegs.set s (f := R.LNK_GANG_PORTS g) _ (by simp [R.LNK_GANG_PORTS]) (by simp [R.LNK_GANG_PORTS])).trans
    (.set _ (f := R.LNK_GANG_UP g) _ (by simp [R.LNK_GANG_UP]) (by simp [R.LNK_GANG_UP]))

/-- The state with `d` for the gangs that drain. -/
def State.withGangDrain (s : State) (d : List (Nat × Nat × List Nat)) : State := { s with gangDrain := d }

theorem State.get_withGangDrain (s : State) (d : List (Nat × Nat × List Nat)) (f : Fld) : (s.withGangDrain d).get f = s.get f := rfl

theorem SameRegs.withGangDrain {p : Nat → Prop} {s t : State} (h : SameRegs p s t) (d : List (Nat × Nat × List Nat)) :
    SameRegs p s (t.withGangDrain d) := h

/-- Ports, memory and harts are as before. -/
def SameRest (s t : State) : Prop := t.ports = s.ports ∧ SameMemory s t ∧ SameHarts s t

theorem SameRest.trans {s t u : State} (h : SameRest s t) (h' : SameRest t u) : SameRest s u := by
  obtain ⟨hp, hm, hh, hs⟩ := h
  obtain ⟨hp', hm', hh', hs'⟩ := h'
  exact ⟨hp'.trans hp, hm.trans hm', hh'.trans hh, hs'.trans hs⟩

theorem SameRest.set (s : State) (f : Fld) (v : Nat) : SameRest s (s.set f v) := ⟨rfl, ⟨fun _ => rfl, rfl, rfl, rfl⟩, rfl, rfl⟩

theorem SameRest.withGangDrain (s : State) (d : List (Nat × Nat × List Nat)) : SameRest s (s.withGangDrain d) :=
  ⟨rfl, ⟨fun _ => rfl, rfl, rfl, rfl⟩, rfl, rfl⟩

theorem gangTaken_sameRest (g : Fin 16) (ports : Nat) (s : State) : SameRest s (gangTaken g ports s) := (SameRest.set ..).trans (.set ..)

theorem gangPut_of_free {g : Fin 16} {ports : Nat} {s : State} (hf : ∀ h : Fin 16, h ≠ g → s.get (R.LNK_GANG_PORTS h) &&& ports = 0) :
    ∃ d, gangPut g ports s = (gangTaken g ports s).withGangDrain d := by
  have hn : ¬ ((List.range 16).any fun h => h != g.val && (s.get (R.LNK_GANG_PORTS h) &&& ports) != 0) = true := by
    rw [List.any_eq_true]
    rintro ⟨h, hr, hh⟩
    have hr := List.mem_range.mp hr
    simp only [Bool.and_eq_true, bne_iff_ne, ne_eq] at hh
    obtain ⟨hne, hm⟩ := hh
    exact hm (hf ⟨h, hr⟩ fun e => hne (congrArg Fin.val e))
  rw [gangTaken, ← gangUps_set g ports ports s]
  exact ⟨_, if_neg hn⟩

theorem gangDrained_last {p g old : Nat} {s : State} (hr : (s.port p).replay = []) (hd : s.gangDrain = [(g, old, [p])])
    (ht : s.transit = []) : gangDrained p s = { s with gangDrain := [] } := by
  simp [gangDrained, hr, hd, dropUnrouted, ht]

/-! ## The package identifier (R9, R221) -/

theorem pkgPut_of_none_up {v : Nat} {s : State} (h : ∀ p : Port, s.ptState p ≠ 4 ∧ s.ptState p ≠ 3) :
    pkgPut v s = s.set R.LNK_GLOBAL_PKG v := by
  refine if_neg ?_
  rw [List.any_eq_true]
  rintro ⟨p, hr, hp⟩
  have := h ⟨p, List.mem_range.mp hr⟩
  simp_all [ptUp, ptEpochWait]

theorem pkgPut_of_up {v : Nat} {s : State} {p : Port} (h : s.ptState p = 4 ∨ s.ptState p = 3) :
    pkgPut v s = s.incSat R.LNK_GLOBAL_PKG_IGNORED :=
  if_pos (List.any_eq_true.mpr ⟨p.val, List.mem_range.mpr p.isLt, by rcases h with h | h <;> simp [h, ptUp, ptEpochWait]⟩)

/-- A PKG write that reaches the register is `pkgChecked`, with no undefined case before it. -/
theorem exec_pkgWrite_of_reaches {r : Requester} {v : BitVec 20} {s : State} (h : Reaches r 0x704000 s) :
    exec (.pkgWrite (.reg r) v) s = attempt (pkgChecked v.toNat) s := by
  have h' : Reaches r 0x704000 { s with trip := none } := h
  have e : gated r 0x704000 (pkgChecked v.toNat) { s with trip := none } = pkgChecked v.toNat { s with trip := none } := gated_pass _ h'
  change attempt (gated r 0x704000 (pkgChecked v.toNat)) s = _
  rw [attempt, attempt, e]

/-! ## Beacon frames (R222 to R224) -/

@[simp] theorem State.port_putPort (s : State) (p j : Nat) (x : PortSt) : (s.putPort p x).port j = if p = j then x else s.port j := by
  simp [State.port, State.putPort, tget_tput]

/-- Only registers in the block of port `p`, and what the model keeps of that port, may differ. -/
def OnlyPort (p : Nat) (s t : State) : Prop :=
  SameRegs (fun a => ¬PortBlock p a) s t ∧ OtherPorts p s t ∧ SameMemory s t

theorem OnlyPort.trans {p : Nat} {s t u : State} (h : OnlyPort p s t) (h' : OnlyPort p t u) : OnlyPort p s u := by
  obtain ⟨hr, hp, hm⟩ := h
  obtain ⟨hr', hp', hm'⟩ := h'
  exact ⟨hr.trans hr', fun j hj => (hp' j hj).trans (hp j hj), hm.trans hm'⟩

theorem OnlyPort.refl (p : Nat) (s : State) : OnlyPort p s s := ⟨fun _ _ _ => rfl, fun _ _ => rfl, fun _ => rfl, rfl, rfl, rfl⟩

theorem OnlyPort.putPort (p : Nat) (s : State) (x : PortSt) : OnlyPort p s (s.putPort p x) :=
  ⟨fun _ _ _ => rfl, fun j hj => by rw [State.port_putPort, if_neg (Ne.symm hj)], fun _ => rfl, rfl, rfl, rfl⟩

theorem OnlyPort.set {p : Nat} (s : State) {f : Fld} (v : Nat) (hf : f.lo < 64 ∧ PortBlock p f.addr) :
    OnlyPort p s (s.set f v) :=
  ⟨.set s v hf.1 (not_not_intro hf.2), fun _ _ => rfl, fun _ => rfl, rfl, rfl, rfl⟩

theorem OnlyPort.ite {p : Nat} {s t u : State} {c : Prop} [Decidable c] (ht : OnlyPort p s t) (hu : OnlyPort p s u) :
    OnlyPort p s (if c then t else u) := by
  split
  · exact ht
  · exact hu

/-- A frame with a wrong pattern or CRC ends the run of good ones and is counted. -/
theorem beaconIn_bad {p n depth : Nat} {rise : Bool} {s : State} (hd : rise = false ∨ 150 ≤ depth)
    (hb : n % 65536 ≠ 0xB5C3 ∨ nfld n 120 8 ≠ beaconCrc n) :
    beaconIn p n rise depth s = (s.putPort p { s.port p with beacon := none, clearRun := 0 }).incSat (R.LNK_BEACON_BAD p) := by
  have hd : ¬(rise && decide (depth < 150)) = true := by rcases hd with h | h <;> simp [h]
  rw [beaconIn, if_neg hd, if_pos hb]

/-- What a good frame does before the identity it carries is compared: it is counted, and may end AMBIENT and a neighbour it contradicts. -/
def beaconSeen (p n depth : Nat) (s : State) : State :=
  let who := (nfld n 20 20, nfld n 40 7, nfld n 48 32)
  let run := if 200 ≤ depth then (s.port p).clearRun + 1 else 0
  let s := (s.putPort p { s.port p with beacon := some who, clearRun := run }).incSat (R.LNK_BEACON_OK p)
  let s := if 2 ≤ run then s.setBit (R.LNK_STAT_AMBIENT p) false else s
  if s.bit (R.LNK_NBR_VALID p) && (s.get (R.LNK_NBR_PKG p), s.get (R.LNK_NBR_PORT p), s.get (R.LNK_NBR_EPOCH p)) != who then
    s.setBit (R.LNK_NBR_VALID p) false else s

/-- The neighbour of port `p` is `pkg`, `port` and `epoch`. -/
def neighbourSet (p pkg port epoch : Nat) (s : State) : State :=
  (((s.set (R.LNK_NBR_PKG p) pkg).set (R.LNK_NBR_PORT p) port).set (R.LNK_NBR_EPOCH p) epoch).setBit (R.LNK_NBR_VALID p) true

theorem beaconSeen_onlyPort (p n depth : Nat) (s : State) : OnlyPort p s (beaconSeen p n depth s) := by
  refine .trans (.putPort p s _) <| .trans (.set (f := R.LNK_BEACON_OK p) _ _ ?_) <|
    .trans (.ite (.set (f := R.LNK_STAT_AMBIENT p) _ _ ?_) (.refl p _)) <| .ite (.set (f := R.LNK_NBR_VALID p) _ _ ?_) (.refl p _)
  all_goals simp [PortBlock, R.LNK_BEACON_OK, R.LNK_STAT_AMBIENT, R.LNK_NBR_VALID]

theorem neighbourSet_onlyPort (p pkg port epoch : Nat) (s : State) : OnlyPort p s (neighbourSet p pkg port epoch s) := by
  refine .trans (.set (f := R.LNK_NBR_PKG p) s _ ?_) <| .trans (.set (f := R.LNK_NBR_PORT p) _ _ ?_) <|
    .trans (.set (f := R.LNK_NBR_EPOCH p) _ _ ?_) <| .set (f := R.LNK_NBR_VALID p) _ _ ?_
  all_goals simp [PortBlock, R.LNK_NBR_PKG, R.LNK_NBR_PORT, R.LNK_NBR_EPOCH, R.LNK_NBR_VALID]

theorem nbrOffer_onlyPort (p : Nat) (s : State) : OnlyPort p s (nbrOffer p s) :=
  .set (f := R.LNK_NBR_OFFER p) s _ (by simp [PortBlock, R.LNK_NBR_OFFER])

/-- A field keeps its value where another may be set. -/
theorem State.get_ite_setBit_of_ne {c : Prop} [Decidable c] (s : State) {f g : Fld} (b : Bool) (h : fkey f ≠ fkey g) :
    (if c then s.setBit f b else s).get g = s.get g := by
  split
  · exact s.get_setBit_of_ne b h
  · rfl

theorem State.get_putPort (s : State) (p : Nat) (x : PortSt) (f : Fld) : (s.putPort p x).get f = s.get f := rfl

theorem State.bit_ite_setBit_false {c : Prop} [Decidable c] {s : State} {f : Fld} (hw : 0 < f.width) (h : s.bit f = false) :
    (if c then s.setBit f false else s).bit f = false := by
  split
  · exact s.bit_setBit_self f false hw
  · exact h

theorem beaconSeen_ambient {p : Nat} (n depth : Nat) {s : State} (h : s.bit (R.LNK_STAT_AMBIENT p) = false) :
    (beaconSeen p n depth s).bit (R.LNK_STAT_AMBIENT p) = false := by
  have hok : fkey (R.LNK_BEACON_OK p) ≠ fkey (R.LNK_STAT_AMBIENT p) := by simp only [fkey, R.LNK_BEACON_OK, R.LNK_STAT_AMBIENT]; omega
  have hnv : fkey (R.LNK_NBR_VALID p) ≠ fkey (R.LNK_STAT_AMBIENT p) := by simp only [fkey, R.LNK_NBR_VALID, R.LNK_STAT_AMBIENT]; omega
  rw [beaconSeen, State.bit, State.get_ite_setBit_of_ne _ _ hnv]
  exact State.bit_ite_setBit_false Nat.one_pos (by rwa [State.bit, State.get_incSat_of_ne _ _ hok])

theorem beaconSeen_ok (p n depth : Nat) (s : State) :
    (beaconSeen p n depth s).get (R.LNK_BEACON_OK p) = min (s.get (R.LNK_BEACON_OK p) + 1) 65535 := by
  have ham : fkey (R.LNK_STAT_AMBIENT p) ≠ fkey (R.LNK_BEACON_OK p) := by simp only [fkey, R.LNK_BEACON_OK, R.LNK_STAT_AMBIENT]; omega
  have hnv : fkey (R.LNK_NBR_VALID p) ≠ fkey (R.LNK_BEACON_OK p) := by simp only [fkey, R.LNK_NBR_VALID, R.LNK_BEACON_OK]; omega
  rw [beaconSeen, State.get_ite_setBit_of_ne _ _ hnv, State.get_ite_setBit_of_ne _ _ ham, State.get_incSat_self, State.get_putPort]
  rfl

/-- The second good frame in a row with one identity, where no ambient light blocks it, makes that identity the neighbour's. -/
theorem beaconIn_second {p n depth : Nat} {rise : Bool} {s : State} (hd : rise = false ∨ 150 ≤ depth) (hm : n % 65536 = 0xB5C3)
    (hc : nfld n 120 8 = beaconCrc n) (ha : s.bit (R.LNK_STAT_AMBIENT p) = false)
    (hb : (s.port p).beacon = some (nfld n 20 20, nfld n 40 7, nfld n 48 32)) :
    beaconIn p n rise depth s = nbrOffer p (neighbourSet p (nfld n 20 20) (nfld n 40 7) (nfld n 48 32) (beaconSeen p n depth s)) := by
  have hd : ¬(rise && decide (depth < 150)) = true := by rcases hd with h | h <;> simp [h]
  have hg : ¬(n % 65536 ≠ 0xB5C3 ∨ nfld n 120 8 ≠ beaconCrc n) := by simp [hm, hc]
  rw [beaconIn, if_neg hd, if_neg hg]
  exact congrArg (nbrOffer p) (if_pos ⟨hb, by rw [← beaconSeen, beaconSeen_ambient n depth ha]; rfl⟩)

/-! ## What the second good frame leaves -/

theorem nbrOffer_get_of_ne {p : Nat} (s : State) {f : Fld} (h : fkey (R.LNK_NBR_OFFER p) ≠ fkey f) : (nbrOffer p s).get f = s.get f :=
  s.get_setBit_of_ne _ h

theorem neighbourSet_get_of_ne {p pkg port epoch : Nat} (s : State) {f : Fld} (hf : f.lo < 64) (h : f.addr ≠ 0x700018 + 0x100 * p) :
    (neighbourSet p pkg port epoch s).get f = s.get f := by
  have hne : ∀ lo width, lo < 64 → fkey ⟨0x700018 + 0x100 * p, lo, width, 0, .ro⟩ ≠ fkey f := fun _ _ hl => fkey_ne hl hf h.symm
  refine (State.get_setBit_of_ne _ _ (hne 27 1 ?_)).trans <| (State.get_set_of_ne _ _ (hne 32 32 ?_)).trans <|
    (State.get_set_of_ne _ _ (hne 20 7 ?_)).trans (State.get_set_of_ne _ _ (hne 0 20 ?_))
  all_goals decide

theorem neighbourSet_valid (p pkg port epoch : Nat) (s : State) : (neighbourSet p pkg port epoch s).get (R.LNK_NBR_VALID p) = 1 :=
  State.get_set_self _ _ _

theorem neighbourSet_epoch (p pkg port epoch : Nat) (s : State) :
    (neighbourSet p pkg port epoch s).get (R.LNK_NBR_EPOCH p) = epoch % 2 ^ 32 := by
  have hv : fkey (R.LNK_NBR_VALID p) ≠ fkey (R.LNK_NBR_EPOCH p) := by simp [fkey, R.LNK_NBR_VALID, R.LNK_NBR_EPOCH]
  rw [neighbourSet, State.get_setBit_of_ne _ _ hv, State.get_set_self]
  rfl

theorem neighbourSet_port (p pkg port epoch : Nat) (s : State) :
    (neighbourSet p pkg port epoch s).get (R.LNK_NBR_PORT p) = port % 2 ^ 7 := by
  have hv : fkey (R.LNK_NBR_VALID p) ≠ fkey (R.LNK_NBR_PORT p) := by simp [fkey, R.LNK_NBR_VALID, R.LNK_NBR_PORT]
  have he : fkey (R.LNK_NBR_EPOCH p) ≠ fkey (R.LNK_NBR_PORT p) := by simp [fkey, R.LNK_NBR_EPOCH, R.LNK_NBR_PORT]
  rw [neighbourSet, State.get_setBit_of_ne _ _ hv, State.get_set_of_ne _ _ he, State.get_set_self]
  rfl

theorem neighbourSet_pkg (p pkg port epoch : Nat) (s : State) :
    (neighbourSet p pkg port epoch s).get (R.LNK_NBR_PKG p) = pkg % 2 ^ 20 := by
  have hv : fkey (R.LNK_NBR_VALID p) ≠ fkey (R.LNK_NBR_PKG p) := by simp [fkey, R.LNK_NBR_VALID, R.LNK_NBR_PKG]
  have he : fkey (R.LNK_NBR_EPOCH p) ≠ fkey (R.LNK_NBR_PKG p) := by simp [fkey, R.LNK_NBR_EPOCH, R.LNK_NBR_PKG]
  have hp : fkey (R.LNK_NBR_PORT p) ≠ fkey (R.LNK_NBR_PKG p) := by simp [fkey, R.LNK_NBR_PORT, R.LNK_NBR_PKG]
  rw [neighbourSet, State.get_setBit_of_ne _ _ hv, State.get_set_of_ne _ _ he, State.get_set_of_ne _ _ hp, State.get_set_self]
  rfl

/-- The neighbour is offered where it is valid and no ambient light is seen. -/
theorem nbrOffer_offer {p : Nat} {s : State} (hv : s.get (R.LNK_NBR_VALID p) = 1) (ha : s.bit (R.LNK_STAT_AMBIENT p) = false) :
    (nbrOffer p s).get (R.LNK_NBR_OFFER p) = 1 := by
  have hv : s.bit (R.LNK_NBR_VALID p) = true := by rw [State.bit, hv]; rfl
  rw [nbrOffer, hv, ha]
  exact State.get_set_self _ _ _

/-! ## The beacon frame that a port sends (Table 8.10) -/

theorem crcBits_add (n c : Nat) (hn : n < 2 ^ 120) : bitsOf (n + 2 ^ 120 * c) 16 120 = bitsOf n 16 120 := by
  refine List.map_congr_left fun i hi => ?_
  have hi : 16 + i < 120 := by have := List.mem_range.mp hi; omega
  rw [nbit_eq_testBit, nbit_eq_testBit, Nat.add_comm, Nat.testBit_two_pow_mul_add c hn, if_pos hi]

/-- The CRC covers the bits below its own field. -/
theorem beaconCrc_add (n c : Nat) (hn : n < 2 ^ 120) : beaconCrc (n + 2 ^ 120 * c) = beaconCrc n := by
  rw [beaconCrc, crcBits_add n c hn, ← beaconCrc]

theorem beaconCrc_lt (n : Nat) : beaconCrc n < 2 ^ 8 := by
  simpa [beaconCrc] using bitsNat_lt ((List.range 8).map fun i => nbit (crc8 (bitsOf n 16 120)) (7 - i))

theorem ownLines_lt (s : State) (p : Nat) : s.ownLines p < 2 ^ 16 := by
  simpa [State.ownLines] using bitsNat_lt ((List.range 16).map fun m => (expressTo (mapEntries s.committedMap) p m).isEmpty)

theorem State.get_lt (s : State) (f : Fld) : s.get f < 2 ^ f.width := Nat.mod_lt _ (Nat.two_pow_pos _)

/-- A beacon frame without its CRC. -/
def beaconBody (s : State) (p : Nat) : Nat :=
  0xB5C3 + 2 ^ 16 * s.get R.HUB_ARCH_LEVEL + 2 ^ 20 * s.get R.LNK_GLOBAL_PKG + 2 ^ 40 * p + 2 ^ 48 * s.get R.LNK_EPOCH_EPOCH +
    2 ^ 80 * s.ownLines p + (if s.portUp p then 2 ^ 112 else 0)

theorem beaconOf_eq (s : State) (p : Nat) : s.beaconOf p = beaconBody s p + 2 ^ 120 * beaconCrc (beaconBody s p) := rfl

/-- The fields of a number laid out as the first twelve bytes of a beacon frame are. -/
theorem nfld_frame {l g p e r : Nat} (hl : l < 2 ^ 4) (hg : g < 2 ^ 20) (hp : p < 2 ^ 7) (he : e < 2 ^ 32) :
    let n := 0xB5C3 + 2 ^ 16 * l + 2 ^ 20 * g + 2 ^ 40 * p + 2 ^ 48 * e + 2 ^ 80 * r
    n % 65536 = 0xB5C3 ∧ nfld n 20 20 = g ∧ nfld n 40 7 = p ∧ nfld n 48 32 = e := by
  simp only [nfld]
  omega

theorem beaconBody_lt (s : State) (p : Port) : beaconBody s p < 2 ^ 120 := by
  have hl : s.get R.HUB_ARCH_LEVEL < 2 ^ 4 := s.get_lt _
  have hg : s.get R.LNK_GLOBAL_PKG < 2 ^ 20 := s.get_lt _
  have he : s.get R.LNK_EPOCH_EPOCH < 2 ^ 32 := s.get_lt _
  have ho := ownLines_lt s p
  have hp : p.val < 32 := p.isLt
  rw [beaconBody]
  split <;> omega

theorem beaconOf_lt (s : State) (p : Port) : s.beaconOf p < 2 ^ 128 := by
  have := beaconBody_lt s p
  have := beaconCrc_lt (beaconBody s p)
  rw [beaconOf_eq]
  omega

/-- What is above the epoch in a beacon frame: the lines of the map, UP and the CRC. -/
def beaconUpper (s : State) (p : Nat) : Nat :=
  s.ownLines p + (if s.portUp p then 2 ^ 32 else 0) + 2 ^ 40 * beaconCrc (beaconBody s p)

theorem beaconOf_eq_fields (s : State) (p : Nat) : s.beaconOf p =
    0xB5C3 + 2 ^ 16 * s.get R.HUB_ARCH_LEVEL + 2 ^ 20 * s.get R.LNK_GLOBAL_PKG + 2 ^ 40 * p + 2 ^ 48 * s.get R.LNK_EPOCH_EPOCH +
      2 ^ 80 * beaconUpper s p := by
  rw [beaconOf_eq, beaconUpper]
  generalize beaconCrc _ = c
  rw [beaconBody]
  split <;> omega

theorem beaconOf_fields (s : State) (p : Port) :
    s.beaconOf p % 65536 = 0xB5C3 ∧ nfld (s.beaconOf p) 20 20 = s.get R.LNK_GLOBAL_PKG ∧ nfld (s.beaconOf p) 40 7 = p.val ∧
      nfld (s.beaconOf p) 48 32 = s.get R.LNK_EPOCH_EPOCH := by
  rw [beaconOf_eq_fields]
  exact nfld_frame (s.get_lt R.HUB_ARCH_LEVEL) (s.get_lt R.LNK_GLOBAL_PKG) (Nat.lt_trans p.isLt (by decide)) (s.get_lt R.LNK_EPOCH_EPOCH)

theorem beaconOf_crc (s : State) (p : Port) : nfld (s.beaconOf p) 120 8 = beaconCrc (s.beaconOf p) := by
  have hb := beaconBody_lt s p
  have hc := beaconCrc_lt (beaconBody s p)
  rw [beaconOf_eq, beaconCrc_add _ _ hb, nfld]
  generalize beaconCrc _ = c at hc ⊢
  omega

theorem beaconSend_lit {p : Port} {s : State} (he : s.bit (R.LNK_CFG_BEACON_EN p) = true) (hl : s.feedLit p = true) (h0 : s.ptState p ≠ 0)
    (h5 : s.ptState p ≠ 5) : beaconSend p s = putWire p (leBytes 16 (s.beaconOf p)) s :=
  if_pos (by simp [he, hl, h0, h5, ptDisabled, ptOut])

/-! ## The clauses -/

theorem exec_gangWrite_of_reaches {r : Requester} {g : Fin 16} (ports : BitVec 32) {s : State} (hr : Reaches r (0x704100 + 8 * g.val) s) :
    exec (.gangWrite r g ports) s = .next (gangPut g ports.toNat s) :=
  congrArg Host.Outcome.next (gated_pass _ hr)

theorem gangWrite_free {r : Requester} {g : Fin 16} {ports : BitVec 32} {s : State} (hr : Reaches r (0x704100 + 8 * g.val) s)
    (hf : ∀ h : Fin 16, h ≠ g → s.get (R.LNK_GANG_PORTS h) &&& ports.toNat = 0) :
    Completes (.gangWrite r g ports) s fun t =>
      t.get (R.LNK_GANG_PORTS g) = ports.toNat ∧
      (∀ p : Port, nbit (t.get (R.LNK_GANG_UP g)) p = (nbit ports.toNat p && s.portUp p)) ∧
      SameRegs (· ≠ 0x704100 + 8 * g.val) s t ∧ t.ports = s.ports ∧ SameMemory s t ∧ SameHarts s t := by
  obtain ⟨d, e⟩ := gangPut_of_free hf
  refine completes_of ((exec_gangWrite_of_reaches ports hr).trans (congrArg _ e)) ⟨?_, fun p => ?_,
    (gangTaken_sameRegs g ports.toNat s).withGangDrain d, (gangTaken_sameRest g ports.toNat s).trans (.withGangDrain _ d)⟩
  · rw [State.get_withGangDrain, gangTaken_ports s ports.isLt]
  · rw [State.get_withGangDrain, gangTaken_up, nbit_gangUps]

theorem gangWrite_meets {r : Requester} {g h : Fin 16} {ports : BitVec 32} {s : State} (hr : Reaches r (0x704100 + 8 * g.val) s) (hg : h ≠ g)
    (hm : s.get (R.LNK_GANG_PORTS h) &&& ports.toNat ≠ 0) :
    exec (.gangWrite r g ports) s = .next (s.setBit R.LNK_GLOBAL_GANG_DUP true) := by
  rw [exec_gangWrite_of_reaches ports hr, gangPut_of_meets hg hm]

theorem pkgWrite_stored {r : Requester} {v : BitVec 20} {s : State} (hr : Reaches r 0x704000 s) (hv : v.toNat ≤ 65535)
    (hs : ∀ p : Port, s.ptState p ≠ 4 ∧ s.ptState p ≠ 3) :
    Completes (.pkgWrite (.reg r) v) s fun t =>
      t.get R.LNK_GLOBAL_PKG = v.toNat ∧ SameRegs (· ≠ 0x704000) s t ∧ t.get R.LNK_GLOBAL_HOPS_INIT = s.get R.LNK_GLOBAL_HOPS_INIT ∧
        SameMemory s t := by
  have e : pkgChecked v.toNat { s with trip := none } = State.set { s with trip := none } R.LNK_GLOBAL_PKG v.toNat :=
    (if_neg (by omega)).trans (pkgPut_of_none_up hs)
  refine completes_of ((exec_pkgWrite_of_reaches hr).trans (attempt_next e rfl)) ⟨?_, ?_, ?_, fun _ => rfl, rfl, rfl, rfl⟩
  · exact (State.get_set_self _ _ _).trans (Nat.mod_eq_of_lt v.isLt)
  · exact SameRegs.set (p := (· ≠ 0x704000)) (f := R.LNK_GLOBAL_PKG) { s with trip := none } _ (by decide) (not_not_intro rfl)
  · exact State.get_set_of_ne (f := R.LNK_GLOBAL_PKG) { s with trip := none } _ (by decide)

theorem pkgWrite_ignored {r : Requester} {v : BitVec 20} {s : State} {p : Port} (hr : Reaches r 0x704000 s) (hv : v.toNat ≤ 65535)
    (hs : s.ptState p = 4 ∨ s.ptState p = 3) :
    Completes (.pkgWrite (.reg r) v) s fun t =>
      t.get R.LNK_GLOBAL_PKG = s.get R.LNK_GLOBAL_PKG ∧
        t.get R.LNK_GLOBAL_PKG_IGNORED = min (s.get R.LNK_GLOBAL_PKG_IGNORED + 1) 65535 ∧ SameRegs (· ≠ 0x704000) s t := by
  have e : pkgChecked v.toNat { s with trip := none } = State.incSat { s with trip := none } R.LNK_GLOBAL_PKG_IGNORED :=
    (if_neg (by omega)).trans (pkgPut_of_up hs)
  refine completes_of ((exec_pkgWrite_of_reaches hr).trans (attempt_next e rfl)) ⟨?_, ?_, ?_⟩
  · exact State.get_incSat_of_ne (f := R.LNK_GLOBAL_PKG_IGNORED) { s with trip := none } _ (by decide)
  · exact State.get_incSat_self { s with trip := none } R.LNK_GLOBAL_PKG_IGNORED _
  · exact SameRegs.set (p := (· ≠ 0x704000)) (f := R.LNK_GLOBAL_PKG_IGNORED) { s with trip := none } _ (by decide) (not_not_intro rfl)

theorem pkgWrite_undefined {r : Requester} {v : BitVec 20} {s : State} (hr : Reaches r 0x704000 s) (hv : 65535 < v.toNat) :
    exec (.pkgWrite (.reg r) v) s = .fault (.undefinedCase 1) := by
  have e : pkgChecked v.toNat { s with trip := none } = State.undef { s with trip := none } 1 := if_pos hv
  rw [exec_pkgWrite_of_reaches hr, attempt, e]
  rfl

theorem beaconFrame_second {p : Port} {n : BitVec 128} {rise : Bool} {depth : Nat} {s : State} (hd : rise = false ∨ 150 ≤ depth)
    (hm : n.toNat % 65536 = 0xB5C3) (hc : nfld n.toNat 120 8 = beaconCrc n.toNat) (ha : s.bit (R.LNK_STAT_AMBIENT p) = false)
    (hb : (s.port p).beacon = some (nfld n.toNat 20 20, nfld n.toNat 40 7, nfld n.toNat 48 32)) :
    Completes (.beaconFrame p n rise depth) s fun t =>
      t.get (R.LNK_NBR_VALID p) = 1 ∧ t.get (R.LNK_NBR_OFFER p) = 1 ∧ t.get (R.LNK_NBR_PKG p) = nfld n.toNat 20 20 ∧
      t.get (R.LNK_NBR_PORT p) = nfld n.toNat 40 7 ∧ t.get (R.LNK_NBR_EPOCH p) = nfld n.toNat 48 32 ∧
      t.get (R.LNK_BEACON_OK p) = min (s.get (R.LNK_BEACON_OK p) + 1) 65535 ∧
      SameRegs (fun a => ¬PortBlock p a) s t ∧ OtherPorts p s t ∧ SameMemory s t := by
  refine completes_of (congrArg Host.Outcome.next (beaconIn_second hd hm hc ha hb)) ⟨?_, ?_, ?_, ?_, ?_, ?_, ?_⟩
  · exact (nbrOffer_get_of_ne _ (by simp [fkey, R.LNK_NBR_OFFER, R.LNK_NBR_VALID])).trans (neighbourSet_valid ..)
  · refine nbrOffer_offer (neighbourSet_valid ..) ?_
    rw [State.bit, neighbourSet_get_of_ne _ (by simp [R.LNK_STAT_AMBIENT]) (by simp [R.LNK_STAT_AMBIENT])]
    exact beaconSeen_ambient n.toNat depth ha
  · rw [nbrOffer_get_of_ne _ (by simp [fkey, R.LNK_NBR_OFFER, R.LNK_NBR_PKG]), neighbourSet_pkg]
    exact Nat.mod_mod _ _
  · rw [nbrOffer_get_of_ne _ (by simp [fkey, R.LNK_NBR_OFFER, R.LNK_NBR_PORT]), neighbourSet_port]
    exact Nat.mod_mod _ _
  · rw [nbrOffer_get_of_ne _ (by simp [fkey, R.LNK_NBR_OFFER, R.LNK_NBR_EPOCH]), neighbourSet_epoch]
    exact Nat.mod_mod _ _
  · rw [nbrOffer_get_of_ne _ (by simp only [fkey, R.LNK_NBR_OFFER, R.LNK_BEACON_OK]; omega),
      neighbourSet_get_of_ne _ (by simp [R.LNK_BEACON_OK]) (by simp [R.LNK_BEACON_OK]), beaconSeen_ok]
  · exact (beaconSeen_onlyPort p n.toNat depth s).trans <| (neighbourSet_onlyPort p _ _ _ _).trans (nbrOffer_onlyPort p _)

theorem beaconFrame_bad {p : Port} {n : BitVec 128} {rise : Bool} {depth : Nat} {s : State} (hd : rise = false ∨ 150 ≤ depth)
    (hb : n.toNat % 65536 ≠ 0xB5C3 ∨ nfld n.toNat 120 8 ≠ beaconCrc n.toNat) :
    Completes (.beaconFrame p n rise depth) s fun t =>
      t.get (R.LNK_BEACON_BAD p) = min (s.get (R.LNK_BEACON_BAD p) + 1) 65535 ∧ (t.port p).beacon = none ∧
      SameRegs (· ≠ 0x700040 + 0x100 * p.val) s t ∧ OtherPorts p s t ∧ SameMemory s t := by
  refine completes_of (congrArg Host.Outcome.next (beaconIn_bad hd hb)) ⟨?_, ?_, ?_, ?_, fun _ => rfl, rfl, rfl, rfl⟩
  · exact State.get_incSat_self _ _ _
  · have e := State.port_putPort s p p { s.port p with beacon := none, clearRun := 0 }
    exact congrArg PortSt.beacon (e.trans (if_pos rfl))
  · exact SameRegs.set (p := (· ≠ 0x700040 + 0x100 * p.val)) (f := R.LNK_BEACON_BAD p) (s.putPort p _) _
      (by simp [R.LNK_BEACON_BAD]) (by simp [R.LNK_BEACON_BAD])
  · exact (OnlyPort.putPort p s _).2.1

theorem beaconSend_completes {p : Port} {s : State} (he : s.bit (R.LNK_CFG_BEACON_EN p) = true) (hl : s.feedLit p = true)
    (h0 : s.ptState p ≠ 0) (h5 : s.ptState p ≠ 5) :
    Completes (.beaconSend p) s fun t =>
      (∃ bs : List Byte, t.wire = s.wire ++ [(p.val, bs)] ∧ bs.length = 16 ∧ leNat bs % 65536 = 0xB5C3 ∧
        nfld (leNat bs) 20 20 = s.get R.LNK_GLOBAL_PKG ∧ nfld (leNat bs) 40 7 = p.val ∧ nfld (leNat bs) 48 32 = s.get R.LNK_EPOCH_EPOCH ∧
        nfld (leNat bs) 120 8 = beaconCrc (leNat bs)) ∧
      t.regs = s.regs ∧ t.ports = s.ports ∧ SameMemory s t ∧ SameHarts s t := by
  have hn : leNat (leBytes 16 (s.beaconOf p)) = s.beaconOf p := (leNat_leBytes _ _).trans (Nat.mod_eq_of_lt (beaconOf_lt s p))
  obtain ⟨hpre, hpkg, hport, hepoch⟩ := beaconOf_fields s p
  refine completes_of (congrArg Host.Outcome.next (beaconSend_lit he hl h0 h5))
    ⟨⟨leBytes 16 (s.beaconOf p), rfl, length_leBytes _ _, ?_⟩, rfl, rfl, ⟨fun _ => rfl, rfl, rfl, rfl⟩, rfl, rfl⟩
  rw [hn]
  exact ⟨hpre, hpkg, hport, hepoch, beaconOf_crc s p⟩

/-- Settles O39, clause by clause. -/
theorem gangsAndIdentity : Obligations.GangsAndIdentity :=
  ⟨fun _ _ _ _ hr => ⟨gangWrite_free hr, fun _ => gangWrite_meets hr⟩,
   fun _ _ _ _ hr hd ht => completes_of (congrArg Host.Outcome.next (gangDrained_last hr hd ht)) ⟨rfl, rfl, rfl, fun _ => rfl, rfl, rfl, rfl⟩,
   fun _ _ _ hr => ⟨pkgWrite_stored hr, fun _ => pkgWrite_ignored hr, pkgWrite_undefined hr⟩,
   fun _ _ _ _ _ hd => ⟨beaconFrame_second hd, beaconFrame_bad hd⟩,
   fun _ _ => beaconSend_completes⟩

end Sys2Proof.Machine
end

section
/-!
PROOF. Three statements about every state, refuted by states whose tables name what does not exist: a request of Scribe that holds a permit of no
resource (O38, O43), and a laser noted to serve no feed (O58). The address of a register follows from the number of its unit, so that the register of a
unit that does not exist may be one of another unit. Neither entry is one that a package makes (Table 13.13; R31); the statements do not exclude them.
-/

namespace Sys2Proof.Machine

/-! ## A request that claims a permit of no resource -/

/-- A request to calibrate unit `u` that waits and holds one permit, whose number is that of no resource: its holder field would stand at register
address `a`. No CALIBRATE makes such a request (Tables 11.1 and 13.13, and `TablesOk`); the statements do not exclude it. -/
def strayReq (u a : Nat) : ScbReq :=
  { unit := u, force := false, timed := false, startAt := 0, timeoutMs := 0, res := [(a - 0x400) / 4], base := 0 }

/-- A package that runs, with port 0 DOWN, in which a calibration of port 0 waits with LNK_CFG of that port for its permit. -/
def strayAtCfg : State := { State.reset.set R.HUB_BOOT_STATE 1 with scbQueue := [strayReq 0 0x700000] }

theorem strayAtCfg_reaches : Reaches (.hart 0) 0x700000 strayAtCfg := by unfold Reaches; decide +kernel

theorem strayAtCfg_state : strayAtCfg.ptState 0 ≠ 5 := by decide +kernel

/-- EN = 0 ends the request, and freeing its permit sets LNK_CFG.EN to 1, its reset value. -/
theorem strayAtCfg_en : (nextOf (exec (.lnkCfgEnWrite (.hart 0) 0 0) strayAtCfg)).map (·.get (R.LNK_CFG_EN 0)) = some 1 := by decide +kernel

/-- Refutes O38: a write of EN = 0 ends the calibrations of the port that wait and frees what they hold as permits; where that is a number of no
resource, freeing it may write LNK_CFG itself, and EN reads 1. -/
theorem not_portStates : ¬ Obligations.PortStates := by
  rintro ⟨-, -, en, -⟩
  obtain ⟨⟨t, ht, hen, -⟩, -⟩ := en (.hart 0) 0 strayAtCfg strayAtCfg_reaches strayAtCfg_state
  have h := strayAtCfg_en
  simp only [ht, nextOf, Option.map_some, Option.some.injEq] at h
  exact absurd (hen.symm.trans h) (by decide)

/-! ## What the darkness of a feed leaves -/

/-- The command in hand meets nothing that stops it, and the requests of Scribe are as before. -/
def GoesOn (s t : State) : Prop := t.trip = s.trip ∧ t.scbQueue = s.scbQueue ∧ t.scbRun = s.scbRun

theorem GoesOn.trans {s t u : State} (h : GoesOn s t) (h' : GoesOn t u) : GoesOn s u := by
  obtain ⟨ht, hq, hr⟩ := h
  obtain ⟨ht', hq', hr'⟩ := h'
  exact ⟨ht'.trans ht, hq'.trans hq, hr'.trans hr⟩

/-- What holding rings leaves: engines, and every field but PMX_STAT.LOCKED, which stands at bit 3 of its register. -/
def RingsOnly (s t : State) : Prop :=
  (∀ f : Fld, f.lo < 64 → f.lo ≠ 3 → t.get f = s.get f) ∧ t.engs = s.engs ∧ GoesOn s t

theorem RingsOnly.refl (s : State) : RingsOnly s s := ⟨fun _ _ _ => rfl, rfl, rfl, rfl, rfl⟩

theorem RingsOnly.trans {s t u : State} (h : RingsOnly s t) (h' : RingsOnly t u) : RingsOnly s u := by
  obtain ⟨hf, he, hg⟩ := h
  obtain ⟨hf', he', hg'⟩ := h'
  exact ⟨fun f hl h3 => (hf' f hl h3).trans (hf f hl h3), he'.trans he, hg.trans hg'⟩

theorem RingsOnly.setLocked (s : State) (e : Nat) (b : Bool) : RingsOnly s (s.setBit (R.PMX_STAT_LOCKED e) b) :=
  ⟨fun f hl h3 => s.get_setBit_of_ne b (by simp only [fkey, R.PMX_STAT_LOCKED]; omega), rfl, rfl, rfl, rfl⟩

theorem RingsOnly.foldl {α : Type} {P : State → Prop} (hP : ∀ s t, RingsOnly s t → P s → P t) {f : State → α → State} {l : List α}
    (hf : ∀ s, P s → ∀ x ∈ l, RingsOnly s (f s x)) {s : State} (hs : P s) : RingsOnly s (l.foldl f s) := by
  induction l generalizing s with
  | nil => exact .refl s
  | cons x l ih =>
    have hx := hf s hs x List.mem_cons_self
    exact hx.trans (ih (fun t ht y hy => hf t ht y (List.mem_cons_of_mem x hy)) (hP s _ hx hs))

theorem putLoop_ringsOnly (id : Nat) (l : Loop) (s : State) : RingsOnly s (s.putLoop id l) := by
  have hl : RingsOnly s { s with loops := tput id l s.loops } := ⟨fun _ _ _ => rfl, rfl, rfl, rfl, rfl⟩
  rw [State.putLoop]
  split
  · exact hl
  · exact hl.trans (.setLocked _ _ _)

theorem holdPort_ringsOnly (p : Nat) (s : State) : RingsOnly s (holdPort p s) := by
  refine RingsOnly.foldl (P := fun _ => True) (fun _ _ _ _ => trivial) (fun t _ l _ => ?_) trivial
  dsimp only
  split
  · exact (putLoop_ringsOnly _ _ t).trans (putLoop_ringsOnly _ _ _)
  · exact putLoop_ringsOnly _ _ t

theorem holdEngine_ringsOnly (e : Nat) (s : State) : RingsOnly s (holdEngine e s) := by
  have hl (ls : List (Nat × Loop)) (hs : List Nat) : RingsOnly s { s with loops := ls, ringHeld := hs } :=
    ⟨fun _ _ _ => rfl, rfl, rfl, rfl, rfl⟩
  exact (hl _ _).trans (.setLocked _ e _)

/-- Port `p` is neither UP, nor in training, nor in EPOCH_WAIT. -/
def PortIdle (p : Nat) (s : State) : Prop := s.ptState p ≠ 4 ∧ s.ptState p ≠ 2 ∧ s.ptState p ≠ 3

theorem portFall_of_idle {p : Nat} {s : State} (h : PortIdle p s) : portFall p s = s :=
  if_neg (by obtain ⟨h4, h2, h3⟩ := h; simp [ptUp, ptTraining, ptEpochWait, h4, h2, h3])

theorem RingsOnly.get_of_lo_zero {s t : State} (h : RingsOnly s t) {f : Fld} (hf : f.lo = 0) : t.get f = s.get f := h.1 f (by omega) (by omega)

theorem RingsOnly.ptState {s t : State} (h : RingsOnly s t) (p : Nat) : t.ptState p = s.ptState p := h.get_of_lo_zero rfl

theorem RingsOnly.engState {s t : State} (h : RingsOnly s t) (e : Nat) : t.engState e = s.engState e := h.get_of_lo_zero rfl

theorem RingsOnly.las {s t : State} (h : RingsOnly s t) (j : Nat) : t.las j = s.las j := h.get_of_lo_zero rfl

/-- The ports of feed `f` lose their light. -/
def portsDark (f : Nat) (s : State) : State := (List.range 4).foldl (fun s i => holdPort (4 * f + i) (portFall (4 * f + i) s)) s

theorem portsDark_ringsOnly {f : Nat} {s : State} (h : ∀ i, i < 4 → PortIdle (4 * f + i) s) : RingsOnly s (portsDark f s) := by
  refine RingsOnly.foldl (P := fun t => ∀ i, i < 4 → PortIdle (4 * f + i) t) (fun t u htu ht i hi => ?_) (fun t ht i hi => ?_) h
  · simpa only [PortIdle, htu.ptState] using ht i hi
  · rw [portFall_of_idle (ht i (List.mem_range.mp hi))]
    exact holdPort_ringsOnly _ t

theorem engineFault_of_off {e : Nat} (st : Nat) {s : State} (h : s.engState e = 0) : engineFault e st s = s := by
  simp [engineFault, State.engServing, h, engCalibrating, engAcquiring]

theorem feedDark_eq (f : Nat) (s : State) :
    feedDark f s = holdEngine (2 * f + 1) (engineFault (2 * f + 1) engAcquiring
      (holdEngine (2 * f) (engineFault (2 * f) engAcquiring (portsDark f s)))) := rfl

/-- A feed whose ports and engines carry nothing goes dark: its rings hold. -/
theorem feedDark_of_idle {f : Nat} {s : State} (hp : ∀ i, i < 4 → PortIdle (4 * f + i) s) (h0 : s.engState (2 * f) = 0)
    (h1 : s.engState (2 * f + 1) = 0) : RingsOnly s (feedDark f s) := by
  have hd := portsDark_ringsOnly hp
  have hh := hd.trans (holdEngine_ringsOnly (2 * f) _)
  rw [feedDark_eq, engineFault_of_off _ ((hd.engState _).trans h0), engineFault_of_off _ ((hh.engState _).trans h1)]
  exact hh.trans (holdEngine_ringsOnly _ _)

theorem markEngineOut_of_marked {e : Nat} (cause : Nat) {s : State} (h : s.engMarked e = true) : markEngineOut e cause s = s := if_pos h

theorem feedGone_of_idle {f : Nat} {s : State} (hp : ∀ i, i < 4 → PortIdle (4 * f + i) s) (h0 : s.engState (2 * f) = 0)
    (h1 : s.engState (2 * f + 1) = 0) (m0 : s.engMarked (2 * f) = true) (m1 : s.engMarked (2 * f + 1) = true) :
    RingsOnly s (feedGone f s) := by
  have hd := feedDark_of_idle hp h0 h1
  have hm (e : Nat) : (feedDark f s).engMarked e = s.engMarked e := congrArg (nbit · e) (hd.1 R.HUB_ENG_MAP_ENG_OUT (by decide) (by decide))
  rw [feedGone, markEngineOut_of_marked (e := 2 * f) 4 ((hm _).trans m0), markEngineOut_of_marked 4 ((hm _).trans m1)]
  exact hd

theorem attempt_of_untripped {f : State → State} {s t : State} (hs : s.trip = none) (h : f s = t) (ht : t.trip = none) :
    attempt f s = .next t := by
  have e : { s with trip := none } = s := by rw [← hs]
  exact attempt_next (by rw [e, h]) ht

/-! ## The failure of a laser -/

theorem exec_laserFailure (j : Laser) (s : State) : exec (.laserFailure j) s = attempt (laserFail j) s := rfl

/-- What the failure of laser `j` does before the feed `f` that it served goes dark. -/
def laserLost (j f : Nat) (s : State) : State :=
  logAlert alertLaser 9 j 0x0300 (leBytes 1 j ++ leBytes 1 (8 + lasBank j) ++ leBytes 2 0) (scbRecheck
    (scbAbortRun (fun u => u == unitLaser j || (u < 32 && u / 4 == f || (u == unitEng (2 * f) || u == unitEng (2 * f + 1))))
      { lasEnter j lasFailed 15 s with lasTarget := terase j s.lasTarget }))

/-- A lit laser of the first eight that fails with no takeover in its bank: a WARM spare takes its feed over, or the feed is gone. -/
theorem laserFail_of_lit {j f : Nat} {s : State} (hj : j < 8) (hl : s.las j = 3) (hs : s.get (R.LAS_STAT_SERVES j) = f) (hf : f ≠ 15)
    (ht : s.takeovers.find? (fun x => x.1 == lasBank j) = none) :
    laserFail j s = if (laserLost j f s).las (8 + lasBank j) = 1
      then takeoverStart (lasBank j) f 0 ((laserLost j f s).incWrap R.LAS_CNT_TAKEOVERS) else feedGone f (laserLost j f s) := by
  have htest : (j == 8 + lasBank j) = false := beq_false_of_ne (by omega)
  subst hs
  simp [laserFail, hl, hf, ht, htest, hj, lasOff, lasFailed, lasLit, lasWarm, laserLost]

/-- A package that runs, with laser 0 lit on its feed and its spare OFF; engines 0 and 1 are marked out. A calibration of laser 0 waits with LAS_STAT of
that laser for its permit. -/
def strayAtLaser : State :=
  { (((State.reset.set R.HUB_BOOT_STATE 1).set (R.LAS_STAT_STATE 0) 3).set (R.LAS_STAT_SERVES 0) 0).set R.HUB_ENG_MAP_ENG_OUT 3 with
    scbQueue := [strayReq 48 0x880000] }

/-- The failure ends the request, and freeing its permit sets LAS_STAT.STATE to OFF. -/
theorem strayAtLaser_lost :
    (laserLost 0 0 strayAtLaser).las 0 = 0 ∧ (laserLost 0 0 strayAtLaser).las 8 ≠ 1 ∧ (laserLost 0 0 strayAtLaser).trip = none := by
  decide +kernel

theorem strayAtLaser_feed : (∀ i, i < 4 → PortIdle (4 * 0 + i) (laserLost 0 0 strayAtLaser)) ∧
    (laserLost 0 0 strayAtLaser).engState 0 = 0 ∧ (laserLost 0 0 strayAtLaser).engState 1 = 0 ∧
    (laserLost 0 0 strayAtLaser).engMarked 0 = true ∧ (laserLost 0 0 strayAtLaser).engMarked 1 = true := by
  unfold PortIdle
  decide +kernel

theorem strayAtLaser_lit : strayAtLaser.las 0 = 3 ∧ strayAtLaser.las 8 ≠ 1 ∧ strayAtLaser.get (R.LAS_STAT_SERVES 0) = 0 := by decide +kernel

/-- Laser 0 of that package fails, and is OFF. -/
theorem strayAtLaser_fails : Completes (.laserFailure 0) strayAtLaser fun t => t.las 0 = 0 := by
  obtain ⟨hl, -, hs⟩ := strayAtLaser_lit
  obtain ⟨h0, hw, ht⟩ := strayAtLaser_lost
  obtain ⟨hp, e0, e1, m0, m1⟩ := strayAtLaser_feed
  have e : laserFail 0 strayAtLaser = feedGone 0 (laserLost 0 0 strayAtLaser) :=
    (laserFail_of_lit (by decide) hl hs (by decide) rfl).trans (if_neg hw)
  have hd := feedGone_of_idle hp e0 e1 m0 m1
  have hlas := hd.las 0
  obtain ⟨-, -, htrip, -⟩ := hd
  exact completes_of ((exec_laserFailure 0 _).trans (attempt_of_untripped rfl e (htrip.trans ht))) (hlas.trans h0)

/-- Refutes O43: the failure of a laser ends the calibrations of it that wait and frees what they hold as permits; where that is a number of no
resource, freeing it may write LAS_STAT itself, and the laser reads OFF. -/
theorem not_laserFailures : ¬ Obligations.LaserFailures := by
  rintro ⟨failure, -⟩
  obtain ⟨hl, hw, hs⟩ := strayAtLaser_lit
  obtain ⟨-, gone⟩ := failure 0 strayAtLaser hl hs rfl (fun _ _ => ⟨rfl, rfl⟩)
  obtain ⟨t, ht, hf, -⟩ := gone hw
  obtain ⟨u, hu, h0⟩ := strayAtLaser_fails
  cases ht.symm.trans hu
  exact absurd (hf.symm.trans h0) (by decide)

/-! ## The fields of an engine that leaves service -/

theorem foldl_sameRegs {α : Type} {p : Nat → Prop} {l : List α} {f : State → α → State} (hf : ∀ s, ∀ x ∈ l, SameRegs p s (f s x))
    (s : State) : SameRegs p s (l.foldl f s) := by
  induction l generalizing s with
  | nil => exact fun _ _ _ => rfl
  | cons x l ih => exact (hf s x List.mem_cons_self).trans (ih (fun t y hy => hf t y (List.mem_cons_of_mem x hy)) _)

theorem State.putEng_get {e : Nat} (s : State) (g : Machine.Eng) {f : Fld} (hf : f.lo < 64) (h : f.addr ≠ 0x400004 + 0x100 * e ∨ f.lo < 8) :
    (s.putEng e g).get f = s.get f :=
  State.get_set_of_ne (f := R.PMX_STAT_QDEPTH e) { s with engs := tput e g s.engs } _ (by simp only [fkey, R.PMX_STAT_QDEPTH]; omega)

theorem weirCold_get {e : Nat} (s : State) {f : Fld} (hf : f.lo < 64) (h : f.addr ≠ 0x400004 + 0x100 * e ∨ f.lo < 8) :
    (weirCold e s).get f = s.get f := by
  have hd : fkey (R.PMX_STAT_DUTY e) ≠ fkey f := by simp only [fkey, R.PMX_STAT_DUTY]; omega
  have hc : fkey (R.PMX_STAT_WEIR_CAP e) ≠ fkey f := by simp only [fkey, R.PMX_STAT_WEIR_CAP]; omega
  rw [weirCold, State.get_set_of_ne _ _ hd, State.get_set_of_ne _ _ hc, s.putEng_get _ hf h]

theorem setErrs_sameRegs (e : Nat) (v : Nat → Nat) (s : State) :
    SameRegs (fun a => a < 0x400040 + 0x100 * e ∨ 0x400058 + 0x100 * e ≤ a) s (setErrs e v s) :=
  foldl_sameRegs (fun t i hi => .set (f := R.PMX_ERR_ERR e i) t _ (by simp [R.PMX_ERR_ERR])
    (by have := List.mem_range.mp hi; simp only [R.PMX_ERR_ERR]; omega)) s

/-- An engine that enters a state in which it does not serve: what its registers are but for STATE and ENG_IN_SERVICE. -/
theorem engEnter_get {e st : Nat} (s : State) (hst : st < 2 ∨ 4 < st) {f : Fld} (hf : f.lo < 64) (h : f.addr ≠ 0x400004 + 0x100 * e ∨ f.lo < 8)
    (hr : f.addr < 0x400040 + 0x100 * e ∨ 0x400058 + 0x100 * e ≤ f.addr) :
    (engEnter e st s).get f = ((s.set (R.PMX_STAT_STATE e) st).set R.HUB_ENG_MAP_ENG_IN_SERVICE
      (nput (s.get R.HUB_ENG_MAP_ENG_IN_SERVICE) e false)).get f := by
  have hs : (st == 2 || st == 3 || st == 4) = false := by
    simp only [Bool.or_eq_false_iff, beq_eq_false_iff_ne]
    omega
  simp only [engEnter, hs, Bool.false_eq_true, if_false]
  rw [weirCold_get _ hf h, setErrs_sameRegs e _ _ f hf hr, State.putEng_get _ _ hf h]

theorem engEnter_engState {e st : Nat} (s : State) (hst : st < 2 ∨ 4 < st) (h8 : st < 8) : (engEnter e st s).engState e = st := by
  have hm : fkey R.HUB_ENG_MAP_ENG_IN_SERVICE ≠ fkey (R.PMX_STAT_STATE e) := by simp only [fkey, R.HUB_ENG_MAP_ENG_IN_SERVICE, R.PMX_STAT_STATE]; omega
  rw [State.engState, engEnter_get s hst (by simp [R.PMX_STAT_STATE]) (.inr (by simp [R.PMX_STAT_STATE])) (.inl (by simp [R.PMX_STAT_STATE])),
    State.get_set_of_ne _ _ hm, State.get_set_self]
  exact Nat.mod_eq_of_lt h8

theorem engEnter_engState_of_ne {e k st : Nat} (s : State) (hst : st < 2 ∨ 4 < st) (hk : k ≠ e) : (engEnter e st s).engState k = s.engState k := by
  have hm : fkey R.HUB_ENG_MAP_ENG_IN_SERVICE ≠ fkey (R.PMX_STAT_STATE k) := by simp only [fkey, R.HUB_ENG_MAP_ENG_IN_SERVICE, R.PMX_STAT_STATE]; omega
  have hs : fkey (R.PMX_STAT_STATE e) ≠ fkey (R.PMX_STAT_STATE k) := by simp only [fkey, R.PMX_STAT_STATE]; omega
  rw [State.engState, engEnter_get s hst (by simp [R.PMX_STAT_STATE]) (.inr (by simp [R.PMX_STAT_STATE])) (by simp only [R.PMX_STAT_STATE]; omega),
    State.get_set_of_ne _ _ hm, State.get_set_of_ne _ _ hs, State.engState]

theorem setErrs_form (e : Nat) (v : Nat → Nat) (s : State) : ∃ r, setErrs e v s = { s with regs := r } :=
  foldl_regs _ _ (fun s _ => s.set_form _ _) s

theorem setErrs_goesOn (e : Nat) (v : Nat → Nat) (s : State) : GoesOn s (setErrs e v s) := by
  obtain ⟨r, hr⟩ := setErrs_form e v s
  rw [hr]
  exact ⟨rfl, rfl, rfl⟩

theorem engEnter_goesOn (e st : Nat) (s : State) : GoesOn s (engEnter e st s) := by
  rw [engEnter]
  split
  · exact ⟨rfl, rfl, rfl⟩
  · have hw (t : State) : GoesOn t (weirCold e t) := ⟨rfl, rfl, rfl⟩
    have hp (n : Nat) (g : Machine.Eng) : GoesOn s (((s.set (R.PMX_STAT_STATE e) st).set R.HUB_ENG_MAP_ENG_IN_SERVICE n).putEng e g) := ⟨rfl, rfl, rfl⟩
    exact ((hp _ _).trans (setErrs_goesOn e _ _)).trans (hw _)

theorem dropTiles_of_empty {e : Nat} (b : Bool) {s : State} (hq : (s.eng e).queue = []) (hr : (s.eng e).running = false) :
    dropTiles e b s = s.putEng e { s.eng e with queue := [] } := by
  simp [dropTiles, hq, hr, routeQueued, routeAll]

theorem engineFault_of_serving {e st : Nat} {s : State} (h : s.engServing e = true) : engineFault e st s = engEnter e st (dropTiles e false s) :=
  if_pos (by simp [h])

/-! ## A bank that goes off -/

theorem scbRecheck_of_none {s : State} (hq : s.scbQueue = []) (hr : s.scbRun = none) : scbRecheck s = s := by
  simp [scbRecheck, hq, hr]

theorem scbAbortRun_of_none (p : Nat → Bool) {s : State} (hr : s.scbRun = none) : scbAbortRun p s = s := by
  simp [scbAbortRun, hr]

theorem goesOn_withLasTarget (s : State) (l : List (Nat × Nat)) : GoesOn s { s with lasTarget := l } := ⟨rfl, rfl, rfl⟩

theorem lasEnter_goesOn (j st f : Nat) (s : State) : GoesOn s (lasEnter j st f s) := by
  rw [lasEnter]
  dsimp only
  split <;> split <;> exact ⟨rfl, rfl, rfl⟩

/-- A laser that goes OFF changes its own registers and HUB_LASER_MAP. -/
theorem lasOff_sameRegs (j f : Nat) (s : State) : SameRegs (fun a => a ≠ 0x880000 + 4 * j ∧ a ≠ 0x20C) s (lasEnter j lasOff f s) := by
  refine .trans (.set (f := R.LAS_STAT_STATE j) s _ ?_ ?_) <| .trans (.set (f := R.LAS_STAT_GRID_LOCK j) _ _ ?_ ?_) <|
    .trans (.set (f := R.LAS_STAT_SERVES j) _ _ ?_ ?_) <| .trans (.set (f := R.HUB_LASER_MAP_LASER_LIT) _ _ ?_ ?_) <|
    .set (f := R.LAS_STAT_PWR j) _ _ ?_ ?_
  all_goals simp [R.LAS_STAT_STATE, R.LAS_STAT_GRID_LOCK, R.LAS_STAT_SERVES, R.HUB_LASER_MAP_LASER_LIT, R.LAS_STAT_PWR]

theorem foldl_of_fixed {α β : Type} {f : β → α → β} {b : β} {l : List α} (h : ∀ x ∈ l, f b x = b) : l.foldl f b = b := by
  induction l with
  | nil => rfl
  | cons x l ih => rw [List.foldl_cons, h x List.mem_cons_self, ih fun y hy => h y (List.mem_cons_of_mem x hy)]

theorem takeoverDrop_of_none {b : Nat} {s : State} (h : s.takeovers = []) : takeoverDrop b s = s := by simp [takeoverDrop, h]

/-- Bank A goes off while its spare alone has light to give, for feed `f`. -/
theorem bankOff_of_spare {f : Nat} {s : State} (hd : ∀ j, j < 4 → s.las j = 0 ∨ s.las j = 4) (h8 : s.las 8 = 1)
    (hs : s.get (R.LAS_STAT_SERVES 8) = 15) (ht : s.takeovers = []) (hl : s.lasTarget = [(8, f)]) (hg : GoesOn s (feedDark f s)) (hq : s.scbQueue = [])
    (hr : s.scbRun = none) :
    ∃ l, bankOff 0 s = lasEnter 8 lasOff 15 { feedDark f s with lasTarget := l } := by
  have htest : s.spareTesting 0 = false := by simp [State.spareTesting, h8, lasLighting]
  have hlight : ¬(s.las (8 + 0) = lasOff ∨ s.las (8 + 0) = lasFailed) := by simp [h8, lasOff, lasFailed]
  have hs' : ¬ s.get (R.LAS_STAT_SERVES (8 + 0)) ≠ 15 := not_not_intro hs
  obtain ⟨-, hq', hr'⟩ := (hg.trans (goesOn_withLasTarget _ (tput 8 f s.lasTarget))).trans (lasEnter_goesOn 8 lasOff 15 _)
  refine ⟨tput 8 f s.lasTarget, ?_⟩
  rw [bankOff, takeoverDrop_of_none ht, htest]
  dsimp only
  rw [List.foldl_append, List.foldl_cons, List.foldl_nil, foldl_of_fixed (b := s) (l := List.map _ _), if_neg hlight, if_neg hs']
  · simp only [ht, List.find?_nil, hl, List.find?_cons, beq_self_eq_true, Option.map_some, Bool.false_eq_true, if_false] at hq' hr' ⊢
    rw [scbAbortRun_of_none _ (hr'.trans hr), scbRecheck_of_none (hq'.trans hq) (hr'.trans hr)]
  · intro j hj
    obtain ⟨i, hi, rfl⟩ := List.mem_map.mp hj
    have hi := List.mem_range.mp hi
    exact if_pos (hd _ (by omega))

/-- A feed goes dark of which the first engine serves without a tile, and nothing else carries anything: that engine acquires its rings again. -/
theorem feedDark_of_serving {f : Nat} {s : State} (hp : ∀ i, i < 4 → PortIdle (4 * f + i) s) (h0 : s.engServing (2 * f) = true)
    (hq : (s.eng (2 * f)).queue = []) (hr : (s.eng (2 * f)).running = false) (h1 : s.engState (2 * f + 1) = 0) :
    (feedDark f s).engState (2 * f) = 1 ∧ GoesOn s (feedDark f s) := by
  have hd := portsDark_ringsOnly hp
  obtain ⟨-, hengs, hgo⟩ := id hd
  have heng : (portsDark f s).eng (2 * f) = s.eng (2 * f) := congrArg (tget Eng.reset · (2 * f)) hengs
  have hserv : (portsDark f s).engServing (2 * f) = true := by rw [State.engServing, hd.engState, ← State.engServing, h0]
  rw [feedDark_eq, engineFault_of_serving hserv, dropTiles_of_empty false (by rw [heng, hq]) (by rw [heng, hr])]
  have hput : GoesOn (portsDark f s) ((portsDark f s).putEng (2 * f) { (portsDark f s).eng (2 * f) with queue := [] }) := ⟨rfl, rfl, rfl⟩
  have hother : ((portsDark f s).putEng (2 * f) { (portsDark f s).eng (2 * f) with queue := [] }).engState (2 * f + 1) = 0 :=
    (State.putEng_get _ _ (f := R.PMX_STAT_STATE (2 * f + 1)) (by simp [R.PMX_STAT_STATE]) (.inr (by simp [R.PMX_STAT_STATE]))).trans
      ((hd.engState _).trans h1)
  generalize (portsDark f s).putEng (2 * f) { (portsDark f s).eng (2 * f) with queue := [] } = u at hput hother ⊢
  have henter := engEnter_goesOn (2 * f) engAcquiring u
  have hstate : (engEnter (2 * f) engAcquiring u).engState (2 * f) = 1 := engEnter_engState u (by decide) (by decide)
  have hnext : (engEnter (2 * f) engAcquiring u).engState (2 * f + 1) = 0 := (engEnter_engState_of_ne u (by decide) (by omega)).trans hother
  have hh := holdEngine_ringsOnly (2 * f) (engEnter (2 * f) engAcquiring u)
  rw [engineFault_of_off _ ((hh.engState _).trans hnext)]
  have hall := hh.trans (holdEngine_ringsOnly (2 * f + 1) _)
  refine ⟨(hall.engState _).trans hstate, ?_⟩
  obtain ⟨-, -, hgo'⟩ := hall
  exact ((hgo.trans hput).trans henter).trans hgo'

/-! ## A feed of no laser -/

theorem eng_of_none {s : State} (h : s.engs = []) (e : Nat) : s.eng e = Eng.reset := by
  rw [State.eng, h]
  rfl

/-- A write of EN = 0 to a domain that is on and whose regulator works. -/
theorem domPut_off {d : Nat} {s : State} (hw : switchable d = true) (he : s.bit (R.PWR_DOM_EN d) = true) (hd : d ≠ 23)
    (hf : (s.setBit (R.PWR_DOM_EN d) false).domFault d = false) :
    domPut d false s = domState d 0 (domLost d (s.setBit (R.PWR_DOM_EN d) false)) := by
  simp [domPut, hw, he, hd, hf]

theorem domLost_bankA (s : State) : domLost 19 s = bankOff 0 s := by
  rw [domLost, if_neg (by decide), if_neg (by decide), if_pos (by decide)]

/-- A package that runs, with laser 1 FAILED and spare 8 WARM, of which the model notes that it was to be lit again on feed 9,216. Feeds are 0 to 7
(R31); the statement does not exclude another. STATE of engine 18,432, of that feed, would stand where LAS_STAT of laser 1 stands. -/
def strayFeed : State :=
  { ((State.reset.set R.HUB_BOOT_STATE 1).set (R.LAS_STAT_STATE 1) 4).set (R.LAS_STAT_STATE 8) 1 with lasTarget := [(8, 9216)] }

theorem engState_strayEngine (s : State) : s.engState (2 * 9216) = s.las 1 := rfl

theorem strayFeed_reaches : Reaches (.hart 0) (0x980000 + 4 * 19) strayFeed := by unfold Reaches; decide +kernel

theorem strayFeed_domain : strayFeed.get (R.PWR_DOM_EN 19) = 1 ∧ strayFeed.get (R.PWR_DOM_STATE 19) ≠ 3 ∧
    (strayFeed.setBit (R.PWR_DOM_EN 19) false).domFault 19 = false := by decide +kernel

theorem strayFeed_quiet : Quiet strayFeed :=
  ⟨fun e => by rw [eng_of_none rfl e]; exact ⟨rfl, rfl, rfl⟩, rfl, rfl, rfl⟩

/-- The package with EN of PD19 cleared. -/
def strayFeedOff : State := strayFeed.setBit (R.PWR_DOM_EN 19) false

theorem strayFeedOff_lasers : (∀ j, j < 4 → strayFeedOff.las j = 0 ∨ strayFeedOff.las j = 4) ∧ strayFeedOff.las 8 = 1 ∧
    strayFeedOff.get (R.LAS_STAT_SERVES 8) = 15 := by decide +kernel

theorem strayFeedOff_feed : (∀ i, i < 4 → PortIdle (4 * 9216 + i) strayFeedOff) ∧ strayFeedOff.engServing (2 * 9216) = true ∧
    strayFeedOff.engState (2 * 9216 + 1) = 0 := by
  unfold PortIdle
  decide +kernel

theorem exec_powerDomainOff (r : Requester) (d : PwrDom) (s : State) :
    exec (.powerDomainOff r d) s = attempt (gated r (0x980000 + 4 * d.val) (domPut d false)) s := rfl

/-- Once that engine acquires its rings, what is left of the loss of PD19 leaves laser 1 WARM. -/
theorem strayEngine_las {u : State} (l : List (Nat × Nat)) (h : u.engState (2 * 9216) = 1) :
    (domState 19 0 (lasEnter 8 lasOff 15 { u with lasTarget := l })).las 1 = 1 := calc
  (domState 19 0 (lasEnter 8 lasOff 15 { u with lasTarget := l })).las 1
    = (lasEnter 8 lasOff 15 { u with lasTarget := l }).las 1 := State.get_set_of_ne _ _ (by decide)
  _ = u.las 1 := lasOff_sameRegs 8 15 _ (R.LAS_STAT_STATE 1) (by decide) (by decide)
  _ = 1 := (engState_strayEngine u).symm.trans h

/-- PD19 of that package goes off: the engine that is not there acquires its rings, and laser 1 is WARM. -/
theorem strayFeed_off : Completes (.powerDomainOff (.hart 0) 19) strayFeed fun t => t.las 1 = 1 := by
  obtain ⟨he, -, hf⟩ := strayFeed_domain
  obtain ⟨hd, h8, hs⟩ := strayFeedOff_lasers
  obtain ⟨hp, e0, e1⟩ := strayFeedOff_feed
  have hen : strayFeed.bit (R.PWR_DOM_EN 19) = true := by rw [State.bit, he]; rfl
  have heng : strayFeedOff.eng (2 * 9216) = Eng.reset := eng_of_none rfl _
  obtain ⟨hacq, hgo⟩ := feedDark_of_serving hp e0 (by rw [heng]; rfl) (by rw [heng]; rfl) e1
  have ht : strayFeedOff.takeovers = [] := rfl
  have hl : strayFeedOff.lasTarget = [(8, 9216)] := rfl
  obtain ⟨l, hbank⟩ := bankOff_of_spare hd h8 hs ht hl hgo rfl rfl
  have e : gated (.hart 0) (0x980000 + 4 * 19) (domPut 19 false) strayFeed = domState 19 0 (bankOff 0 strayFeedOff) := by
    rw [gated_pass _ strayFeed_reaches, domPut_off (d := 19) (s := strayFeed) (by decide) hen (by decide) hf, domLost_bankA, strayFeedOff]
  have hlater (t : State) : GoesOn t (domState 19 0 t) := ⟨rfl, rfl, rfl⟩
  obtain ⟨htrip, -⟩ := ((hgo.trans (goesOn_withLasTarget _ l)).trans (lasEnter_goesOn 8 lasOff 15 _)).trans (hlater _)
  rw [hbank] at e
  refine completes_of ((exec_powerDomainOff _ _ _).trans (attempt_of_untripped rfl e htrip)) ?_
  exact strayEngine_las l hacq

/-- Refutes O58: a bank that goes off darkens the feeds that its lasers are noted to serve; where that is the number of no feed, the engines of the feed
may be registers of a laser, and the FAILED laser 1 reads WARM. -/
theorem not_powerAndHeat : ¬ Obligations.PowerAndHeat := by
  rintro ⟨domains, -⟩
  obtain ⟨he, hst, -⟩ := strayFeed_domain
  obtain ⟨off, -⟩ := domains (.hart 0) 19 strayFeed strayFeed_reaches strayFeed_quiet
  obtain ⟨t, ht, -, -, -, -, hlas, -⟩ := off rfl he hst (by decide)
  obtain ⟨u, hu, h1⟩ := strayFeed_off
  cases ht.symm.trans hu
  have hlas : t.las 1 = 0 ∨ t.las 1 = 4 := hlas (by decide) (by decide) 1 (by decide)
  omega

end Sys2Proof.Machine
end
